-- ==== Sys2Proof/Word.lean ====
section
/-! DEFINITION. The plain data the model is built from: a byte, and a table of a fixed number of entries
(the 48 positions, the 12 drops of a segment, the 16 notice categories). A table pairs its rows with the proof of their
number once, so that an entry of every index exists and no later definition asks again. -/

namespace Sys2Proof

/-- A byte of a station line, a segment line or the retained memory. -/
abbrev Byte := BitVec 8

/-- `n` values of type `α`, numbered from 0. -/
structure Table (α : Type) (n : Nat) where
  rows : List α
  size : rows.length = n
  deriving DecidableEq, Repr

/-- The table whose every entry is `a`. -/
def Table.fill {α : Type} (n : Nat) (a : α) : Table α n :=
  ⟨List.replicate n a, List.length_replicate⟩

/-- The table whose entry `i` is `f i`. -/
def Table.build {α : Type} {n : Nat} (f : Fin n → α) : Table α n :=
  ⟨List.ofFn f, List.length_ofFn⟩

/-- Entry `i`. -/
def Table.get {α : Type} {n : Nat} (t : Table α n) (i : Fin n) : α :=
  t.rows[i.val]'(t.size.symm ▸ i.isLt)

/-- The table with entry `i` replaced. -/
def Table.set {α : Type} {n : Nat} (t : Table α n) (i : Fin n) (a : α) : Table α n :=
  ⟨t.rows.set i.val a, by rw [List.length_set]; exact t.size⟩

/-- The table with entry `i` changed by `f`. -/
def Table.modify {α : Type} {n : Nat} (t : Table α n) (i : Fin n) (f : α → α) : Table α n :=
  t.set i (f (t.get i))

/-- The table with every entry changed by `f`. -/
def Table.map {α β : Type} {n : Nat} (f : α → β) (t : Table α n) : Table β n :=
  ⟨t.rows.map f, by rw [List.length_map]; exact t.size⟩

/-- How many entries satisfy `f`. -/
def Table.count {α : Type} {n : Nat} (t : Table α n) (f : α → Bool) : Nat :=
  t.rows.countP f

end Sys2Proof
end

