-- ==== Sys2Proof/Config.lean ====
section
/-! DEFINITION. What the manual fixes once for the part (its periods and buffer sizes), and the four free values: results the
manual gives an effect for and does not state. A free value is an opaque constant of a counter that State holds
(`State.fresh`), so that a claim about it holds whatever the value is. -/

namespace Sys2Proof.Config

/-- R24: the poll cycle timer's period in fast mode, in milliseconds. -/
def fastPeriod : Nat := 5
/-- R24: the poll cycle timer's period in quiet mode, in milliseconds. -/
def quietPeriod : Nat := 100
/-- R24: the quiet-entry timer, in milliseconds. -/
def quietEntryTime : Nat := 2000
/-- R24: the settle timer, in milliseconds. -/
def settleTime : Nat := 500
/-- R169: the lapse timer, in milliseconds. -/
def lapseTime : Nat := 2000
/-- R104: the reference step timer, in milliseconds. -/
def stepTime : Nat := 10
/-- R158: the receive FIFO of a station port, in bytes. -/
def rxSize : Nat := 64
/-- R158: the transmit FIFO of a station port, in bytes. -/
def txSize : Nat := 128
/-- R165: the free transmit space at which a held request executes. -/
def replyRoom : Nat := 86
/-- R168: the free transmit space at which an update frame is queued. -/
def updateRoom : Nat := 121
/-- R163: the receive FIFO fill at which the port owes a HOLD. -/
def holdFill : Nat := 48
/-- R163: the receive FIFO fill at or below which the port owes a GO. -/
def goFill : Nat := 16
/-- R40: the pulses of one echo test. -/
def echoPulses : Nat := 16
/-- R199: the bytes of the retained image. -/
def imageSize : Nat := 585

/-- Free value (log entry 2): the tenths of a second left of a dwell when READ_GROUP reads it (R84). The model
holds no clock, so the time that has passed since the dwell began is not known to it. -/
opaque dwellTenthsLeft : Nat → Nat

/-- Free value (log entry 3): the quotient of R155 when there is no valid position to divide by. -/
opaque reseatOfNone : Nat → Nat

/-- Free value (log entry 3): the smallest stroke less contact less offset (R105) when there is no valid position. -/
opaque ceilingOfNone : Nat → Nat

/-- Free value (log entry 3): the speed limit of R106 when there is no valid position. -/
opaque speedLimitOfNone : Nat → Nat

end Sys2Proof.Config
end

