-- ==== Sys2Proof/Syntax.lean ====
section
/-! DEFINITION. The commands of the part: one constructor of `Instr` for each row of spec/opcode_table.json, and the types of
their operands. A row is a step of the part, whole and indivisible: an event on one of its outside connections, the expiry
of one of its timers, the completion of an operation, or the execution of one kind of held request (spec/95). -/

namespace Sys2Proof

/-- A station port, 0 to 3. -/
abbrev PortId := Fin 4
/-- A segment line: S1 is 0 and S4 is 3. -/
abbrev SegId := Fin 4
/-- A drop of a segment line: drop 1 is 0 and drop 12 is 11. -/
abbrev DropId := Fin 12
/-- A lift position index p, 0 to 47. -/
abbrev Pos := Fin 48
/-- A car: car 1 is 0 and car 12 is 11. -/
abbrev CarId := Fin 12
/-- A joint: joint k between car k and car k + 1 is k - 1, so joint 1 is 0 and joint 11 is 10. -/
abbrev JointId := Fin 11

/-- A contact of the safety chain, STOP_IN or STOP_OUT (R145). -/
inductive Contact where
  | closed
  | opened
  deriving DecidableEq, Repr

/-- What the serial memory gives at the reading of the image (R188). -/
inductive MemoryReading where
  /-- No answer to the identification within 1 ms. -/
  | noAnswer
  /-- An answer, and the bytes of the whole image area. -/
  | answered (bytes : List Byte)
  deriving DecidableEq, Repr

/-- The outcome of the memory's transactions in one write (R193). -/
inductive WriteOutcome where
  /-- The memory does not answer. -/
  | noAnswer
  /-- The memory does not report completion within 100 ms of the start. -/
  | notCompleted
  /-- The memory reports completion in time and is read back. -/
  | completed (readBack : List Byte)
  deriving DecidableEq, Repr

/-- The polarity of a reflection against its pulse (R41). -/
inductive Polarity where
  | same
  | opposite
  deriving DecidableEq, Repr

/-- The size of a reflection against the weak threshold and the detection threshold (R41). -/
inductive Strength where
  | belowWeak
  | betweenThresholds
  | aboveDetection
  deriving DecidableEq, Repr

/-- The largest reflection heard after one pulse (R41), its delay in 5 ns counts. -/
structure Reflection where
  polarity : Polarity
  strength : Strength
  delay : Nat
  deriving DecidableEq, Repr

/-- The commands: one constructor for each row of spec/opcode_table.json, in the table's order. -/
inductive Instr where
  /-- POWER_ON_RESET: a power-on reset or an assertion of RESET, with the level found on STOP_IN (R186, R147). -/
  | powerOnReset (stopIn : Contact)
  /-- RESET_RELEASE: the release of reset, with the strap pins B and A, true for high (R158, R186). -/
  | resetRelease (strapB strapA : Bool)
  /-- IMAGE_READ_END: the end of the reading of the image (R188, R189). -/
  | imageReadEnd (reading : MemoryReading)
  /-- WRITE_END: the end of a write of the image (R193). -/
  | writeEnd (outcome : WriteOutcome)
  /-- STATION_BYTE_RECEIVED: a byte from a station, and whether its stop bit had a framing fault (R160). -/
  | stationByteReceived (q : PortId) (value : Byte) (faulted : Bool)
  /-- HOLD: the HOLD byte from a station (R159). -/
  | hold (q : PortId)
  /-- GO: the GO byte from a station (R159). -/
  | go (q : PortId)
  /-- STOP_BYTE: the STOP byte from a station (R146). -/
  | stopByte (q : PortId)
  /-- FRAME_ASSEMBLER_TAKE: the frame assembler takes the next byte of the receive FIFO (R161). -/
  | frameAssemblerTake (q : PortId)
  /-- TRANSMIT_CHARACTER: a character ends on the port's outbound line (R164). -/
  | transmitCharacter (q : PortId)
  /-- UPDATE_FRAME: the port queues one watch update (R168, R184). -/
  | updateFrame (q : PortId)
  /-- UNKNOWN: the port executes a held request whose code names no request (R165). -/
  | unknown (q : PortId)
  /-- READ_ROSTER: the port executes a held READ_ROSTER (R19). -/
  | readRoster (q : PortId)
  /-- READ_COLUMN: the port executes a held READ_COLUMN (R20). -/
  | readColumn (q : PortId)
  /-- READ_CAR: the port executes a held READ_CAR (R21). -/
  | readCar (q : PortId)
  /-- READ_SEGMENT: the port executes a held READ_SEGMENT (R45). -/
  | readSegment (q : PortId)
  /-- READ_GROUP: the port executes a held READ_GROUP (R84). -/
  | readGroup (q : PortId)
  /-- READ_PLAN: the port executes a held READ_PLAN (R103). -/
  | readPlan (q : PortId)
  /-- READ_LIMITS: the port executes a held READ_LIMITS (R144). -/
  | readLimits (q : PortId)
  /-- READ_STOP: the port executes a held READ_STOP (R157). -/
  | readStop (q : PortId)
  /-- NOTICE_NEXT: the port executes a held NOTICE_NEXT (R178). -/
  | noticeNext (q : PortId)
  /-- NOTICE_SET: the port executes a held NOTICE_SET (R176). -/
  | noticeSet (q : PortId)
  /-- WATCH: the port executes a held WATCH (R181). -/
  | watch (q : PortId)
  /-- UNWATCH: the port executes a held UNWATCH (R182). -/
  | unwatch (q : PortId)
  /-- CLAIM: the port executes a held CLAIM (R170). -/
  | claim (q : PortId)
  /-- YIELD: the port executes a held YIELD (R171). -/
  | yield (q : PortId)
  /-- STOP: the port executes a held STOP request (R146). -/
  | stop (q : PortId)
  /-- MAP: the port executes a held MAP (R5). -/
  | map (q : PortId)
  /-- UNMAP: the port executes a held UNMAP (R8). -/
  | unmap (q : PortId)
  /-- LINK: the port executes a held LINK (R9). -/
  | link (q : PortId)
  /-- CONFIRM: the port executes a held CONFIRM (R10, R11). -/
  | confirm (q : PortId)
  /-- ECHO: the port executes a held ECHO (R39). -/
  | echo (q : PortId)
  /-- APPROACH: the port executes a held APPROACH (R67). -/
  | approach (q : PortId)
  /-- RUN: the port executes a held RUN (R69, R73). -/
  | run (q : PortId)
  /-- PAUSE: the port executes a held PAUSE (R73, R75). -/
  | pause (q : PortId)
  /-- SETDOWN: the port executes a held SETDOWN (R78). -/
  | setdown (q : PortId)
  /-- RETRACT: the port executes a held RETRACT (R81). -/
  | retract (q : PortId)
  /-- JOG: the port executes a held JOG (R83, R138). -/
  | jog (q : PortId)
  /-- REARM: the port executes a held REARM (R153, R154). -/
  | rearm (q : PortId)
  /-- PLAN_LEG: the port executes a held PLAN_LEG (R100). -/
  | planLeg (q : PortId)
  /-- PLAN_CUT: the port executes a held PLAN_CUT (R102). -/
  | planCut (q : PortId)
  /-- LIMIT_SET: the port executes a held LIMIT_SET (R142). -/
  | limitSet (q : PortId)
  /-- LAPSE_TIMER_EXPIRY: the lapse timer expires (R173). -/
  | lapseTimerExpiry
  /-- STOP_IN_OPEN: STOP_IN has been open for 1 ms (R147). -/
  | stopInOpen
  /-- STOP_IN_CLOSE: STOP_IN has been closed for 1 ms (R147). -/
  | stopInClose
  /-- POLL_CYCLE_TIMER_EXPIRY: a segment's poll cycle timer expires (R25). -/
  | pollCycleTimerExpiry (g : SegId)
  /-- COMMAND: a segment controller begins its next exchange (R28). -/
  | command (g : SegId)
  /-- SEGMENT_LINE_BYTE: a byte is heard on a segment line (R23). -/
  | segmentLineByte (g : SegId) (value : Byte)
  /-- STATUS_ARRIVAL: the bytes of one frame have been heard in the open reply window (R29, R198). -/
  | statusArrival (g : SegId) (frame : List Byte)
  /-- REPLY_WINDOW_CLOSE: the reply window closes with no acceptable reply (R29, R30). -/
  | replyWindowClose (g : SegId)
  /-- ALLSTOP: a segment controller sends its owed ALLSTOP (R32). -/
  | allstop (g : SegId)
  /-- QUIET_ENTRY_TIMER_EXPIRY: a segment's quiet-entry timer expires (R35). -/
  | quietEntryTimerExpiry (g : SegId)
  /-- SETTLE_TIMER_EXPIRY: a drop's settle timer expires (R49). -/
  | settleTimerExpiry (g : SegId) (d : DropId)
  /-- ECHO_TEST_RUNNING: a waiting echo test finds the line free (R40). -/
  | echoTestRunning (g : SegId)
  /-- ECHO_PULSE: one pulse of an echo test and the largest reflection that follows it (R41). -/
  | echoPulse (g : SegId) (r : Reflection)
  /-- ECHO_TEST_END: the 20 ms of an echo test end (R43). -/
  | echoTestEnd (g : SegId)
  /-- REFERENCE_STEP_TIMER_EXPIRY: the reference step timer expires (R109). -/
  | referenceStepTimerExpiry
  /-- DWELL_TIMER_EXPIRY: the dwell timer expires (R72, R113). -/
  | dwellTimerExpiry
  deriving DecidableEq, Repr

end Sys2Proof
end

