-- ==== Sys2Proof/Decode.lean ====
section
/-! DEFINITION. The command that a word spells by the bits of spec/opcode_table.json. No row of this part's table gives bits
(every row's "fields" is empty, and the table's reader read no fixed bits either): its commands are events and steps, so no
word spells one. The byte codes that the part itself decodes are elsewhere: a station frame's bytes in Machine/Ports.lean,
the request codes of R196 and their arguments in Machine/Operands.lean, a segment frame in Machine/Bytes.lean and
Machine/Segments.lean, the retained image in Machine/Image.lean. -/

namespace Sys2Proof

/-- No row of the table gives bits, so no word spells a command. -/
def decodeTableWord (_nbits _w : Nat) : Option Instr :=
  none

end Sys2Proof
end

