-- ==== Sys2Proof/Machine/Defaults.lean ====
section
/-! DEFINITION. The two default tables of the manual: the levels of the notice categories (section 10.1) and the limits
(section 7.8). -/

namespace Sys2Proof.Machine

/-- The default level of each notice category, in order of category number (the table of section 10.1). -/
def defaultLevels : Table (Fin 4) 16 :=
  ⟨[0, 0, 0, 1, 1, 2, 2, 3, 1, 2, 1, 2, 2, 3, 1, 2], rfl⟩

/-- The default of each limit, in order of id (R141). -/
def defaultLimits : Table Nat 17 :=
  ⟨[20, 4, 100, 120, 80, 32, 5, 60, 6000, 500, 40, 60, 200, 400, 10, 10, 45], rfl⟩

end Sys2Proof.Machine
end

