-- ==== Sys2Proof/Machine/State.lean ====
section
/-! DEFINITION. The state of the part, block by block as the manual's block overview lists it, and `State.reset`, the part
while reset is asserted (R186). Everything is plain data. -/

namespace Sys2Proof.Machine

/-- The part raises no fault: the manual describes no event after which the part itself halts. A breach of a limit stops
the GROUP (R148), and that is a state. No command answers with a fault, so the type has no constructor. -/
inductive Fault where
  deriving DecidableEq, Repr

/-- Why a command has no meaning in the model. -/
inductive Refusal where
  /-- A command of the opcode table that has no meaning yet, raised by its arm of `exec` alone. Safe: no claim about a
  next state can be proved of it. No arm raises it. -/
  | notModelled (mnemonic : String)
  deriving DecidableEq, Repr

/-- Where the part stands in its start-up (R186, R188, R189). -/
inductive PowerState where
  /-- Reset is asserted. -/
  | inReset
  /-- Reset is released and the retained image is being read. -/
  | reading
  /-- The reading has ended. -/
  | running
  deriving DecidableEq, Repr

/-- A timer: stopped, or running from a start at the given number of milliseconds. -/
inductive Timer where
  | stopped
  | running (ms : Nat)
  deriving DecidableEq, Repr

/-- The baud rate of all four station ports (R158). -/
inductive BaudRate where
  | b115200
  | b230400
  | b460800
  | b921600
  deriving DecidableEq, Repr

/-! ### Station ports (R158) -/

/-- A byte in the receive FIFO with its framing-fault mark (R161). -/
structure RxByte where
  value : Byte
  faulted : Bool
  deriving DecidableEq, Repr

/-- The frame assembler (R161): HUNTING, or IN_FRAME with whether the byte before was an ESC and the values gathered
after escapes are undone, the length first. -/
inductive Assembler where
  | hunting
  | inFrame (escaped : Bool) (gathered : List Byte)
  deriving DecidableEq, Repr

/-- An out-of-band byte owed to the line (R163). -/
inductive OutOfBand where
  | hold
  | go
  deriving DecidableEq, Repr

/-- The state of one station port controller. `line` is the character the transmitter is sending, none while the line is
idle: it is the port's output pin, not a register. -/
@[ext]
structure Port where
  rx : List RxByte
  assembler : Assembler
  held : Option (List Byte)
  tx : List Byte
  outboundPaused : Bool
  inboundHeld : Bool
  owed : List OutOfBand
  overrun : Bool
  framing : Bool
  line : Option Byte
  deriving DecidableEq, Repr

/-- A port after reset (R158). -/
def Port.initial : Port :=
  { rx := [], assembler := .hunting, held := none, tx := [], outboundPaused := false, inboundHeld := false, owed := [],
    overrun := false, framing := false, line := none }

/-! ### Roster (R3) -/

/-- A valid position entry. -/
structure RosterEntry where
  seg : SegId
  drop : DropId
  serial : Option (BitVec 32)
  deriving DecidableEq, Repr

/-- The roster table: an entry is none when its valid flag is clear. The reverse map is computed from the entries
(`State.mappedAt`). -/
structure Roster where
  entries : Table (Option RosterEntry) 48
  links : Table Bool 11
  confirmed : Bool
  deriving DecidableEq, Repr

/-- The empty roster (R3). -/
def Roster.empty : Roster :=
  { entries := .fill 48 none, links := .fill 11 false, confirmed := false }

/-! ### Segment controllers (R24) -/

/-- The link states of a drop (section 3.1). -/
inductive LinkState where
  | absent
  | settling
  | paging
  | ready
  | enrolled
  | lost
  | refused
  deriving DecidableEq, Repr

/-- A capability record: what a drive has given in its pages (section 3.3). -/
structure Capability where
  serial : Option (BitVec 32)
  stroke : Option Nat
  rated : Option Nat
  maxSpeed : Option Nat
  deriving DecidableEq, Repr

/-- A capability record with every field absent. -/
def Capability.empty : Capability :=
  { serial := none, stroke := none, rated := none, maxSpeed := none }

/-- The state a segment controller keeps for one drop (R24). -/
@[ext]
structure Drop where
  toggle : Bool
  link : LinkState
  miss : Nat
  settle : Timer
  page : Fin 4
  cap : Capability
  deriving DecidableEq, Repr

/-- A drop after reset (R24). -/
def Drop.initial : Drop :=
  { toggle := false, link := .absent, miss := 0, settle := .stopped, page := 3, cap := .empty }

/-- The polling mode (R24). -/
inductive PollMode where
  | fast
  | quiet
  deriving DecidableEq, Repr

/-- The kinds of exchange (R28). -/
inductive ExchangeKind where
  | poll
  | probe
  deriving DecidableEq, Repr

/-- The in-flight exchange: the drop and the kind (R24), with the toggle (R29) and the page request (R50) that its
COMMAND carried. -/
structure Exchange where
  drop : DropId
  kind : ExchangeKind
  toggle : Bool
  page : Fin 4
  deriving DecidableEq, Repr

/-- A cycle in progress (R26): the drops below `reached` have been visited or passed over, `exchanged` are the drops that
have had an exchange in this cycle, and `probed` is set once its probe has begun. -/
structure Cycle where
  reached : Nat
  exchanged : List DropId
  probed : Bool
  deriving DecidableEq, Repr

/-- A cycle that has made no exchange yet. -/
def Cycle.fresh : Cycle :=
  { reached := 0, exchanged := [], probed := false }

/-- The classes of a pulse and of an echo test (R41, R44). -/
inductive EchoClass where
  | openCircuit
  | short
  | uncertain
  | matched
  | aborted
  deriving DecidableEq, Repr

/-- The distance of an echo result (R42, R43). -/
inductive EchoDistance where
  | missing
  | far
  | decimetres (d : Nat)
  deriving DecidableEq, Repr

/-- The counts of pulses in the four classes (R43). -/
structure EchoCounts where
  openCircuit : Nat
  short : Nat
  uncertain : Nat
  matched : Nat
  deriving DecidableEq, Repr

/-- An echo result (R43); the counts and the average are absent when the class is ABORTED (R44). -/
structure EchoResult where
  cable : Fin 3
  cls : EchoClass
  counts : Option EchoCounts
  average : Option Nat
  distance : EchoDistance
  deriving DecidableEq, Repr

/-- What is recorded of one pulse (R40): its class and its delay. -/
structure Pulse where
  cls : EchoClass
  delay : Nat
  deriving DecidableEq, Repr

/-- The echo test state (R24), with the cable type held since the acceptance (R39) and, in RUNNING, the pulses so far. -/
inductive EchoTest where
  | none
  | waiting (cable : Fin 3)
  | running (cable : Fin 3) (pulses : List Pulse)
  deriving DecidableEq, Repr

/-- The state of one segment controller (R24). `idleWaitRestarted` says that a byte has been heard since the controller last
sent a frame (R23), and `line` is the frame the controller sent last: the segment line's output, not a register. -/
@[ext]
structure Segment where
  mode : PollMode
  pollTimer : Timer
  quietTimer : Timer
  cycle : Option Cycle
  startOwed : Bool
  overrun : Bool
  discovery : DropId
  inFlight : Option Exchange
  allstopOwed : Bool
  drops : Table Drop 12
  echo : EchoTest
  lastEcho : Option EchoResult
  idleWaitRestarted : Bool
  line : Option (List Byte)
  deriving DecidableEq, Repr

/-- A segment controller after reset (R24). -/
def Segment.initial : Segment :=
  { mode := .fast, pollTimer := .stopped, quietTimer := .stopped, cycle := none, startOwed := false, overrun := false,
    discovery := 11, inFlight := none, allstopOwed := false, drops := .fill 12 .initial, echo := .none, lastEcho := none,
    idleWaitRestarted := false, line := none }

/-! ### Column records (R14) -/

/-- The classification of a column (R123). -/
inductive Classification where
  | none
  | inPosition
  | ahead
  | lag
  deriving DecidableEq, Repr

/-- The drive flags of a STATUS (R16). -/
structure DriveFlags where
  moving : Bool
  upperLimit : Bool
  lowerLimit : Bool
  driveFault : Bool
  deriving DecidableEq, Repr

/-- All four drive flags clear. -/
def DriveFlags.clear : DriveFlags :=
  { moving := false, upperLimit := false, lowerLimit := false, driveFault := false }

/-- One column record (the table of section 1.4). -/
@[ext]
structure Column where
  link : LinkState
  cap : Capability
  height : Option Nat
  load : Option Nat
  range : Bool
  flags : DriveFlags
  contact : Option Nat
  rel : Option Int
  offset : Int
  lag : Option Int
  cls : Classification
  mark : Bool
  demand : Int
  jog : Bool
  parked : Bool
  share : Bool
  wasLost : Bool
  creep : Option Nat
  deriving DecidableEq, Repr

/-- The empty state of a column record (R7). -/
def Column.empty : Column :=
  { link := .absent, cap := .empty, height := none, load := none, range := false, flags := .clear, contact := none,
    rel := none, offset := 0, lag := none, cls := .none, mark := false, demand := 0, jog := false, parked := false,
    share := false, wasLost := false, creep := none }

/-! ### Phase, plan and reference (R62, R99, R104) -/

/-- The ten group phases (section 4.1). -/
inductive Phase where
  | idle
  | approach
  | aligned
  | lifting
  | lowering
  | dwell
  | holding
  | landed
  | retracting
  | stopped
  deriving DecidableEq, Repr

/-- One entry of the plan table (section 6.1). -/
structure Leg where
  target : Nat
  speed : Nat
  dwell : Nat
  continues : Bool
  deriving DecidableEq, Repr

/-- A plan entry at its default (R99). -/
def Leg.initial : Leg :=
  { target := 0, speed := 100, dwell := 0, continues := false }

/-- The plan table, the leg count n and the leg index (R99). -/
@[ext]
structure Plan where
  legs : Table Leg 16
  count : Nat
  index : Nat
  deriving DecidableEq, Repr

/-- The plan at its defaults (R99). -/
def Plan.initial : Plan :=
  { legs := .fill 16 .initial, count := 0, index := 0 }

/-- The direction d of a leg: +1 or -1 (R104). -/
inductive Direction where
  | up
  | down
  deriving DecidableEq, Repr

/-- The state of the reference generator beside the plan (R104). -/
@[ext]
structure Reference where
  fine : Nat
  h : Nat
  vEff : Nat
  dir : Direction
  target : Option Nat
  speed : Option Nat
  dwell : Nat
  continues : Bool
  setDown : Bool
  arrived : Bool
  stepTimer : Timer
  dwellTimer : Timer
  deriving DecidableEq, Repr

/-- The reference generator after reset (R104). -/
def Reference.initial : Reference :=
  { fine := 0, h := 0, vEff := 0, dir := .up, target := none, speed := none, dwell := 0, continues := false,
    setDown := false, arrived := false, stepTimer := .stopped, dwellTimer := .stopped }

/-! ### Stop unit (R145) -/

/-- The fourteen stop causes (section 8.1). -/
inductive StopCause where
  | stopRequest
  | stopByte
  | stopIn
  | authorityLapse
  | lag
  | carSpread
  | articulation
  | overload
  | loadLost
  | driveLimit
  | noContact
  | columnLost
  | driveFault
  | powerRestored
  deriving DecidableEq, Repr

/-- A stop record (R145). -/
structure StopRecord where
  cause : StopCause
  pos : Option Pos
  car : Option CarId
  value : Option Int
  phase : Phase
  h : Nat
  legIndex : Nat
  port : Option PortId
  deriving DecidableEq, Repr

/-- The stop unit: a set of causes is a table of flags in order of cause code. -/
@[ext]
structure StopUnit where
  record : Option StopRecord
  further : Table Bool 14
  previous : Option (StopRecord × Table Bool 14)
  stopIn : Contact
  stopOut : Contact
  deriving DecidableEq, Repr

/-- The stop unit after reset (R145). The level of STOP_IN is the level found on the input; an unconnected input reads OPEN
(section 11.3). -/
def StopUnit.initial : StopUnit :=
  { record := none, further := .fill 14 false, previous := none, stopIn := .opened, stopOut := .opened }

/-! ### Notices and watches (R174, R181) -/

/-- The sixteen notice categories (section 10.1). -/
inductive Category where
  | trip
  | stop
  | columnLost
  | columnFault
  | authority
  | phase
  | legDone
  | enrol
  | rosterMismatch
  | planClamped
  | creep
  | loadShare
  | range
  | echoDone
  | retain
  | cycleOverrun
  deriving DecidableEq, Repr

/-- The notice state of one station (R174): a set of categories is a table of flags in order of category number. -/
@[ext]
structure NoticeState where
  enabled : Table Bool 16
  level : Table (Fin 4) 16
  waiting : Table Bool 16
  deriving DecidableEq, Repr

/-- The notice state of a station after reset: all enabled, RETAIN (14) alone pending (R174). -/
def NoticeState.initial : NoticeState :=
  { enabled := .fill 16 true, level := defaultLevels, waiting := (Table.fill 16 false).set 14 true }

/-- What an update frame told a station of a position (R181). -/
structure Sent where
  height : Option Nat
  load : Option Nat
  link : LinkState
  cls : Classification
  mark : Bool
  deriving DecidableEq, Repr

/-- The watch state of one station (R181). -/
@[ext]
structure WatchState where
  watched : Table Bool 48
  heightBand : Nat
  loadBand : Nat
  lastSent : Table (Option Sent) 48
  owed : Table Bool 48
  pointer : Pos
  deriving DecidableEq, Repr

/-- The watch state of a station after reset (R181). -/
def WatchState.initial : WatchState :=
  { watched := .fill 48 false, heightBand := 20, loadBand := 100, lastSent := .fill 48 none, owed := .fill 48 false,
    pointer := 47 }

/-- The last creep record (R174). -/
structure CreepRecord where
  pos : Pos
  baseline : Nat
  height : Nat
  deriving DecidableEq, Repr

/-! ### Retention unit (R187) -/

/-- The retention status (R187). -/
inductive RetentionStatus where
  | valid
  | empty
  | corrupt
  | failed
  | absent
  deriving DecidableEq, Repr

/-- The content of a retained image (section 11.2). -/
structure Image where
  roster : Roster
  limits : Table Nat 17
  plan : Plan
  contacts : Table (Option Nat) 48
  offsets : Table Int 48
  phase : Phase
  deriving DecidableEq, Repr

/-- The retention unit. The write-in-flight flag is set exactly when `writing` holds the image being written (R191). -/
@[ext]
structure Retention where
  status : RetentionStatus
  writing : Option Image
  rewrite : Bool
  deriving DecidableEq, Repr

/-- The retention unit after reset (R187). -/
def Retention.initial : Retention :=
  { status := .absent, writing := none, rewrite := false }

/-! ### The whole part -/

/-- The state of the part, with the queue of the commands that wait, first in, first out, and the counter of free values. -/
@[ext]
structure State where
  power : PowerState
  baud : BaudRate
  ports : Table Port 4
  holder : Option PortId
  lapse : Timer
  roster : Roster
  segs : Table Segment 4
  cols : Table Column 48
  starts : Table (Option Nat) 48
  phase : Phase
  pausePending : Bool
  plan : Plan
  ref : Reference
  holdCount : Nat
  outCount : Nat
  spread : Table (Option Nat) 12
  limits : Table Nat 17
  stop : StopUnit
  notices : Table NoticeState 4
  watches : Table WatchState 4
  lastCreep : Option CreepRecord
  lastEcho : Option SegId
  retention : Retention
  pending : List Instr
  fresh : Nat
  deriving DecidableEq, Repr

/-- The part while a power-on reset is asserted: every block at its value after reset (R186), no command waiting. -/
def State.reset : State :=
  { power := .inReset, baud := .b115200, ports := .fill 4 .initial, holder := none, lapse := .stopped, roster := .empty,
    segs := .fill 4 .initial, cols := .fill 48 .empty, starts := .fill 48 none, phase := .idle, pausePending := false,
    plan := .initial, ref := .initial, holdCount := 0, outCount := 0, spread := .fill 12 none, limits := defaultLimits,
    stop := .initial, notices := .fill 4 .initial, watches := .fill 4 .initial, lastCreep := none, lastEcho := none,
    retention := .initial, pending := [], fresh := 0 }

end Sys2Proof.Machine
end

