-- ==== Sys2Proof/Machine/Bytes.lean ====
section
/-! DEFINITION. The coding of values (chapter 12): the byte orders, the signed and the optional values, the code tables, the
CRC-16, and the framing of a station frame. -/

namespace Sys2Proof.Machine

/-! ### Numbers -/

/-- The clamp of a finished value to a range (Conventions, Arithmetic). -/
def clampInt (lo hi x : Int) : Int :=
  if x < lo then lo else if hi < x then hi else x

/-- The clamp of a natural number to a range. -/
def clampNat (lo hi x : Nat) : Nat :=
  if x < lo then lo else if hi < x then hi else x

/-- The low eight bits of a number. -/
def byteOf (n : Nat) : Byte :=
  BitVec.ofNat 8 n

/-- Two bytes, most significant first (R195). -/
def be16 (n : Nat) : List Byte :=
  [byteOf (n / 256), byteOf n]

/-- Three bytes, most significant first (R195). -/
def be24 (n : Nat) : List Byte :=
  [byteOf (n / 65536), byteOf (n / 256), byteOf n]

/-- Four bytes, most significant first (R195). -/
def be32 (n : Nat) : List Byte :=
  [byteOf (n / 16777216), byteOf (n / 65536), byteOf (n / 256), byteOf n]

/-- A signed 16-bit value in two's complement (R195). -/
def signed16 (x : Int) : List Byte :=
  be16 (x % 65536).toNat

/-- A signed 24-bit value in two's complement (R195). -/
def signed24 (x : Int) : List Byte :=
  be24 (x % 16777216).toNat

/-- An optional unsigned 8-bit value, 0xFF when absent (R195). -/
def opt8 : Option Nat → List Byte
  | some n => [byteOf n]
  | none => [0xFF]

/-- An optional unsigned 16-bit value, 0xFFFF when absent (R195). -/
def opt16 : Option Nat → List Byte
  | some n => be16 n
  | none => [0xFF, 0xFF]

/-- An optional unsigned 24-bit value, 0xFFFFFF when absent (R195). -/
def opt24 : Option Nat → List Byte
  | some n => be24 n
  | none => [0xFF, 0xFF, 0xFF]

/-- An optional signed 24-bit value, 0x800000 when absent (R195). -/
def optSigned24 : Option Int → List Byte
  | some x => signed24 x
  | none => [0x80, 0x00, 0x00]

/-- A serial's four bytes, zero when it is absent: its presence bit stands elsewhere in each layout (R195). -/
def serialBytes : Option (BitVec 32) → List Byte
  | some x => be32 x.toNat
  | none => [0, 0, 0, 0]

/-- Flags as a number, the first flag at bit 0. -/
def bitsOf : List Bool → Nat
  | [] => 0
  | b :: bs => b.toNat + 2 * bitsOf bs

/-- A set of positions in six bytes: byte j holds positions 8j to 8j + 7 (R195). -/
def positionSet (t : Table Bool 48) : List Byte :=
  [byteOf (bitsOf (t.rows.take 8)), byteOf (bitsOf ((t.rows.drop 8).take 8)),
   byteOf (bitsOf ((t.rows.drop 16).take 8)), byteOf (bitsOf ((t.rows.drop 24).take 8)),
   byteOf (bitsOf ((t.rows.drop 32).take 8)), byteOf (bitsOf ((t.rows.drop 40).take 8))]

/-- A 16-bit argument, most significant byte first (R195). -/
def word16 (a b : Byte) : Nat :=
  a.toNat * 256 + b.toNat

/-- A signed 16-bit argument (R195). -/
def int16 (a b : Byte) : Int :=
  if word16 a b < 32768 then (word16 a b : Int) else (word16 a b : Int) - 65536

/-- A 32-bit argument, most significant byte first (R195). -/
def word32 (a b c d : Byte) : BitVec 32 :=
  BitVec.ofNat 32 (((a.toNat * 256 + b.toNat) * 256 + c.toNat) * 256 + d.toNat)

/-! ### Codes (section 12.1) -/

/-- The codes of the phases. -/
def Phase.code : Phase → Nat
  | .idle => 0
  | .approach => 1
  | .aligned => 2
  | .lifting => 3
  | .lowering => 4
  | .dwell => 5
  | .holding => 6
  | .landed => 7
  | .retracting => 8
  | .stopped => 9

/-- The phase of a code. -/
def phaseOfCode : Nat → Option Phase
  | 0 => some .idle
  | 1 => some .approach
  | 2 => some .aligned
  | 3 => some .lifting
  | 4 => some .lowering
  | 5 => some .dwell
  | 6 => some .holding
  | 7 => some .landed
  | 8 => some .retracting
  | 9 => some .stopped
  | _ => none

/-- The codes of the link states. -/
def LinkState.code : LinkState → Nat
  | .absent => 0
  | .settling => 1
  | .paging => 2
  | .ready => 3
  | .enrolled => 4
  | .lost => 5
  | .refused => 6

/-- The codes of the classifications. -/
def Classification.code : Classification → Nat
  | .none => 0
  | .inPosition => 1
  | .ahead => 2
  | .lag => 3

/-- The codes of the stop causes. -/
def StopCause.code : StopCause → Fin 14
  | .stopRequest => 0
  | .stopByte => 1
  | .stopIn => 2
  | .authorityLapse => 3
  | .lag => 4
  | .carSpread => 5
  | .articulation => 6
  | .overload => 7
  | .loadLost => 8
  | .driveLimit => 9
  | .noContact => 10
  | .columnLost => 11
  | .driveFault => 12
  | .powerRestored => 13

/-- The codes of the echo classes. -/
def EchoClass.code : EchoClass → Nat
  | .openCircuit => 0
  | .short => 1
  | .uncertain => 2
  | .matched => 3
  | .aborted => 4

/-- The codes of the retention statuses. -/
def RetentionStatus.code : RetentionStatus → Nat
  | .valid => 0
  | .empty => 1
  | .corrupt => 2
  | .failed => 3
  | .absent => 4

/-- The category numbers (section 10.1). -/
def Category.code : Category → Fin 16
  | .trip => 0
  | .stop => 1
  | .columnLost => 2
  | .columnFault => 3
  | .authority => 4
  | .phase => 5
  | .legDone => 6
  | .enrol => 7
  | .rosterMismatch => 8
  | .planClamped => 9
  | .creep => 10
  | .loadShare => 11
  | .range => 12
  | .echoDone => 13
  | .retain => 14
  | .cycleOverrun => 15

/-- The categories in order of their numbers. -/
def Category.all : List Category :=
  [.trip, .stop, .columnLost, .columnFault, .authority, .phase, .legDone, .enrol, .rosterMismatch, .planClamped, .creep,
   .loadShare, .range, .echoDone, .retain, .cycleOverrun]

/-- The result codes (R167). -/
inductive ResultCode where
  | done
  | notHolder
  | wrongPhase
  | badArg
  | conflict
  | incomplete
  | held
  | busy
  | unknown
  | planEnd
  deriving DecidableEq, Repr

/-- The codes of the results (R167). -/
def ResultCode.code : ResultCode → Nat
  | .done => 0
  | .notHolder => 1
  | .wrongPhase => 2
  | .badArg => 3
  | .conflict => 4
  | .incomplete => 5
  | .held => 6
  | .busy => 7
  | .unknown => 8
  | .planEnd => 9

/-- The reasons of INCOMPLETE (section 12.1). -/
inductive Reason where
  | emptyRoster
  | carIncomplete
  | dropNotReady
  | serialDiffers
  | notConfirmed
  | stopInOpen
  | driveFault
  | overload
  | loadLost
  deriving DecidableEq, Repr

/-- The codes of the reasons (section 12.1). -/
def Reason.code : Reason → Nat
  | .emptyRoster => 0
  | .carIncomplete => 1
  | .dropNotReady => 2
  | .serialDiffers => 3
  | .notConfirmed => 4
  | .stopInOpen => 5
  | .driveFault => 6
  | .overload => 7
  | .loadLost => 8

/-- A contact's bit: set when it is open. -/
def contactOpen : Contact → Bool
  | .closed => false
  | .opened => true

/-- The four drive flags, MOVING at bit 0 (section 12.2). -/
def DriveFlags.bits (f : DriveFlags) : List Bool :=
  [f.moving, f.upperLimit, f.lowerLimit, f.driveFault]

/-- The bytes of an echo result (section 12.2). The fields of an absent result are coded as absent fields (R195). -/
def echoResultBytes : Option EchoResult → List Byte
  | none => [0, 0xFF, 0xFF, 0xFF, 0xFF, 0xFF, 0xFF, 0xFF, 0xFF]
  | some r =>
    byteOf (128 + 16 * r.cable.val + r.cls.code)
      :: ((match r.counts with
          | some c => [byteOf c.openCircuit, byteOf c.short, byteOf c.uncertain, byteOf c.matched]
          | none => [0xFF, 0xFF, 0xFF, 0xFF])
        ++ opt16 r.average
        ++ (match r.distance with
          | .missing => [0xFF, 0xFF]
          | .far => [0xFF, 0xFE]
          | .decimetres d => be16 d))

/-- The roster entry byte: valid at bit 7, serial present at bit 6, the segment less 1 at bits 4 and 5, the drop at bits 0
to 3 (R195). -/
def entryByte : Option RosterEntry → Byte
  | none => 0
  | some e => byteOf (128 + 64 * e.serial.isSome.toNat + 16 * e.seg.val + (e.drop.val + 1))

/-! ### CRC-16 and framing (R161) -/

/-- One bit of the CRC-16 with polynomial 0x1021. -/
def crcBit (c : BitVec 16) : BitVec 16 :=
  if c.msb then (c <<< 1) ^^^ 0x1021#16 else c <<< 1

/-- One byte of the CRC-16, most significant bit first. -/
def crcByte (c : BitVec 16) (b : Byte) : BitVec 16 :=
  crcBit (crcBit (crcBit (crcBit (crcBit (crcBit (crcBit (crcBit (c ^^^ (b.setWidth 16 <<< 8)))))))))

/-- The CRC-16: polynomial 0x1021, initial value 0xFFFF, no reflection, no final inversion (R161). -/
def crc16 (bytes : List Byte) : BitVec 16 :=
  bytes.foldl crcByte 0xFFFF#16

/-- The two CRC bytes of a frame, most significant first. -/
def crcBytes (bytes : List Byte) : List Byte :=
  be16 (crc16 bytes).toNat

/-- START (R159). -/
def startByte : Byte := 0xA5
/-- ESC (R159). -/
def escByte : Byte := 0xA6
/-- HOLD (R159). -/
def holdByte : Byte := 0xA7
/-- GO (R159). -/
def goByte : Byte := 0xA8
/-- STOP (R159). -/
def stopByteValue : Byte := 0xA9

/-- Whether a value is one of the reserved bytes 0xA5 to 0xA9 (R159). -/
def isReserved (b : Byte) : Bool :=
  decide (0xA5 ≤ b.toNat) && decide (b.toNat ≤ 0xA9)

/-- A value as it goes on the line inside a frame: a reserved value as ESC and the value XOR 0x20 (section 9.2). -/
def escapeByte (b : Byte) : List Byte :=
  if isReserved b then [escByte, b ^^^ 0x20] else [b]

/-- The values of a frame as they go on the line. -/
def escapeBytes : List Byte → List Byte
  | [] => []
  | b :: bs => escapeByte b ++ escapeBytes bs

/-- The length and the body of a frame, which its CRC covers (R161). -/
def framePayload (body : List Byte) : List Byte :=
  byteOf body.length :: body

/-- A whole outbound frame: START, then the length, the body and the CRC, escaped (R164). -/
def stationFrame (body : List Byte) : List Byte :=
  startByte :: escapeBytes (framePayload body ++ crcBytes (framePayload body))

/-! ### Segment frames (R198) -/

/-- The type byte of a COMMAND: POLL 0x01 or PROBE 0x02. -/
def ExchangeKind.code : ExchangeKind → Byte
  | .poll => 0x01
  | .probe => 0x02

/-- A frame with its CRC, computed over every byte before it (R198). -/
def withCrc (bytes : List Byte) : List Byte :=
  bytes ++ crcBytes bytes

/-- A COMMAND frame (section 12.3). -/
def commandFrame (d : DropId) (kind : ExchangeKind) (toggle : Bool) (page : Fin 4) (demand : Int) : List Byte :=
  withCrc ([byteOf (d.val + 1), kind.code, byteOf (toggle.toNat + 16 * page.val)] ++ signed16 demand)

/-- The ALLSTOP frame (section 12.3). -/
def allstopFrame : List Byte :=
  withCrc [0, 0x03, 0]

/-- What an acceptable STATUS carries (section 12.3): the page field, the reported values, the flags and the page data. -/
structure Report where
  page : Fin 4
  height : Nat
  load : Nat
  flags : DriveFlags
  data : BitVec 32
  deriving DecidableEq, Repr

/-- The STATUS that a frame's bytes hold for drop `d` and toggle `toggle`, none when the frame is not acceptable
(R29, R198): 14 bytes, a correct CRC, type 0x04, the drop's number and the toggle of the COMMAND. -/
def readStatus (d : DropId) (toggle : Bool) (frame : List Byte) : Option Report :=
  match frame with
  | [b0, b1, b2, b3, b4, b5, b6, b7, b8, b9, b10, b11, b12, b13] =>
    if crcBytes [b0, b1, b2, b3, b4, b5, b6, b7, b8, b9, b10, b11] = [b12, b13] ∧ b0.toNat = d.val + 1 ∧ b1 = 0x04 ∧
        b2.getLsbD 0 = toggle then
      some { page := Fin.ofNat 4 (b2.toNat / 16), height := word16 b3 b4, load := word16 b5 b6,
             flags := { moving := b7.getLsbD 0, upperLimit := b7.getLsbD 1, lowerLimit := b7.getLsbD 2,
                        driveFault := b7.getLsbD 3 },
             data := word32 b8 b9 b10 b11 }
    else none
  | _ => none

end Sys2Proof.Machine
end

