-- ==== Sys2Proof/Machine/Ops.lean ====
section
/-! DEFINITION. The named operations over the state that the commands share: the accessors of each table, the roster's derived
views, raising a notice, testing the watches, the poll cycle, the wake, the retention trigger, a phase change, taking a stop
and a change of a drop's link state. Each is written once, after the rule it names. -/

namespace Sys2Proof.Machine

/-! ### Accessors -/

/-- Station port `q`. -/
def State.port (s : State) (q : PortId) : Port :=
  s.ports.get q

/-- Changes station port `q`. -/
def State.modPort (s : State) (q : PortId) (f : Port → Port) : State :=
  { s with ports := s.ports.modify q f }

/-- Segment controller `g`. -/
def State.seg (s : State) (g : SegId) : Segment :=
  s.segs.get g

/-- Changes segment controller `g`. -/
def State.modSeg (s : State) (g : SegId) (f : Segment → Segment) : State :=
  { s with segs := s.segs.modify g f }

/-- Changes all four segment controllers. -/
def State.mapSegs (s : State) (f : Segment → Segment) : State :=
  { s with segs := s.segs.map f }

/-- Drop `d` of segment `g`. -/
def State.drop (s : State) (g : SegId) (d : DropId) : Drop :=
  (s.seg g).drops.get d

/-- Changes drop `d` of segment `g`. -/
def State.modDrop (s : State) (g : SegId) (d : DropId) (f : Drop → Drop) : State :=
  s.modSeg g fun sg => { sg with drops := sg.drops.modify d f }

/-- The column record of position `p`. -/
def State.col (s : State) (p : Pos) : Column :=
  s.cols.get p

/-- Changes the column record of position `p`. -/
def State.modCol (s : State) (p : Pos) (f : Column → Column) : State :=
  { s with cols := s.cols.modify p f }

/-- Changes all 48 column records. -/
def State.mapCols (s : State) (f : Column → Column) : State :=
  { s with cols := s.cols.map f }

/-- Changes the notice state of station `q`. -/
def State.modNotices (s : State) (q : PortId) (f : NoticeState → NoticeState) : State :=
  { s with notices := s.notices.modify q f }

/-- Changes the watch state of station `q`. -/
def State.modWatch (s : State) (q : PortId) (f : WatchState → WatchState) : State :=
  { s with watches := s.watches.modify q f }

/-- Sets the demand field of position `p`. -/
def State.setDemand (s : State) (p : Pos) (v : Int) : State :=
  s.modCol p fun c => { c with demand := v }

/-- The next free value's index is used up. -/
def State.spendFresh (s : State) : State :=
  { s with fresh := s.fresh + 1 }

/-- The seventeen limits by name (R141). -/
inductive LimitId where
  | wAdv
  | wDone
  | lTrip
  | tCar
  | aStep
  | kp
  | ramp
  | vApp
  | travel
  | contactLoad
  | setDownBand
  | setDownSpeed
  | releaseLoad
  | retractDistance
  | creepBand
  | shareMin
  | shareMax
  deriving DecidableEq, Repr

/-- The ids of the limits (R141). -/
def LimitId.code : LimitId → Fin 17
  | .wAdv => 0
  | .wDone => 1
  | .lTrip => 2
  | .tCar => 3
  | .aStep => 4
  | .kp => 5
  | .ramp => 6
  | .vApp => 7
  | .travel => 8
  | .contactLoad => 9
  | .setDownBand => 10
  | .setDownSpeed => 11
  | .releaseLoad => 12
  | .retractDistance => 13
  | .creepBand => 14
  | .shareMin => 15
  | .shareMax => 16

/-- The range of each limit, in order of id (R141). -/
def limitRanges : Table (Nat × Nat) 17 :=
  ⟨[(2, 200), (1, 200), (10, 1000), (10, 2000), (10, 2000), (1, 255), (1, 50), (10, 200), (200, 40000), (50, 10000),
    (0, 400), (10, 200), (0, 10000), (0, 4000), (1, 400), (0, 25), (25, 100)], rfl⟩

/-- The value of a limit. -/
def State.limit (s : State) (i : LimitId) : Nat :=
  s.limits.get i.code

/-! ### Positions, cars and joints (R1) -/

/-- The car of a position: floor(p ÷ 4) + 1, counted here from 0. -/
def carOf (p : Pos) : CarId :=
  ⟨p.val / 4, by have := p.isLt; omega⟩

/-- The point of a position: 0 A-left, 1 A-right, 2 B-left, 3 B-right. -/
def pointOf (p : Pos) : Fin 4 :=
  ⟨p.val % 4, by omega⟩

/-- The position of a car's point. -/
def posOf (c : CarId) (point : Fin 4) : Pos :=
  ⟨c.val * 4 + point.val, by have := c.isLt; have := point.isLt; omega⟩

/-- The four positions of a car, A-left to B-right. -/
def carPositions (c : CarId) : List Pos :=
  [posOf c 0, posOf c 1, posOf c 2, posOf c 3]

/-- Car k of joint k. -/
def carBefore (k : JointId) : CarId :=
  ⟨k.val, by have := k.isLt; omega⟩

/-- Car k + 1 of joint k. -/
def carAfter (k : JointId) : CarId :=
  ⟨k.val + 1, by have := k.isLt; omega⟩

/-- The joint to car k - 1, none for car 1. -/
def jointBefore (c : CarId) : Option JointId :=
  if h : 0 < c.val then some ⟨c.val - 1, by have := c.isLt; omega⟩ else none

/-- The joint to car k + 1, none for car 12. -/
def jointAfter (c : CarId) : Option JointId :=
  if h : c.val < 11 then some ⟨c.val, h⟩ else none

/-- The joint at whose end a position stands: the joint to car k + 1 for a B-end point, to car k - 1 for an A-end point
(R2, R132). -/
def jointOf (p : Pos) : Option JointId :=
  if 2 ≤ (pointOf p).val then jointAfter (carOf p) else jointBefore (carOf p)

/-- The two positions of car k's B-end at joint k. -/
def endBefore (k : JointId) : Pos × Pos :=
  (posOf (carBefore k) 2, posOf (carBefore k) 3)

/-- The two positions of car k + 1's A-end at joint k. -/
def endAfter (k : JointId) : Pos × Pos :=
  (posOf (carAfter k) 0, posOf (carAfter k) 1)

/-! ### The roster's derived views -/

/-- Position `p`'s roster entry, none when its valid flag is clear. -/
def State.entry (s : State) (p : Pos) : Option RosterEntry :=
  s.roster.entries.get p

/-- Whether position `p`'s entry is valid. -/
def State.validPos (s : State) (p : Pos) : Bool :=
  (s.entry p).isSome

/-- The valid positions in ascending order. -/
def State.validPositions (s : State) : List Pos :=
  (List.finRange 48).filter s.validPos

/-- Whether an entry names a segment and drop. -/
def entryNames (g : SegId) (d : DropId) : Option RosterEntry → Bool
  | some e => decide (e.seg = g) && decide (e.drop = d)
  | none => false

/-- The reverse map: the position whose valid entry names the pair, and none where no valid entry does (R3). -/
def State.mappedAt (s : State) (g : SegId) (d : DropId) : Option Pos :=
  (List.finRange 48).find? fun p => entryNames g d (s.entry p)

/-- A car is present when at least one of its four entries is valid (R2). -/
def State.carPresent (s : State) (c : CarId) : Bool :=
  (carPositions c).any s.validPos

/-- An articulation is effective when its flag is set and both its cars are present (R2). -/
def State.linkEffective (s : State) (k : JointId) : Bool :=
  s.roster.links.get k && s.carPresent (carBefore k) && s.carPresent (carAfter k)

/-! ### Phases -/

/-- The motion phases (section 4.1). -/
def Phase.isMotion : Phase → Bool
  | .approach | .lifting | .lowering | .dwell | .retracting => true
  | .idle | .aligned | .holding | .landed | .stopped => false

/-- The tracked phases (section 4.1). -/
def Phase.isTracked : Phase → Bool
  | .lifting | .lowering | .dwell | .holding => true
  | .idle | .approach | .aligned | .landed | .retracting | .stopped => false

/-- The phases in which a leg runs. -/
def Phase.isLeg : Phase → Bool
  | .lifting | .lowering => true
  | .idle | .approach | .aligned | .dwell | .holding | .landed | .retracting | .stopped => false

/-! ### Notices (R175) -/

/-- A raise at one station: a station with the category enabled gets it pending. -/
def NoticeState.raised (c : Category) (n : NoticeState) : NoticeState :=
  if n.enabled.get c.code then { n with waiting := n.waiting.set c.code true } else n

/-- A notice of category `c` is raised (R175). -/
def State.raise (s : State) (c : Category) : State :=
  { s with notices := s.notices.map (NoticeState.raised c) }

/-! ### Watches (R183) -/

/-- The distance between two numbers. -/
def natDistance (a b : Nat) : Nat :=
  (a - b) + (b - a)

/-- A present value and a sent value differ in presence, or by at least the deadband. -/
def movedBy (band : Nat) : Option Nat → Option Nat → Bool
  | some a, some b => decide (band ≤ natDistance a b)
  | none, none => false
  | some _, none => true
  | none, some _ => true

/-- The five conditions of R183, any of which makes a position owed. -/
def WatchState.differs (w : WatchState) (p : Pos) (c : Column) : Bool :=
  match w.lastSent.get p with
  | none => true
  | some k =>
    movedBy w.heightBand c.height k.height || movedBy w.loadBand c.load k.load || decide (c.link ≠ k.link)
      || decide (c.cls ≠ k.cls) || decide (c.mark ≠ k.mark)

/-- The test of R183 at one station. -/
def WatchState.tested (p : Pos) (c : Column) (w : WatchState) : WatchState :=
  if w.watched.get p && w.differs p c then { w with owed := w.owed.set p true } else w

/-- The test of a position against every station's watch (R183). -/
def State.testWatches (s : State) (p : Pos) : State :=
  { s with watches := s.watches.map (WatchState.tested p (s.col p)) }

/-! ### The poll cycle (R25, R26) -/

/-- The next drop to visit: the first at or after the point reached that is not ABSENT (R26). -/
def Segment.nextVisit (sg : Segment) (reached : Nat) : Option DropId :=
  (List.finRange 12).find? fun d => decide (reached ≤ d.val) && decide ((sg.drops.get d).link ≠ .absent)

/-- The drops after the discovery pointer, counting upward and wrapping from 12 to 1 (R26). -/
def Segment.probeOrder (sg : Segment) : List DropId :=
  (List.finRange 12).map fun k => sg.discovery + k + 1

/-- The drop to probe: the first after the discovery pointer that is ABSENT and has had no exchange in this cycle (R26). -/
def Segment.nextProbe (sg : Segment) (exchanged : List DropId) : Option DropId :=
  sg.probeOrder.find? fun d => decide ((sg.drops.get d).link = .absent) && !exchanged.contains d

/-- The next exchange of the cycle in progress: a visit, then at most one probe, then none (R26). -/
def Segment.nextExchange (sg : Segment) : Option (DropId × ExchangeKind) :=
  match sg.cycle with
  | none => none
  | some c =>
    if c.probed then none
    else
      match sg.nextVisit c.reached with
      | some d => some (d, .poll)
      | none =>
        match sg.nextProbe c.exchanged with
        | some d => some (d, .probe)
        | none => none

/-- A cycle ends: an owed start begins the next at once, and otherwise the line has kept its period (R25). A cycle that
has no exchange to make ends at once. -/
def Segment.endCycle (sg : Segment) : Segment :=
  if sg.startOwed && ({ sg with cycle := some .fresh } : Segment).nextExchange.isSome then
    { sg with cycle := some .fresh, startOwed := false }
  else { sg with cycle := none, startOwed := false, overrun := false }

/-- A cycle begins (R25). A cycle that has no exchange to make ends at once. -/
def Segment.beginCycle (sg : Segment) : Segment :=
  if ({ sg with cycle := some .fresh } : Segment).nextExchange.isSome then { sg with cycle := some .fresh }
  else sg.endCycle

/-- The controller goes on after an exchange: the cycle ends when no exchange is left (R25, R31). -/
def Segment.goOn (sg : Segment) : Segment :=
  if sg.cycle.isSome && sg.nextExchange.isNone then sg.endCycle else sg

/-- The period of the present mode. -/
def PollMode.period : PollMode → Nat
  | .fast => Config.fastPeriod
  | .quiet => Config.quietPeriod

/-- A segment in quiet mode returns to fast mode (R37). -/
def Segment.toFast (sg : Segment) : Segment :=
  match sg.mode with
  | .fast => sg
  | .quiet =>
    let sg := { sg with mode := .fast, pollTimer := .running Config.fastPeriod }
    if sg.cycle.isNone && decide (sg.echo = .none) then sg.beginCycle else sg

/-- What a wake does to one segment: fast mode, and outside the motion phases the quiet-entry timer restarted (R36). -/
def Segment.woken (motion : Bool) (sg : Segment) : Segment :=
  if motion then sg.toFast else { sg.toFast with quietTimer := .running Config.quietEntryTime }

/-- A wake condition (R36). The timers are stopped until polling begins (R24), so before that it does nothing. -/
def State.wake (s : State) : State :=
  match s.power with
  | .running => (s.mapSegs (Segment.woken s.phase.isMotion)).mapCols fun c => { c with creep := none }
  | .inReset | .reading => s

/-! ### The retention trigger (R191, R192) -/

/-- The phase written to the image: while the group is STOPPED, the phase at stop (R151, R191). -/
def State.imagePhase (s : State) : Phase :=
  match s.phase, s.stop.record with
  | .stopped, some r => r.phase
  | ph, _ => ph

/-- The contact heights that a write begun now records: none in APPROACH, where a loss of power restores none, and those of the
columns in every other phase (R88, R191; DEDUCED, log entry 39). -/
def State.imageContacts (s : State) : Table (Option Nat) 48 :=
  if s.phase = .approach then .fill 48 none else s.cols.map fun c => c.contact

/-- The state as a write that begins now records it (R191). -/
def State.image (s : State) : Image :=
  { roster := s.roster, limits := s.limits, plan := s.plan, contacts := s.imageContacts,
    offsets := s.cols.map fun c => c.offset, phase := s.imagePhase }

/-- A retention trigger: before the end of the reading it is discarded (R190); then it begins a write, or marks a rewrite
when one is in flight (R192). -/
def State.trigger (s : State) : State :=
  match s.power with
  | .running =>
    match s.retention.writing with
    | none => { s with retention := { s.retention with writing := some s.image } }
    | some _ => { s with retention := { s.retention with rewrite := true } }
  | .inReset | .reading => s

/-! ### Classification and the two counts (R124, R125) -/

/-- Sets a column's classification, mark and lag, and adjusts the two counts by the difference (R124). -/
def State.classify (s : State) (p : Pos) (cls : Classification) (mark : Bool) (lag : Option Int) : State :=
  { s.modCol p (fun c => { c with cls := cls, mark := mark, lag := lag }) with
    holdCount := s.holdCount + (decide (cls = .lag)).toNat - (decide ((s.col p).cls = .lag)).toNat
    outCount := s.outCount + mark.toNat - (s.col p).mark.toNat }

/-- A change into a phase that is not tracked: every classification NONE, every mark clear, every lag absent and both
counts 0 (R125). -/
def State.untrack (s : State) : State :=
  { s.mapCols (fun c => { c with cls := .none, mark := false, lag := none }) with holdCount := 0, outCount := 0 }

/-! ### A phase change (R64, R65) -/

/-- What an entry to IDLE discards (R65, R104). No rule gives the direction d its value then: it keeps the last leg's (DESIGN
CHOICE, log entry 38). -/
def State.discardLift (s : State) : State :=
  { s.mapCols (fun c => { c with contact := none, rel := none, offset := 0, parked := false, share := false }) with
    spread := .fill 12 none
    plan := { s.plan with index := 0 }
    ref := { s.ref with h := 0, fine := 0, vEff := 0, arrived := false, target := none, speed := none, setDown := false } }

/-- The reference at an entry to ALIGNED (R68, R99, R104). -/
def State.zeroReference (s : State) : State :=
  { s with
    plan := { s.plan with index := 0 }
    ref := { s.ref with h := 0, fine := 0, vEff := 0, arrived := false } }

/-- What an entry to IDLE or to ALIGNED does to the lift and the reference, before the write that R64 triggers. -/
def State.enterRest (s : State) (new : Phase) : State :=
  match new with
  | .idle => s.discardLift
  | .aligned => s.zeroReference
  | .approach | .lifting | .lowering | .dwell | .holding | .landed | .retracting | .stopped => s

/-- The parked flags are cleared at each entry to RETRACTING and each change out of it (R93). -/
def State.clearParked (s : State) (new : Phase) : State :=
  if s.phase = .retracting ∨ new = .retracting then s.mapCols fun c => { c with parked := false } else s

/-- The approach start heights: taken at the entry to APPROACH for every valid position (R86), absent after every change
out of it (R85). -/
def State.setStarts (s : State) (new : Phase) : State :=
  match new with
  | .approach => { s with starts := .build fun p => if s.validPos p then (s.col p).height else none }
  | .idle | .aligned | .lifting | .lowering | .dwell | .holding | .landed | .retracting | .stopped =>
    if s.phase = .approach then { s with starts := .fill 48 none } else s

/-- Steps 1 to 3 of R64: the demands and the jog flags, pause-pending, v_eff and the two timers. -/
def State.haltMotion (s : State) (new : Phase) : State :=
  { s.mapCols (fun c => { c with demand := 0, jog := false }) with
    pausePending := false
    ref := { s.ref with vEff := 0, stepTimer := if new.isLeg then s.ref.stepTimer else .stopped,
                        dwellTimer := if new = .dwell then s.ref.dwellTimer else .stopped } }

/-- Step 6 of R64: in a motion phase the quiet-entry timers are stopped (R34), and the change is a wake condition. -/
def State.applyPolling (s : State) : State :=
  if s.phase.isMotion then (s.mapSegs fun sg => { sg with quietTimer := .stopped }).wake else s.wake

/-- A change of the group phase, with all that R64 and R65 make of it. A request that leaves the phase as it was is no
phase change. -/
def State.changePhase (s : State) (new : Phase) : State :=
  if s.phase = new then s
  else
    let s := ((s.setStarts new).clearParked new).enterRest new
    let s := { s.haltMotion new with phase := new }
    let s := if new.isTracked then s else s.untrack
    ((s.raise .phase).trigger).applyPolling

/-! ### Stops (R148, R149) -/

/-- An offer of a stop, with the fields its cause fills (the table of section 8.1). -/
structure Offer where
  cause : StopCause
  pos : Option Pos
  car : Option CarId
  value : Option Int
  port : Option PortId
  deriving DecidableEq, Repr

/-- An offer that names no column. -/
def plainOffer (cause : StopCause) (port : Option PortId) : Offer :=
  { cause := cause, pos := none, car := none, value := none, port := port }

/-- An offer that names a column and its car. -/
def columnOffer (cause : StopCause) (p : Pos) (value : Option Int) : Offer :=
  { cause := cause, pos := some p, car := some (carOf p), value := value, port := none }

/-- The notice a first stop raises (R148, the table of section 8.1). -/
def StopCause.notice : StopCause → Option Category
  | .stopRequest | .stopByte | .stopIn | .authorityLapse => some .stop
  | .lag | .carSpread | .articulation | .overload | .loadLost | .driveLimit | .noContact | .columnLost | .driveFault =>
    some .trip
  | .powerRestored => none

/-- Raises a notice where there is one to raise. -/
def State.raiseIfAny (s : State) : Option Category → State
  | some c => s.raise c
  | none => s

/-- Polling resumes on a segment after an echo test (R43, R44): the settle timers of SETTLING drops restart, a cycle begins
at once and the poll cycle timer restarts at the period of the present mode. -/
def Segment.resume (sg : Segment) : Segment :=
  ({ sg with
      echo := .none
      pollTimer := .running sg.mode.period
      drops := sg.drops.map fun d =>
        if d.link = .settling then { d with settle := .running Config.settleTime } else d } : Segment).beginCycle

/-- The cable type of a test in WAITING or RUNNING. -/
def EchoTest.cable : EchoTest → Option (Fin 3)
  | .none => Option.none
  | .waiting c => some c
  | .running c _ => some c

/-- The result of an aborted test (R44). -/
def abortedResult (cable : Fin 3) : EchoResult :=
  { cable := cable, cls := .aborted, counts := none, average := none, distance := .missing }

/-- ECHO_DONE is raised for a segment, which becomes the last echo segment (R174). -/
def State.raiseEchoDone (s : State) (g : SegId) : State :=
  { s.raise .echoDone with lastEcho := some g }

/-- A stop aborts a segment's echo test in WAITING or RUNNING (R44). -/
def State.abortEcho (s : State) (g : SegId) : State :=
  match (s.seg g).echo.cable with
  | none => s
  | some cable =>
    (s.modSeg g fun sg => ({ sg with lastEcho := some (abortedResult cable) } : Segment).resume).raiseEchoDone g

/-- A first stop (R148), with the effects of the phase change and of R44. -/
def State.firstStop (s : State) (o : Offer) : State :=
  let r : StopRecord :=
    { cause := o.cause, pos := o.pos, car := o.car, value := o.value, phase := s.phase, h := s.ref.h,
      legIndex := s.plan.index, port := o.port }
  let s := { s with stop := { s.stop with record := some r, further := .fill 14 false } }
  let s := s.changePhase .stopped
  let s := s.mapSegs fun sg => { sg with allstopOwed := true }
  let s := { s with stop := { s.stop with stopOut := .opened } }
  let s := s.raiseIfAny o.cause.notice
  (((s.abortEcho 0).abortEcho 1).abortEcho 2).abortEcho 3

/-- The cause of the present stop record. -/
def StopUnit.recordCause (u : StopUnit) : Option StopCause :=
  u.record.map fun r => r.cause

/-- A stop taken while the group is STOPPED: its cause joins the further-causes set, unless it is the stop record's cause
(R149). -/
def State.furtherCause (s : State) (cause : StopCause) : State :=
  if s.stop.recordCause = some cause then s
  else { s with stop := { s.stop with further := s.stop.further.set cause.code true } }

/-- An offered stop is taken (R148, R149). Until the retained image has been read the stop unit takes none. -/
def State.offerStop (s : State) (o : Offer) : State :=
  match s.power with
  | .inReset | .reading => s
  | .running => if s.phase = .stopped then s.furtherCause o.cause else s.firstStop o

/-! ### Link states (R46, R47) -/

/-- The drop's own part of an entry to a link state: the settle timer runs in SETTLING alone, the requested page is 0 on
entry to PAGING and 3 elsewhere, an entry to ABSENT clears the miss count (R30), and an entry to ABSENT or SETTLING
discards the capability record (R47). -/
def Drop.enter (new : LinkState) (d : Drop) : Drop :=
  { d with
    link := new
    miss := if new = .absent then 0 else d.miss
    settle := if new = .settling then .running Config.settleTime else .stopped
    page := if new = .paging then 0 else 3
    cap := if new = .absent ∨ new = .settling then .empty else d.cap }

/-- The link state and the capability record of a drop are copied into the column record mapped to it (R46). -/
def State.mirror (s : State) (g : SegId) (d : DropId) : State :=
  match s.mappedAt g d with
  | none => s
  | some p => s.modCol p fun c => { c with link := (s.drop g d).link, cap := (s.drop g d).cap }

/-- The watches test the position mapped to a drop, where there is one. -/
def State.testMapped (s : State) (g : SegId) (d : DropId) : State :=
  match s.mappedAt g d with
  | none => s
  | some p => s.testWatches p

/-- A change of a drop's link state, whatever its cause (R46): the copy, the watches' test and the wake. A change into the
state that the drop already holds is not a change. -/
def State.changeLink (s : State) (g : SegId) (d : DropId) (new : LinkState) : State :=
  if (s.drop g d).link = new then s
  else ((((s.modDrop g d (Drop.enter new)).mirror g d).testMapped g d)).wake

end Sys2Proof.Machine
end

