-- ==== Sys2Proof/Machine/Operands.lean ====
section
/-! DEFINITION. The requests of a station: their codes and the forms of their arguments (R195, R196), the answer an owner
gives (R167), the reply composed from it (R166), and the execution of a held request (R165). -/

namespace Sys2Proof.Machine

/-! ### Request codes (R196) -/

/-- The requests of the part. -/
inductive Request where
  | readRoster
  | readColumn
  | readCar
  | readSegment
  | readGroup
  | readPlan
  | readLimits
  | readStop
  | noticeNext
  | noticeSet
  | watch
  | unwatch
  | claim
  | yield
  | stop
  | map
  | unmap
  | link
  | confirm
  | echo
  | approach
  | run
  | pause
  | setdown
  | retract
  | jog
  | rearm
  | planLeg
  | planCut
  | limitSet
  deriving DecidableEq, Repr

/-- The request codes (R196). -/
def Request.code : Request → Byte
  | .readRoster => 0x01
  | .readColumn => 0x02
  | .readCar => 0x03
  | .readSegment => 0x04
  | .readGroup => 0x05
  | .readPlan => 0x06
  | .readLimits => 0x07
  | .readStop => 0x08
  | .noticeNext => 0x10
  | .noticeSet => 0x11
  | .watch => 0x12
  | .unwatch => 0x13
  | .claim => 0x18
  | .yield => 0x19
  | .stop => 0x1A
  | .map => 0x20
  | .unmap => 0x21
  | .link => 0x22
  | .confirm => 0x23
  | .echo => 0x24
  | .approach => 0x30
  | .run => 0x31
  | .pause => 0x32
  | .setdown => 0x33
  | .retract => 0x34
  | .jog => 0x35
  | .rearm => 0x36
  | .planLeg => 0x40
  | .planCut => 0x41
  | .limitSet => 0x42

/-- Every request of the part. -/
def Request.all : List Request :=
  [.readRoster, .readColumn, .readCar, .readSegment, .readGroup, .readPlan, .readLimits, .readStop, .noticeNext, .noticeSet,
   .watch, .unwatch, .claim, .yield, .stop, .map, .unmap, .link, .confirm, .echo, .approach, .run, .pause, .setdown,
   .retract, .jog, .rearm, .planLeg, .planCut, .limitSet]

/-- Whether a code names a request of the part (R165). -/
def isRequestCode (c : Byte) : Bool :=
  Request.all.any fun r => decide (r.code = c)

/-! ### Arguments (R1, R195) -/

/-- An argument counted from 0, below `n`. -/
def fromZero (n : Nat) (b : Byte) : Option (Fin n) :=
  if h : b.toNat < n then some ⟨b.toNat, h⟩ else none

/-- An argument counted from 1, at most `n`. -/
def fromOne (n : Nat) (b : Byte) : Option (Fin n) :=
  if h : 1 ≤ b.toNat ∧ b.toNat ≤ n then some ⟨b.toNat - 1, by omega⟩ else none

/-- A flag argument: 0 is clear and any other value is set (R195). -/
def flagArg (b : Byte) : Bool :=
  decide (b ≠ 0)

/-- The arguments of MAP: position, segment, drop, and the expected serial when there is one. -/
structure MapArgs where
  pos : Pos
  seg : SegId
  drop : DropId
  serial : Option (BitVec 32)
  deriving DecidableEq, Repr

/-- MAP has three argument bytes, or seven with the serial in the last four (R196). -/
def mapArgs : List Byte → Option MapArgs
  | [p, g, d] => do
    let pos ← fromZero 48 p
    let seg ← fromOne 4 g
    let drop ← fromOne 12 d
    some { pos := pos, seg := seg, drop := drop, serial := none }
  | [p, g, d, x0, x1, x2, x3] => do
    let pos ← fromZero 48 p
    let seg ← fromOne 4 g
    let drop ← fromOne 12 d
    some { pos := pos, seg := seg, drop := drop, serial := some (word32 x0 x1 x2 x3) }
  | _ => none

/-- One argument byte that is a position. -/
def posArgs : List Byte → Option Pos
  | [p] => fromZero 48 p
  | _ => none

/-- LINK's joint and flag. -/
def linkArgs : List Byte → Option (JointId × Bool)
  | [k, f] => do
    let joint ← fromOne 11 k
    some (joint, flagArg f)
  | _ => none

/-- ECHO's segment and cable type. -/
def echoArgs : List Byte → Option (SegId × Fin 3)
  | [g, t] => do
    let seg ← fromOne 4 g
    let cable ← fromZero 3 t
    some (seg, cable)
  | _ => none

/-- READ_CAR's car and view. -/
def carArgs : List Byte → Option (CarId × Fin 2)
  | [c, v] => do
    let car ← fromOne 12 c
    let view ← fromZero 2 v
    some (car, view)
  | _ => none

/-- READ_SEGMENT's segment and view. -/
def segmentArgs : List Byte → Option (SegId × Fin 13)
  | [g, v] => do
    let seg ← fromOne 4 g
    let view ← fromZero 13 v
    some (seg, view)
  | _ => none

/-- READ_PLAN's leg index. -/
def legArgs : List Byte → Option (Fin 16)
  | [i] => fromZero 16 i
  | _ => none

/-- What a JOG names: one column or one car (R83). -/
inductive JogTarget where
  | column (p : Pos)
  | car (c : CarId)
  deriving DecidableEq, Repr

/-- JOG's kind, target and delta (R196). -/
def jogArgs : List Byte → Option (JogTarget × Int)
  | [k, t, d0, d1] =>
    if k = 0 then (fromZero 48 t).map fun p => (.column p, int16 d0 d1)
    else if k = 1 then (fromOne 12 t).map fun c => (.car c, int16 d0 d1)
    else none
  | _ => none

/-- The arguments of PLAN_LEG as they are carried (R101). -/
structure PlanLegArgs where
  index : Nat
  target : Nat
  speed : Nat
  dwell : Nat
  continues : Bool
  deriving DecidableEq, Repr

/-- PLAN_LEG's eight argument bytes (R196). -/
def planLegArgs : List Byte → Option PlanLegArgs
  | [i, t0, t1, v0, v1, w0, w1, c] =>
    some { index := i.toNat, target := word16 t0 t1, speed := word16 v0 v1, dwell := word16 w0 w1, continues := flagArg c }
  | _ => none

/-- PLAN_CUT's k. -/
def planCutArgs : List Byte → Option Nat
  | [k] => some k.toNat
  | _ => none

/-- LIMIT_SET's id and value. -/
def limitArgs : List Byte → Option (Fin 17 × Nat)
  | [i, v0, v1] => do
    let id ← fromZero 17 i
    some (id, word16 v0 v1)
  | _ => none

/-- NOTICE_SET's category, enable flag and level. -/
def noticeSetArgs : List Byte → Option (Fin 16 × Bool × Fin 4)
  | [c, e, l] => do
    let cat ← fromZero 16 c
    let level ← fromZero 4 l
    some (cat, flagArg e, level)
  | _ => none

/-- WATCH's position set and deadbands, the deadbands in their ranges (R181). -/
def watchArgs : List Byte → Option (Table Bool 48 × Nat × Nat)
  | [s0, s1, s2, s3, s4, s5, h0, h1, l0, l1] =>
    if 1 ≤ word16 h0 h1 ∧ word16 h0 h1 ≤ 2000 ∧ 1 ≤ word16 l0 l1 ∧ word16 l0 l1 ≤ 60000 then
      some (.build fun p => ([s0, s1, s2, s3, s4, s5].getD (p.val / 8) 0).getLsbD (p.val % 8), word16 h0 h1, word16 l0 l1)
    else none
  | _ => none

/-! ### Answers (R167) -/

/-- What an owner answers: the result, the clamped flag and the reply data. -/
structure Answer where
  result : ResultCode
  clamped : Bool
  data : List Byte
  deriving DecidableEq, Repr

/-- A result without data and without a clamped argument. -/
def Answer.plain (r : ResultCode) : Answer :=
  { result := r, clamped := false, data := [] }

/-- DONE with data. -/
def Answer.doneWith (data : List Byte) : Answer :=
  { result := .done, clamped := false, data := data }

/-- INCOMPLETE with its reason and position, 0xFF where there is none (section 12.2). -/
def Answer.incomplete (reason : Reason) (p : Option Pos) : Answer :=
  { result := .incomplete, clamped := false, data := byteOf reason.code :: opt8 (p.map fun x => x.val) }

/-- CONFLICT with the position that holds the pair (section 12.2). -/
def Answer.conflict (p : Pos) : Answer :=
  { result := .conflict, clamped := false, data := [byteOf p.val] }

/-- An answer that leaves the state as it is. -/
def State.refuse (s : State) (r : ResultCode) : State × Answer :=
  (s, .plain r)

/-- The two first checks of the edits and of REARM: the holder, then the reading of the image (R66, R100, R142, R153). -/
def State.turnedAway (s : State) (q : PortId) : Option ResultCode :=
  if s.holder ≠ some q then some .notHolder
  else if s.power ≠ .running then some .busy
  else none

/-! ### Replies (R166, R177) -/

/-- The attention level of a station: the smallest level among its pending categories, 4 when none is pending (R177). -/
def NoticeState.attention (n : NoticeState) : Nat :=
  (List.finRange 16).foldl (fun m c => if n.waiting.get c then min m (n.level.get c).val else m) 4

/-- The reply code: the request code plus 0x80, and 0xFF for a code from 0x80 (R166). -/
def replyCode (c : Byte) : Byte :=
  if c.toNat < 128 then c + 0x80 else 0xFF

/-- The holder as it is coded: the port, 0xFF for none (section 12.1). -/
def State.holderByte (s : State) : List Byte :=
  opt8 (s.holder.map fun q => q.val)

/-- The body of a reply: code, tag, result, the header as the state stands at composition, and the data (R166). -/
def State.replyBody (s : State) (q : PortId) (code tag : Byte) (a : Answer) : List Byte :=
  [replyCode code, tag, byteOf a.result.code, byteOf s.phase.code] ++ s.holderByte
    ++ [byteOf (s.notices.get q).attention, byteOf (bitsOf [(s.port q).overrun, (s.port q).framing, a.clamped])]
    ++ a.data

/-- The reply is queued whole, the latches it reports are cleared, and the held request is cleared (R165, R166). -/
def State.reply (s : State) (q : PortId) (code tag : Byte) (a : Answer) : State :=
  s.modPort q fun x =>
    { x with tx := x.tx ++ stationFrame (s.replyBody q code tag a), held := none, overrun := false, framing := false }

/-! ### Execution (R165) -/

/-- The request code, the tag and the arguments of the request a port may execute now: one is held, and the transmit FIFO
has 86 bytes free. The ports do not run while reset is asserted (R186). -/
def State.dueRequest (s : State) (q : PortId) : Option (Byte × Byte × List Byte) :=
  match s.power, (s.port q).held with
  | .inReset, _ => none
  | _, some (code :: tag :: args) =>
    if (s.port q).tx.length + Config.replyRoom ≤ Config.txSize then some (code, tag, args) else none
  | _, _ => none

/-- The execution of a due request whose code satisfies `isCode`: its owner checks and changes, and the reply is composed
from the state just after (R165). Where no such request is due, nothing happens. -/
def State.execute (s : State) (q : PortId) (isCode : Byte → Bool) (owner : State → List Byte → State × Answer) : State :=
  match s.dueRequest q with
  | none => s
  | some (code, tag, args) =>
    if isCode code then (owner s args).1.reply q code tag (owner s args).2 else s

/-- The execution of a due request of one kind. -/
def State.executeRequest (s : State) (q : PortId) (r : Request) (owner : State → List Byte → State × Answer) : State :=
  s.execute q (fun c => decide (c = r.code)) owner

end Sys2Proof.Machine
end

