-- ==== Sys2Proof/Machine/Authority.lean ====
section
/-! DEFINITION. The authority arbiter (section 9.7): CLAIM, YIELD and the lapse timer. -/

namespace Sys2Proof.Machine

/-- Command is granted: the holder, the lapse timer at 2 s, and AUTHORITY (R169, R170). -/
def State.grant (s : State) (q : PortId) : State :=
  ({ s with holder := some q, lapse := .running Config.lapseTime } : State).raise .authority

/-- The holder is cleared: the lapse timer stopped, and AUTHORITY (R169, R171, R173). -/
def State.clearHolder (s : State) : State :=
  ({ s with holder := none, lapse := .stopped } : State).raise .authority

/-- CLAIM at the arbiter (R170). Where the argument list is looked at is open: BAD_ARG comes before the holder is looked at
(DESIGN CHOICE, log entry 22). -/
def ownerClaim (q : PortId) (s : State) (args : List Byte) : State × Answer :=
  if args ≠ [] then s.refuse .badArg
  else
    match s.holder with
    | none => (s.grant q, .plain .done)
    | some h => if h = q then (s, .plain .done) else s.refuse .held

/-- A port's due CLAIM executes. -/
def State.takeClaim (s : State) (q : PortId) : State :=
  s.executeRequest q .claim (ownerClaim q)

/-- The ports below a port, in ascending order. -/
def portsBelow (q : PortId) : List PortId :=
  (List.finRange 4).filter fun x => decide (x < q)

/-- Whether a port has a CLAIM due. -/
def State.claimDue (s : State) (q : PortId) : Bool :=
  match s.dueRequest q with
  | some (code, _, _) => decide (code = Request.claim.code)
  | none => false

/-- CLAIMs due at one moment are taken lowest port first (R170): those of the lower ports, then the port's own. -/
def State.claim (s : State) (q : PortId) : State :=
  if s.claimDue q then ((portsBelow q).foldl State.takeClaim s).takeClaim q else s

/-- CLAIM: the execution of a held CLAIM. -/
def execClaim (q : PortId) (s : State) : Host.Outcome State Fault Refusal :=
  .next (s.claim q)

/-- YIELD (R171): the phase is looked at for the holder alone. -/
def ownerYield (q : PortId) (s : State) (args : List Byte) : State × Answer :=
  if s.holder = some q ∧ s.phase.isMotion = true then s.refuse .wrongPhase
  else if args ≠ [] then s.refuse .badArg
  else if s.holder = some q then (s.clearHolder, .plain .done)
  else (s, .plain .done)

/-- YIELD: the execution of a held YIELD. -/
def execYield (q : PortId) (s : State) : Host.Outcome State Fault Refusal :=
  .next (s.executeRequest q .yield (ownerYield q))

/-- The lapse timer's expiry: the holder is cleared, and in a motion phase a stop is offered with the port that held command
(R173). A stopped timer does not expire. -/
def State.lapseExpiry (s : State) : State :=
  match s.lapse with
  | .stopped => s
  | .running _ =>
    if s.phase.isMotion then s.clearHolder.offerStop (plainOffer .authorityLapse s.holder) else s.clearHolder

/-- LAPSE_TIMER_EXPIRY (R173). -/
def execLapseTimerExpiry (s : State) : Host.Outcome State Fault Refusal :=
  .next s.lapseExpiry

end Sys2Proof.Machine
end

