-- ==== Sys2Proof/Machine/Flags.lean ====
section
/-! DEFINITION. How each flag and classification of a column follows from a report: the range flag (R15), the classification
and the out-of-position mark (R123), and the share flag with its hysteresis (R137). -/

namespace Sys2Proof.Machine

/-- A reported height as it is stored (R15). -/
def storedHeight (h : Nat) : Nat :=
  min h 40000

/-- A reported load as it is stored (R15). -/
def storedLoad (l : Nat) : Nat :=
  min l 60000

/-- The range flag after a report: set when either value was clamped (R15). -/
def rangeFlag (h l : Nat) : Bool :=
  decide (40000 < h) || decide (60000 < l)

/-- d as a number (R104). -/
def Direction.sign : Direction → Int
  | .up => 1
  | .down => -1

/-- The classification of a lag `e` in a phase (R123). -/
def classOf (ph : Phase) (d : Direction) (wAdv : Nat) (e : Int) : Classification :=
  match ph with
  | .lifting | .lowering =>
    if (wAdv : Int) < d.sign * e then .lag else if (wAdv : Int) < -(d.sign * e) then .ahead else .inPosition
  | .dwell | .holding => if wAdv < e.natAbs then .lag else .inPosition
  | .idle | .approach | .aligned | .landed | .retracting | .stopped => .none

/-- The out-of-position mark of a lag (R123). -/
def outOfPosition (wDone : Nat) (e : Int) : Bool :=
  decide (wDone < e.natAbs)

/-- A column's share of its car's load, a whole percent (R136). -/
def sharePercent (load total : Nat) : Nat :=
  load * 100 / total

/-- The share flag after an evaluation, with its hysteresis of 2 points (R137). -/
def shareFlag (before : Bool) (shareMin shareMax share : Nat) : Bool :=
  if before then !(decide (shareMin + 2 ≤ share) && decide (share + 2 ≤ shareMax))
  else decide (share < shareMin) || decide (shareMax < share)

end Sys2Proof.Machine
end

