-- ==== Sys2Proof/Machine/Plan.lean ====
section
/-! DEFINITION. The lift plan and the reference generator (chapter 6): a leg's start, the reference step, a leg's completion,
the dwell, and the plan edits PLAN_LEG and PLAN_CUT. -/

namespace Sys2Proof.Machine

/-! ### What the installation allows (R105, R106) -/

/-- The smallest of a list of numbers, none for an empty list. -/
def smallest : List Int → Option Int
  | [] => none
  | x :: xs =>
    match smallest xs with
    | none => some x
    | some y => some (min x y)

/-- Stroke less contact height less offset, for every valid position that holds a stroke and a contact height: every one
does when a leg starts (R63, R105). -/
def State.rises (s : State) : List Int :=
  s.validPositions.filterMap fun p =>
    match (s.col p).cap.stroke, (s.col p).contact with
    | some stroke, some contact => some ((stroke : Int) - contact - (s.col p).offset)
    | _, _ => none

/-- The max speeds of the valid positions' columns (R106). -/
def State.maxSpeeds (s : State) : List Int :=
  s.validPositions.filterMap fun p => (s.col p).cap.maxSpeed.map fun v => (v : Int)

/-- The ceiling: the smallest of the rises, 0 when it is below 0 (R105). With no valid position the manual states none: a
free value in the stated range 0 to 40,000 (log entry 3). -/
def State.ceiling (s : State) : Nat :=
  match smallest s.rises with
  | some m => m.toNat
  | none => min 40000 (Config.ceilingOfNone s.fresh)

/-- The speed limit of the group: the smallest max speed times 3, divided by 4 and floored (R106). With no valid position a
free value in the stated range 7 to 300 (log entry 3). -/
def State.speedLimit (s : State) : Nat :=
  match smallest s.maxSpeeds with
  | some m => m.toNat * 3 / 4
  | none => clampNat 7 300 (Config.speedLimitOfNone s.fresh)

/-! ### Starting a leg (R107) -/

/-- Entry `i` of the plan table. -/
def Plan.leg (p : Plan) (i : Nat) : Leg :=
  if h : i < 16 then p.legs.get ⟨i, h⟩ else .initial

/-- The fields of the leg that starts: the plan entry at the leg index, or the set-down leg's (R107, R115). -/
def State.legFields (s : State) (setDown : Bool) : Leg :=
  if setDown then { target := 0, speed := s.limit .setDownSpeed, dwell := 0, continues := false }
  else s.plan.leg s.plan.index

/-- The effective target: the target clamped to 0 to the ceiling (R105). -/
def State.effectiveTarget (s : State) (setDown : Bool) : Nat :=
  min (s.legFields setDown).target s.ceiling

/-- The effective speed: the smaller of the leg's speed and the limit of the group (R106). -/
def State.effectiveSpeed (s : State) (setDown : Bool) : Nat :=
  min (s.legFields setDown).speed s.speedLimit

/-- d by comparing the effective target with H, and by the kind of leg when they are equal (R107). -/
def legDirection (target h : Nat) (setDown : Bool) : Direction :=
  if h < target then .up else if target < h then .down else if setDown then .down else .up

/-- The reference generator at a leg start (R107, R108). -/
def State.legReference (s : State) (setDown : Bool) : Reference :=
  let target := s.effectiveTarget setDown
  { s.ref with
    fine := if target = s.ref.h then 100 * target else s.ref.fine
    vEff := 0
    dir := legDirection target s.ref.h setDown
    target := some target
    speed := some (s.effectiveSpeed setDown)
    dwell := (s.legFields setDown).dwell
    continues := (s.legFields setDown).continues
    setDown := setDown
    arrived := decide (target = s.ref.h) }

/-- Whether the installation's clamps change the leg's target or its speed (R107). -/
def State.legClamped (s : State) (setDown : Bool) : Bool :=
  decide (s.effectiveTarget setDown ≠ (s.legFields setDown).target)
    || decide (s.effectiveSpeed setDown ≠ (s.legFields setDown).speed)

/-- A free value has been used when no valid position gives a rise or a speed. -/
def State.spendForLeg (s : State) : State :=
  if s.rises = [] ∨ s.maxSpeeds = [] then s.spendFresh else s

/-- Steps 1 to 6 of R107. -/
def State.takeLeg (s : State) (setDown : Bool) : State :=
  let t := if s.legClamped setDown then s.raise .planClamped else s
  ({ t with ref := s.legReference setDown } : State).spendForLeg

/-- The phase of a leg's direction (R70). -/
def Direction.phase : Direction → Phase
  | .up => .lifting
  | .down => .lowering

/-- The reference step timer is started, or runs on, at 10 ms (R70). -/
def State.runStepTimer (s : State) : State :=
  { s with ref := { s.ref with stepTimer := .running Config.stepTime } }

/-- A leg starts: the reference generator's part, then the phase (R107, R70). -/
def State.startLeg (s : State) (setDown : Bool) : State :=
  let t := s.takeLeg setDown
  (t.changePhase t.ref.dir.phase).runStepTimer

/-! ### Completion (R112, R71, R72, R79) -/

/-- Whether the leg in hand is complete: the reference arrived and the out-of-position count 0, in LIFTING or LOWERING
(R112). -/
def State.legComplete (s : State) : Bool :=
  s.phase.isLeg && s.ref.arrived && decide (s.outCount = 0)

/-- What follows a dwell, or a completed leg with none: the next leg starts (true), or the group goes to HOLDING (R72). -/
def State.afterDwell (s : State) : State × Bool :=
  if s.ref.continues && decide (s.plan.index < s.plan.count) then (s, true) else (s.changePhase .holding, false)

/-- The dwell timer is started at the entry to DWELL (R113). -/
def State.startDwell (s : State) : State :=
  let t := s.changePhase .dwell
  { t with ref := { t.ref with dwellTimer := .running (1000 * t.ref.dwell) } }

/-- A plan leg is counted: LEG_DONE, and the leg index increased, which triggers a write (R71). -/
def State.countLeg (s : State) : State :=
  ({ s.raise .legDone with plan := { s.plan with index := s.plan.index + 1 } } : State).trigger

/-- A completed leg: the set-down leg leads to LANDED (R79); a plan leg is counted, and the pause, the dwell and the
continue flag choose what follows (R71). The flag says that the next plan leg starts. -/
def State.finishLeg (s : State) : State × Bool :=
  if s.ref.setDown then ((s.raise .legDone).changePhase .landed, false)
  else
    let t := s.countLeg
    if t.pausePending then (t.changePhase .holding, false)
    else if 0 < t.ref.dwell then (t.startDwell, false)
    else t.afterDwell

/-- The completion test, followed as far as legs that start arrived complete at once (R108, R112). Each further round needs
a plan leg more, so `n` rounds are enough when the plan holds fewer than `n` legs past the index. -/
def State.completeLegs : Nat → State → State
  | 0, s => s
  | n + 1, s =>
    if s.legComplete then
      if s.finishLeg.2 then State.completeLegs n (s.finishLeg.1.startLeg false) else s.finishLeg.1
    else s

/-- The completion test of R112. -/
def State.testCompletion (s : State) : State :=
  State.completeLegs (s.plan.count - s.plan.index + 1) s

/-! ### The reference step (R109, R110, R74) -/

/-- v_eff moves toward its target by at most the ramp (R109). -/
def toward (v target ramp : Nat) : Nat :=
  if natDistance v target ≤ ramp then target else if v < target then v + ramp else v - ramp

/-- The speed target: the effective speed, or 0 while a column lags or a pause is pending (R109). -/
def State.speedTarget (s : State) (speed : Nat) : Nat :=
  if s.holdCount = 0 ∧ s.pausePending = false then speed else 0

/-- Whether F has reached or passed 100 times the target in the direction (R109). -/
def reachedTarget (d : Direction) (fine : Int) (target : Nat) : Bool :=
  match d with
  | .up => decide (100 * (target : Int) ≤ fine)
  | .down => decide (fine ≤ 100 * (target : Int))

/-- Steps 2 to 5 of R109 for a given target and speed target. -/
def Reference.stepped (r : Reference) (target speedTarget ramp : Nat) : Reference :=
  let v := toward r.vEff speedTarget ramp
  let f : Int := (r.fine : Int) + r.dir.sign * v
  if reachedTarget r.dir f target then { r with fine := 100 * target, h := target, vEff := 0, arrived := true }
  else { r with fine := f.toNat, h := f.toNat / 100, vEff := v }

/-- One reference step while the arrived flag is clear (R109). With no leg in hand there is nothing to step. -/
def State.stepReference (s : State) : State :=
  match s.ref.target, s.ref.speed with
  | some target, some speed => { s with ref := s.ref.stepped target (s.speedTarget speed) (s.limit .ramp) }
  | _, _ => s

/-- The second test of R74: a pending pause at rest brings the group to HOLDING with the leg unfinished. -/
def State.testPause (s : State) : State :=
  if s.pausePending && decide (s.ref.vEff = 0) then s.changePhase .holding else s

/-- The two tests of R74 after a step. -/
def State.afterStep (s : State) : State :=
  if s.legComplete then s.testCompletion else s.testPause

/-- A reference step expiry (R109, R110, R74). The timer runs in LIFTING and LOWERING alone. -/
def State.referenceStep (s : State) : State :=
  match s.phase.isLeg, s.ref.stepTimer with
  | true, .running _ => if s.ref.arrived then s.testPause else s.stepReference.afterStep
  | _, _ => s

/-- REFERENCE_STEP_TIMER_EXPIRY (R109). -/
def execReferenceStepTimerExpiry (s : State) : Host.Outcome State Fault Refusal :=
  .next s.referenceStep

/-! ### The dwell (R72, R113) -/

/-- The dwell timer's expiry in DWELL (R72). A stopped timer does not expire. -/
def State.dwellExpiry (s : State) : State :=
  match s.phase, s.ref.dwellTimer with
  | .dwell, .running _ => if s.afterDwell.2 then (s.afterDwell.1.startLeg false).testCompletion else s.afterDwell.1
  | _, _ => s

/-- DWELL_TIMER_EXPIRY (R72). -/
def execDwellTimerExpiry (s : State) : Host.Outcome State Fault Refusal :=
  .next s.dwellExpiry

/-! ### Plan edits (R100 to R102) -/

/-- The phases in which a plan edit is refused (R100). -/
def Phase.refusesPlanEdit : Phase → Bool
  | .lifting | .lowering | .dwell => true
  | .idle | .approach | .aligned | .holding | .landed | .retracting | .stopped => false

/-- The first three checks of the plan edits (R100). -/
def State.planRefusal (s : State) (q : PortId) : Option ResultCode :=
  match s.turnedAway q with
  | some r => some r
  | none => if s.phase.refusesPlanEdit then some .wrongPhase else none

/-- A leg's fields as they are stored (R101). -/
def PlanLegArgs.clampedLeg (a : PlanLegArgs) : Leg :=
  { target := min a.target 40000, speed := clampNat 10 400 a.speed, dwell := min a.dwell 600, continues := a.continues }

/-- Whether a target, a speed or a dwell is clamped (R101). -/
def PlanLegArgs.clamps (a : PlanLegArgs) : Bool :=
  decide (a.clampedLeg.target ≠ a.target) || decide (a.clampedLeg.speed ≠ a.speed) || decide (a.clampedLeg.dwell ≠ a.dwell)

/-- The plan with entry `i` written; an append raises n (R100). -/
def Plan.write (p : Plan) (i : Fin 16) (leg : Leg) : Plan :=
  { p with legs := p.legs.set i leg, count := if i.val = p.count then p.count + 1 else p.count }

/-- PLAN_LEG (R100, R101). -/
def ownerPlanLeg (q : PortId) (s : State) (args : List Byte) : State × Answer :=
  match s.planRefusal q with
  | some r => s.refuse r
  | none =>
    match planLegArgs args with
    | none => s.refuse .badArg
    | some a =>
      if h : a.index < 16 then
        if s.plan.count < a.index then s.refuse .badArg
        else
          (({ s with plan := s.plan.write ⟨a.index, h⟩ a.clampedLeg } : State).trigger,
            { result := .done, clamped := a.clamps, data := [] })
      else s.refuse .badArg

/-- The plan cut to its first k legs (R102). -/
def Plan.cut (p : Plan) (k : Nat) : Plan :=
  { p with count := k, index := min p.index k }

/-- PLAN_CUT (R102). -/
def ownerPlanCut (q : PortId) (s : State) (args : List Byte) : State × Answer :=
  match s.planRefusal q with
  | some r => s.refuse r
  | none =>
    match planCutArgs args with
    | none => s.refuse .badArg
    | some k =>
      if s.plan.count < k then s.refuse .badArg
      else if k = s.plan.count then (s, .plain .done)
      else (({ s with plan := s.plan.cut k } : State).trigger, .plain .done)

/-- PLAN_LEG: the execution of a held PLAN_LEG. -/
def execPlanLeg (q : PortId) (s : State) : Host.Outcome State Fault Refusal :=
  .next (s.executeRequest q .planLeg (ownerPlanLeg q))

/-- PLAN_CUT: the execution of a held PLAN_CUT. -/
def execPlanCut (q : PortId) (s : State) : Host.Outcome State Fault Refusal :=
  .next (s.executeRequest q .planCut (ownerPlanCut q))

end Sys2Proof.Machine
end

