-- ==== Sys2Proof/Machine/Phases.lean ====
section
/-! DEFINITION. The group requests APPROACH, RUN, PAUSE, SETDOWN and RETRACT (chapter 4). -/

namespace Sys2Proof.Machine

/-- The checks of R66 that come before a request's own: the holder, the reading of the image, the phase in which the
request is taken, and the argument list, which these five requests have none of. -/
def State.groupRefusal (s : State) (q : PortId) (taken : Phase → Bool) (args : List Byte) : Option ResultCode :=
  match s.turnedAway q with
  | some r => some r
  | none => if taken s.phase then (if args = [] then none else some .badArg) else some .wrongPhase

/-- Whether any segment has an echo test in WAITING or RUNNING (R67). -/
def State.echoStands (s : State) : Bool :=
  s.segs.rows.any fun sg => decide (sg.echo ≠ .none)

/-- The first valid position whose column is not ENROLLED (R67, R153). -/
def State.firstNotEnrolled (s : State) : Option Pos :=
  s.validPositions.find? fun p => decide ((s.col p).link ≠ .enrolled)

/-- APPROACH's own checks, in order (R67). -/
def State.approachRefusal (s : State) : Option Answer :=
  if s.echoStands then some (.plain .busy)
  else if s.roster.confirmed = false then some (.incomplete .notConfirmed none)
  else
    match s.firstNotEnrolled with
    | some p => some (.incomplete .dropNotReady (some p))
    | none => if s.stop.stopIn = .opened then some (.incomplete .stopInOpen none) else none

/-- APPROACH is taken in IDLE (section 4.3). -/
def Phase.takesApproach : Phase → Bool
  | .idle => true
  | .approach | .aligned | .lifting | .lowering | .dwell | .holding | .landed | .retracting | .stopped => false

/-- APPROACH (R66, R67). -/
def ownerApproach (q : PortId) (s : State) (args : List Byte) : State × Answer :=
  match s.groupRefusal q Phase.takesApproach args with
  | some r => s.refuse r
  | none =>
    match s.approachRefusal with
    | some a => (s, a)
    | none => (s.changePhase .approach, .plain .done)

/-- RUN is taken in ALIGNED, HOLDING, LIFTING and LOWERING (section 4.3). -/
def Phase.takesRun : Phase → Bool
  | .aligned | .holding | .lifting | .lowering => true
  | .idle | .approach | .dwell | .landed | .retracting | .stopped => false

/-- RUN: in LIFTING or LOWERING it clears pause-pending (R73); in ALIGNED or HOLDING it starts the plan leg at the leg
index, or answers PLAN_END (R69). -/
def ownerRun (q : PortId) (s : State) (args : List Byte) : State × Answer :=
  match s.groupRefusal q Phase.takesRun args with
  | some r => s.refuse r
  | none =>
    if s.phase.isLeg then ({ s with pausePending := false }, .plain .done)
    else if s.plan.count ≤ s.plan.index then s.refuse .planEnd
    else ((s.startLeg false).testCompletion, .plain .done)

/-- PAUSE is taken in LIFTING, LOWERING and DWELL (section 4.3). -/
def Phase.takesPause : Phase → Bool
  | .lifting | .lowering | .dwell => true
  | .idle | .approach | .aligned | .holding | .landed | .retracting | .stopped => false

/-- PAUSE: in DWELL it goes at once to HOLDING (R75); in LIFTING or LOWERING it sets pause-pending (R73). -/
def ownerPause (q : PortId) (s : State) (args : List Byte) : State × Answer :=
  match s.groupRefusal q Phase.takesPause args with
  | some r => s.refuse r
  | none =>
    if s.phase.isLeg then ({ s with pausePending := true }, .plain .done)
    else (s.changePhase .holding, .plain .done)

/-- SETDOWN is taken in ALIGNED and HOLDING (section 4.3). -/
def Phase.takesSetdown : Phase → Bool
  | .aligned | .holding => true
  | .idle | .approach | .lifting | .lowering | .dwell | .landed | .retracting | .stopped => false

/-- SETDOWN starts the set-down leg (R78). -/
def ownerSetdown (q : PortId) (s : State) (args : List Byte) : State × Answer :=
  match s.groupRefusal q Phase.takesSetdown args with
  | some r => s.refuse r
  | none => ((s.startLeg true).testCompletion, .plain .done)

/-- RETRACT is taken in ALIGNED and LANDED (section 4.3). -/
def Phase.takesRetract : Phase → Bool
  | .aligned | .landed => true
  | .idle | .approach | .lifting | .lowering | .dwell | .holding | .retracting | .stopped => false

/-- RETRACT starts the withdrawal of the columns (R81). -/
def ownerRetract (q : PortId) (s : State) (args : List Byte) : State × Answer :=
  match s.groupRefusal q Phase.takesRetract args with
  | some r => s.refuse r
  | none => (s.changePhase .retracting, .plain .done)

/-- APPROACH: the execution of a held APPROACH. -/
def execApproach (q : PortId) (s : State) : Host.Outcome State Fault Refusal :=
  .next (s.executeRequest q .approach (ownerApproach q))

/-- RUN: the execution of a held RUN. -/
def execRun (q : PortId) (s : State) : Host.Outcome State Fault Refusal :=
  .next (s.executeRequest q .run (ownerRun q))

/-- PAUSE: the execution of a held PAUSE. -/
def execPause (q : PortId) (s : State) : Host.Outcome State Fault Refusal :=
  .next (s.executeRequest q .pause (ownerPause q))

/-- SETDOWN: the execution of a held SETDOWN. -/
def execSetdown (q : PortId) (s : State) : Host.Outcome State Fault Refusal :=
  .next (s.executeRequest q .setdown (ownerSetdown q))

/-- RETRACT: the execution of a held RETRACT. -/
def execRetract (q : PortId) (s : State) : Host.Outcome State Fault Refusal :=
  .next (s.executeRequest q .retract (ownerRetract q))

end Sys2Proof.Machine
end

