-- ==== Sys2Proof/Machine/Echo.lean ====
section
/-! DEFINITION. The echo test (section 2.6): ECHO, the test's start on the free line, its pulses and its end. -/

namespace Sys2Proof.Machine

/-- Whether any drop of a segment is ENROLLED (R39). -/
def Segment.anyEnrolled (sg : Segment) : Bool :=
  sg.drops.rows.any fun d => decide (d.link = .enrolled)

/-- A drop whose settle timer is stopped while the test runs (R40). -/
def Drop.suspended (d : Drop) : Drop :=
  if d.link = .settling then { d with settle := .stopped } else d

/-- The test becomes RUNNING and polling is suspended: the cycle in progress is abandoned, an owed start is dropped, and the
settle timers of SETTLING drops are stopped (R40). -/
def Segment.startEcho (sg : Segment) (cable : Fin 3) : Segment :=
  { sg with echo := .running cable [], cycle := none, startOwed := false, drops := sg.drops.map Drop.suspended }

/-- A waiting test starts once no exchange is in flight and no ALLSTOP is owed (R40). -/
def Segment.tryEcho (sg : Segment) : Segment :=
  match sg.echo with
  | .waiting cable => if sg.inFlight.isNone && !sg.allstopOwed then sg.startEcho cable else sg
  | .none | .running _ _ => sg

/-- The start of a waiting test on the free line; before the image has been read the controller may send nothing (R190). -/
def State.echoRunning (s : State) (g : SegId) : State :=
  match s.power with
  | .running => s.modSeg g Segment.tryEcho
  | .inReset | .reading => s

/-- ECHO (R39). The test is accepted in WAITING, and on a free line it becomes RUNNING at the acceptance (R40). -/
def ownerEcho (q : PortId) (s : State) (args : List Byte) : State × Answer :=
  if s.holder ≠ some q then s.refuse .notHolder
  else
    match echoArgs args with
    | none => s.refuse .badArg
    | some (g, cable) =>
      if s.phase ≠ .idle ∧ (s.seg g).anyEnrolled = true then s.refuse .wrongPhase
      else if s.echoStands then s.refuse .busy
      else ((s.modSeg g fun sg => { sg with echo := .waiting cable }).echoRunning g, .plain .done)

/-- ECHO: the execution of a held ECHO. -/
def execEcho (q : PortId) (s : State) : Host.Outcome State Fault Refusal :=
  .next (s.executeRequest q .echo (ownerEcho q))

/-- ECHO_TEST_RUNNING (R40). -/
def execEchoTestRunning (g : SegId) (s : State) : Host.Outcome State Fault Refusal :=
  .next (s.echoRunning g)

/-- The class of a pulse by its largest reflection (R41). -/
def pulseClass (r : Reflection) : EchoClass :=
  match r.strength, r.polarity with
  | .aboveDetection, .same => .openCircuit
  | .aboveDetection, .opposite => .short
  | .betweenThresholds, _ => .uncertain
  | .belowWeak, _ => .matched

/-- A pulse is recorded in a running test, of which there are 16 (R40, R41). -/
def Segment.recordPulse (sg : Segment) (r : Reflection) : Segment :=
  match sg.echo with
  | .running cable pulses =>
    if pulses.length < Config.echoPulses then
      { sg with echo := .running cable (pulses ++ [{ cls := pulseClass r, delay := r.delay }]) }
    else sg
  | .none | .waiting _ => sg

/-- ECHO_PULSE (R41). -/
def execEchoPulse (g : SegId) (r : Reflection) (s : State) : Host.Outcome State Fault Refusal :=
  .next (s.modSeg g fun sg => sg.recordPulse r)

/-- How many pulses hold a class. -/
def countClass (pulses : List Pulse) (c : EchoClass) : Nat :=
  pulses.countP fun x => decide (x.cls = c)

/-- The counts of the four classes (R43). -/
def countsOf (pulses : List Pulse) : EchoCounts :=
  { openCircuit := countClass pulses .openCircuit, short := countClass pulses .short,
    uncertain := countClass pulses .uncertain, matched := countClass pulses .matched }

/-- The class held by the most pulses, UNCERTAIN where two or more share the largest count (R41). -/
def EchoCounts.winner (c : EchoCounts) : EchoClass :=
  if c.short < c.openCircuit ∧ c.uncertain < c.openCircuit ∧ c.matched < c.openCircuit then .openCircuit
  else if c.openCircuit < c.short ∧ c.uncertain < c.short ∧ c.matched < c.short then .short
  else if c.openCircuit < c.matched ∧ c.short < c.matched ∧ c.uncertain < c.matched then .matched
  else .uncertain

/-- The average delay: the sum of the delays divided by 16 and floored (R41). -/
def averageDelay (pulses : List Pulse) : Nat :=
  (pulses.map fun x => x.delay).sum / 16

/-- The factor for a cable type and class, in millimetres per count (R42). -/
def distanceFactor (cable : Fin 3) : EchoClass → Option Nat
  | .openCircuit => some (if cable = 0 then 486 else if cable = 1 then 492 else 480)
  | .short => some (if cable = 0 then 500 else if cable = 1 then 505 else 494)
  | .uncertain | .matched | .aborted => none

/-- The distance: the average delay times the factor, divided by 100 and floored; above 10,000 it is FAR (R42). -/
def distanceOf (cable : Fin 3) (cls : EchoClass) (average : Nat) : EchoDistance :=
  match distanceFactor cable cls with
  | none => .missing
  | some k => if 10000 < average * k / 100 then .far else .decimetres (average * k / 100)

/-- The result of a test from its pulses (R43). -/
def echoResult (cable : Fin 3) (pulses : List Pulse) : EchoResult :=
  { cable := cable, cls := (countsOf pulses).winner, counts := some (countsOf pulses),
    average := some (averageDelay pulses),
    distance := distanceOf cable (countsOf pulses).winner (averageDelay pulses) }

/-- The end of the 20 ms, when the 16 pulses have been sent: the result, ECHO_DONE, and polling resumes (R43). -/
def State.echoEnd (s : State) (g : SegId) : State :=
  match (s.seg g).echo with
  | .running cable pulses =>
    if pulses.length = Config.echoPulses then
      (s.modSeg g fun sg => ({ sg with lastEcho := some (echoResult cable pulses) } : Segment).resume).raiseEchoDone g
    else s
  | .none | .waiting _ => s

/-- ECHO_TEST_END (R43). -/
def execEchoTestEnd (g : SegId) (s : State) : Host.Outcome State Fault Refusal :=
  .next (s.echoEnd g)

end Sys2Proof.Machine
end

