-- ==== Sys2Proof/Machine/Enrolment.lean ====
section
/-! DEFINITION. Enrolment: what an acceptable reply and a miss do to a drop's link state and paging (chapter 3). -/

namespace Sys2Proof.Machine

/-- Changes a drop's capability record and requested page, and the mapped column's copy (R46). -/
def State.storePage (s : State) (g : SegId) (d : DropId) (cap : Capability) (page : Fin 4) : State :=
  (s.modDrop g d fun x => { x with cap := cap, page := page }).mirror g d

/-- A page the part cannot accept: the drop becomes REFUSED, and ENROL is raised (R52, R53). -/
def State.refuseDrop (s : State) (g : SegId) (d : DropId) : State :=
  (s.changeLink g d .refused).raise .enrol

/-- The drop's next state and notice when page 2 has been accepted, by the roster as it stands (R55). -/
def State.endOfPagingChoice (s : State) (g : SegId) (d : DropId) : LinkState × Category :=
  match (s.mappedAt g d).bind s.entry with
  | none => (.ready, .enrol)
  | some e =>
    if s.roster.confirmed ∧ e.serial.isSome ∧ e.serial = (s.drop g d).cap.serial then (.enrolled, .enrol)
    else if e.serial.isSome ∧ e.serial ≠ (s.drop g d).cap.serial then (.ready, .rosterMismatch)
    else (.ready, .enrol)

/-- The end of paging (R55). -/
def State.endPaging (s : State) (g : SegId) (d : DropId) : State :=
  (s.changeLink g d (s.endOfPagingChoice g d).1).raise (s.endOfPagingChoice g d).2

/-- The first half of a page's data: the stroke of page 1, the max speed of page 2 (section 12.3). -/
def Report.high (r : Report) : Nat :=
  r.data.toNat / 65536

/-- The second half of a page's data: the rated load of page 1 (section 12.3). -/
def Report.low (r : Report) : Nat :=
  r.data.toNat % 65536

/-- Page 1: a rated load below 1,000 refuses the drop; the stroke is clamped to 40,000 (R52). -/
def State.takePage1 (s : State) (g : SegId) (d : DropId) (r : Report) : State :=
  if r.low < 1000 then s.refuseDrop g d
  else s.storePage g d { (s.drop g d).cap with stroke := some (min r.high 40000), rated := some r.low } 2

/-- Page 2: a max speed below 10 refuses the drop; it is clamped to 400, and the drop leaves PAGING (R53). -/
def State.takePage2 (s : State) (g : SegId) (d : DropId) (r : Report) : State :=
  if r.high < 10 then s.refuseDrop g d
  else (s.storePage g d { (s.drop g d).cap with maxSpeed := some (min r.high 400) } 3).endPaging g d

/-- The page a reply from a PAGING drop carries is taken when its page field equals the requested page (R51), which is also
the one its COMMAND asked for: a reply to a COMMAND built before the drop was PAGING answers no page (R50). -/
def State.takePage (s : State) (g : SegId) (x : Exchange) (r : Report) : State :=
  if r.page = (s.drop g x.drop).page ∧ x.page = (s.drop g x.drop).page then
    match r.page with
    | 0 => s.storePage g x.drop { (s.drop g x.drop).cap with serial := some r.data } 1
    | 1 => s.takePage1 g x.drop r
    | 2 => s.takePage2 g x.drop r
    | 3 => s
  else s

/-- Step 2 of a status arrival: the miss count becomes 0; an ABSENT drop (R6, R48) and a LOST drop (R59) become SETTLING; a
PAGING drop's page is taken (R51). -/
def State.acceptReply (s : State) (g : SegId) (x : Exchange) (r : Report) : State :=
  let t := s.modDrop g x.drop fun d => { d with miss := 0 }
  match (t.drop g x.drop).link with
  | .absent | .lost => t.changeLink g x.drop .settling
  | .paging => t.takePage g x r
  | .settling | .ready | .enrolled | .refused => t

/-- An ENROLLED drop enters LOST: the latch, the notice, and outside IDLE the stop (R58). -/
def State.loseDrop (s : State) (g : SegId) (d : DropId) : State :=
  let t := s.changeLink g d .lost
  match t.mappedAt g d with
  | none => t.raise .columnLost
  | some p =>
    let u := (t.modCol p fun c => { c with wasLost := true }).raise .columnLost
    if u.phase = .idle then u else u.offerStop (columnOffer .columnLost p none)

/-- The link state that a miss changes, once the miss has been counted: a single miss in SETTLING or PAGING, the third in
READY, REFUSED or ENROLLED (R49, R54, R56, R58). -/
def State.missedLink (s : State) (g : SegId) (d : DropId) : State :=
  match (s.drop g d).link with
  | .settling | .paging => s.changeLink g d .absent
  | .ready | .refused => if (s.drop g d).miss = 3 then s.changeLink g d .absent else s
  | .enrolled => if (s.drop g d).miss = 3 then s.loseDrop g d else s
  | .absent | .lost => s

/-- A miss: in a POLL exchange with a drop that is not ABSENT it adds 1 to the count, up to 3 (R30). -/
def State.takeMiss (s : State) (g : SegId) (x : Exchange) : State :=
  match x.kind with
  | .probe => s
  | .poll =>
    if (s.drop g x.drop).link = .absent then s
    else (s.modDrop g x.drop fun d => { d with miss := min 3 (d.miss + 1) }).missedLink g x.drop

/-- The settle timer's expiry: a SETTLING drop becomes PAGING with requested page 0 (R49). A stopped timer does not expire. -/
def State.settleExpiry (s : State) (g : SegId) (d : DropId) : State :=
  match s.power, (s.drop g d).settle with
  | .running, .running _ => if (s.drop g d).link = .settling then s.changeLink g d .paging else s
  | _, _ => s

/-- SETTLE_TIMER_EXPIRY (R49). -/
def execSettleTimerExpiry (g : SegId) (d : DropId) (s : State) : Host.Outcome State Fault Refusal :=
  .next (s.settleExpiry g d)

end Sys2Proof.Machine
end

