-- ==== Sys2Proof/Machine/Tracking.lean ====
section
/-! DEFINITION. The tracking unit's work at a status arrival (chapter 7): the lag, the group checks, the demand law and the
load shares. -/

namespace Sys2Proof.Machine

/-! ### rel, spread and the quantities of the checks -/

/-- rel is brought up to date: the stored height less the contact height, absent without a contact height (R120). -/
def Column.withRel (c : Column) : Column :=
  { c with
    rel := match c.contact, c.height with
      | some k, some h => some ((h : Int) - k)
      | _, _ => none }

/-- The stored height as a stop's value. -/
def Column.heightValue (c : Column) : Option Int :=
  c.height.map fun h => (h : Int)

/-- The stored load as a stop's value. -/
def Column.loadValue (c : Column) : Option Int :=
  c.load.map fun l => (l : Int)

/-- The spread of four present values: the largest less the smallest (R131). -/
def spreadOf (a b c d : Int) : Nat :=
  (max (max a b) (max c d) - min (min a b) (min c d)).toNat

/-- A car's spread from the stored rel values, absent when any of the four is (R131). -/
def State.spreadNow (s : State) (c : CarId) : Option Nat :=
  match (s.col (posOf c 0)).rel, (s.col (posOf c 1)).rel, (s.col (posOf c 2)).rel, (s.col (posOf c 3)).rel with
  | some a, some b, some x, some y => some (spreadOf a b x y)
  | _, _, _, _ => none

/-- The car table's spread is brought up to date for a car (R131). -/
def State.writeSpread (s : State) (c : CarId) : State :=
  { s with spread := s.spread.set c (s.spreadNow c) }

/-- The sum of two present rel values. -/
def State.relSum (s : State) (e : Pos × Pos) : Option Int :=
  match (s.col e.1).rel, (s.col e.2).rel with
  | some a, some b => some (a + b)
  | _, _ => none

/-- The magnitude of sumB less sumA at a joint, absent when any of the four rel values is (R132). -/
def State.jointDifference (s : State) (k : JointId) : Option Nat :=
  match s.relSum (endBefore k), s.relSum (endAfter k) with
  | some b, some a => some (b - a).natAbs
  | _, _ => none

/-! ### The group checks (R129 to R135) -/

/-- An offer made when a check fails. -/
def offerIf (fails : Bool) (o : Offer) : List Offer :=
  if fails then [o] else []

/-- The lag trip (R130). -/
def State.lagCheck (s : State) (p : Pos) (e : Int) : List Offer :=
  offerIf (decide (s.limit .lTrip < e.natAbs)) (columnOffer .lag p (some e))

/-- The car spread check (R131). -/
def State.spreadCheck (s : State) (p : Pos) : List Offer :=
  match s.spreadNow (carOf p) with
  | some d => offerIf (decide (s.limit .tCar < d)) (columnOffer .carSpread p (some d))
  | none => []

/-- The articulation check at the joint at whose end the column stands, where it is effective; the record carries car k of
the joint (R132). -/
def State.articulationCheck (s : State) (p : Pos) : List Offer :=
  match jointOf p with
  | none => []
  | some k =>
    if s.linkEffective k then
      match s.jointDifference k with
      | some d =>
        offerIf (decide (2 * s.limit .aStep < d))
          { columnOffer .articulation p (some d) with car := some (carBefore k) }
      | none => []
    else []

/-- The overload check; a column whose rated load is absent is not checked (R133). -/
def State.overloadCheck (s : State) (p : Pos) : List Offer :=
  match (s.col p).load, (s.col p).cap.rated with
  | some l, some r => offerIf (decide (r < l)) (columnOffer .overload p (some l))
  | _, _ => []

/-- Whether the load-lost check is made: with the set-down marker set, in LOWERING and HOLDING only above the set-down band
(R134). -/
def State.loadLostApplies (s : State) (ph : Phase) : Bool :=
  match ph with
  | .lifting | .dwell => true
  | .lowering | .holding => !s.ref.setDown || decide (s.limit .setDownBand < s.ref.h)
  | .idle | .approach | .aligned | .landed | .retracting | .stopped => false

/-- The load-lost check (R134). -/
def State.loadLostCheck (s : State) (ph : Phase) (p : Pos) : List Offer :=
  match (s.col p).load with
  | some l =>
    offerIf (s.loadLostApplies ph && decide (l < s.limit .contactLoad)) (columnOffer .loadLost p (some l))
  | none => []

/-- The drive-limit check: UPPER_LIMIT in LIFTING, LOWER_LIMIT in LOWERING (R135). -/
def State.driveLimitCheck (s : State) (ph : Phase) (p : Pos) : List Offer :=
  match ph with
  | .lifting => offerIf (s.col p).flags.upperLimit (columnOffer .driveLimit p (s.col p).heightValue)
  | .lowering => offerIf (s.col p).flags.lowerLimit (columnOffer .driveLimit p (s.col p).heightValue)
  | .idle | .approach | .aligned | .dwell | .holding | .landed | .retracting | .stopped => []

/-- The checks of a tracked arrival in the order of the table of section 7.5, all made on the arrival's values. -/
def State.groupChecks (s : State) (ph : Phase) (p : Pos) (e : Int) : List Offer :=
  s.lagCheck p e ++ s.spreadCheck p ++ s.articulationCheck p ++ s.overloadCheck p ++ s.loadLostCheck ph p
    ++ s.driveLimitCheck ph p

/-- Offers are taken one after another (R121). -/
def State.offerAll (s : State) (os : List Offer) : State :=
  os.foldl State.offerStop s

/-! ### The demand law (R126, R127) -/

/-- The correction: Kp times e, divided by 16, truncated toward zero (R126). -/
def correction (kp : Nat) (e : Int) : Int :=
  ((kp : Int) * e).tdiv 16

/-- A column's max speed; an enrolled column always holds one (R47). -/
def Column.speedBound (c : Column) : Nat :=
  c.cap.maxSpeed.getD 0

/-- The demand in LIFTING (R126). -/
def liftingDemand (vEff kp maxSpeed : Nat) (e : Int) : Int :=
  clampInt 0 maxSpeed ((vEff : Int) + correction kp e)

/-- The demand in LOWERING (R126). -/
def loweringDemand (vEff kp maxSpeed : Nat) (e : Int) : Int :=
  clampInt (-(maxSpeed : Int)) 0 (-(vEff : Int) + correction kp e)

/-- The demand of a jogged column: the correction within plus or minus the smaller of v_app and the max speed (R127). -/
def jogDemand (vApp kp maxSpeed : Nat) (e : Int) : Int :=
  clampInt (-(min vApp maxSpeed : Nat)) (min vApp maxSpeed : Nat) (correction kp e)

/-- Whether any column has jog-in-progress. -/
def State.anyJog (s : State) : Bool :=
  s.cols.rows.any fun c => c.jog

/-- A jog ends: the flag is cleared with demand 0, and when it was the last one a write is triggered (R139). -/
def State.endJog (s : State) (p : Pos) : State :=
  let t := s.modCol p fun c => { c with jog := false, demand := 0 }
  if t.anyJog then t else t.trigger

/-- The demand written at step 3 of R121, by the phase as it stands after the checks. -/
def State.trackedDemand (s : State) (p : Pos) (vEff : Nat) (e : Int) : State :=
  match s.phase with
  | .lifting => s.setDemand p (liftingDemand vEff (s.limit .kp) (s.col p).speedBound e)
  | .lowering => s.setDemand p (loweringDemand vEff (s.limit .kp) (s.col p).speedBound e)
  | .holding =>
    if (s.col p).jog then
      if e.natAbs ≤ s.limit .wDone then s.endJog p
      else s.setDemand p (jogDemand (s.limit .vApp) (s.limit .kp) (s.col p).speedBound e)
    else s.setDemand p 0
  | .idle | .approach | .aligned | .dwell | .landed | .retracting | .stopped => s.setDemand p 0

/-! ### Load share (R136, R137) -/

/-- A column's share flag follows its share; LOAD_SHARE is raised at a change from clear to set (R137). -/
def State.followShare (s : State) (total : Nat) (p : Pos) : State :=
  match (s.col p).load with
  | none => s
  | some l =>
    let after := shareFlag (s.col p).share (s.limit .shareMin) (s.limit .shareMax) (sharePercent l total)
    let t := s.modCol p fun c => { c with share := after }
    if after && !(s.col p).share then t.raise .loadShare else t

/-- The four stored loads of a car together, absent when any is (R21, R136). -/
def State.carLoad (s : State) (c : CarId) : Option Nat :=
  match (s.col (posOf c 0)).load, (s.col (posOf c 1)).load, (s.col (posOf c 2)).load, (s.col (posOf c 3)).load with
  | some a, some b, some x, some y => some (a + b + x + y)
  | _, _, _, _ => none

/-- The load shares of a car's four columns are evaluated, unless their total is below 4 × C (R136). -/
def State.evaluateShares (s : State) (c : CarId) : State :=
  match s.carLoad c with
  | none => s
  | some total =>
    if total < 4 * s.limit .contactLoad then s else (carPositions c).foldl (fun t p => t.followShare total p) s

/-- The phases of the arrival in which the shares are evaluated (R136). -/
def Phase.evaluatesShares : Phase → Bool
  | .lifting | .dwell | .holding => true
  | .idle | .approach | .aligned | .lowering | .landed | .retracting | .stopped => false

/-! ### The work of one arrival (R120, R121) -/

/-- The lag: the reference plus the offset less rel (R122). -/
def State.lagOf (s : State) (p : Pos) (rel : Int) : Int :=
  (s.ref.h : Int) + (s.col p).offset - rel

/-- Step 1 of R121: lag, classification and mark. -/
def State.classifyAt (s : State) (p : Pos) (e : Int) : State :=
  s.classify p (classOf s.phase s.ref.dir (s.limit .wAdv) e) (outOfPosition (s.limit .wDone) e) (some e)

/-- The tracked work of R121, with H, d, v_eff and the set-down marker as they stand at the arrival (R111, R117). In a
tracked phase rel is present at every arrival (R63, R122). -/
def State.trackedWork (s : State) (p : Pos) : State :=
  match (s.col p).rel with
  | none => s.setDemand p 0
  | some rel =>
    let e := s.lagOf p rel
    let t := (s.classifyAt p e).writeSpread (carOf p)
    let u := (t.offerAll (t.groupChecks s.phase p e)).trackedDemand p s.ref.vEff e
    if s.phase.evaluatesShares then u.evaluateShares (carOf p) else u

/-- The work in ALIGNED, LANDED and STOPPED: the spread, the overload check and demand 0 (R120). -/
def State.restWork (s : State) (p : Pos) : State :=
  let t := s.writeSpread (carOf p)
  (t.offerAll (t.overloadCheck p)).setDemand p 0

end Sys2Proof.Machine
end

