-- ==== Sys2Proof/Machine/Jog.lean ====
section
/-! DEFINITION. JOG: its admission (R83), the clamp of the delta (R138) and its effect (R139). -/

namespace Sys2Proof.Machine

/-- The affected columns: the named position, or the four columns of the named car (R138). -/
def JogTarget.positions : JogTarget → List Pos
  | .column p => [p]
  | .car c => carPositions c

/-- Whether a jog may name its target: a valid position, or a car that is present (R83). -/
def State.jogAdmits (s : State) : JogTarget → Bool
  | .column p => s.validPos p
  | .car c => s.carPresent c

/-- A position's offset with a delta added when the position is affected. -/
def State.offsetWith (s : State) (affected : List Pos) (delta : Int) (p : Pos) : Int :=
  if affected.contains p then (s.col p).offset + delta else (s.col p).offset

/-- The spread of a car's four targets with the delta added; H cancels (R138). -/
def State.targetSpread (s : State) (affected : List Pos) (delta : Int) (c : CarId) : Nat :=
  spreadOf (s.offsetWith affected delta (posOf c 0)) (s.offsetWith affected delta (posOf c 1))
    (s.offsetWith affected delta (posOf c 2)) (s.offsetWith affected delta (posOf c 3))

/-- The magnitude of car k's B-end targets less car k + 1's A-end targets with the delta added; H cancels (R138). -/
def State.targetStep (s : State) (affected : List Pos) (delta : Int) (k : JointId) : Nat :=
  (s.offsetWith affected delta (endBefore k).1 + s.offsetWith affected delta (endBefore k).2
    - (s.offsetWith affected delta (endAfter k).1 + s.offsetWith affected delta (endAfter k).2)).natAbs

/-- The magnitude of a column's lag with a delta added to its offset, from the stored rel (R138, R139). -/
def State.lagWith (s : State) (delta : Int) (p : Pos) : Option Nat :=
  (s.col p).rel.map fun rel => ((s.ref.h : Int) + ((s.col p).offset + delta) - rel).natAbs

/-- A quantity within its bound, or, where it exceeds the bound already, no larger than it was (R138). -/
def withinOrNoLarger (bound now new : Nat) : Bool :=
  decide (new ≤ bound) || (decide (bound < now) && decide (new ≤ now))

/-- Conditions 1 and 4 of R138 for one affected column: the offset within -400 to 400, the lag within half of L_trip. -/
def State.columnAllows (s : State) (delta : Int) (p : Pos) : Bool :=
  decide (-400 ≤ (s.col p).offset + delta) && decide ((s.col p).offset + delta ≤ 400)
    && (match s.lagWith 0 p, s.lagWith delta p with
        | some now, some new => withinOrNoLarger (s.limit .lTrip / 2) now new
        | _, _ => true)

/-- Condition 2 of R138 for a car. -/
def State.carAllows (s : State) (affected : List Pos) (delta : Int) (c : CarId) : Bool :=
  withinOrNoLarger (s.limit .tCar / 2) (s.targetSpread affected 0 c) (s.targetSpread affected delta c)

/-- Condition 3 of R138 for a joint, where its articulation is effective. -/
def State.jointAllows (s : State) (affected : List Pos) (delta : Int) (k : JointId) : Bool :=
  !s.linkEffective k
    || withinOrNoLarger (s.limit .aStep) (s.targetStep affected 0 k) (s.targetStep affected delta k)

/-- The joints that have an affected column at either of their ends. -/
def jogJoints (affected : List Pos) : List JointId :=
  affected.filterMap jointOf

/-- The four conditions of R138, with the delta added to every affected column's offset and to no other. -/
def State.jogAllowed (s : State) (affected : List Pos) (delta : Int) : Bool :=
  affected.all (s.columnAllows delta) && affected.all (fun p => s.carAllows affected delta (carOf p))
    && (jogJoints affected).all (s.jointAllows affected delta)

/-- The largest magnitude up to `n` that a test allows, 0 where it allows none above 0. -/
def largestAllowed (allowed : Nat → Bool) : Nat → Nat
  | 0 => 0
  | n + 1 => if allowed (n + 1) then n + 1 else largestAllowed allowed n

/-- The effective delta: the requested delta where it is allowed, else the end of the allowed range on its side (R138). -/
def State.effectiveDelta (s : State) (affected : List Pos) (delta : Int) : Int :=
  if 0 ≤ delta then (largestAllowed (fun n => s.jogAllowed affected n) delta.natAbs : Int)
  else -(largestAllowed (fun n => s.jogAllowed affected (-(n : Int))) delta.natAbs : Int)

/-- Whether a column's lag with its present offset is beyond W_done (R139). -/
def State.beyondDone (s : State) (p : Pos) : Bool :=
  match s.lagWith 0 p with
  | some e => decide (s.limit .wDone < e)
  | none => false

/-- One affected column's offset is increased. -/
def State.addOffset (delta : Int) (s : State) (p : Pos) : State :=
  s.modCol p fun c => { c with offset := c.offset + delta }

/-- One affected column's jog-in-progress flag is set where a lag remains (R139). -/
def State.flagJog (s : State) (p : Pos) : State :=
  if s.beyondDone p then s.modCol p fun c => { c with jog := true } else s

/-- An accepted jog with an effective delta other than 0: the offsets, the jog flags, and then the wake when a flag is set or
the retention trigger when none is (R139). -/
def State.applyJog (s : State) (affected : List Pos) (delta : Int) : State :=
  let t := affected.foldl (State.addOffset delta) s
  let u := affected.foldl State.flagJog t
  if affected.any t.beyondDone then u.wake else u.trigger

/-- JOG is taken in HOLDING alone (R83). -/
def ownerJog (q : PortId) (s : State) (args : List Byte) : State × Answer :=
  match s.turnedAway q with
  | some r => s.refuse r
  | none =>
    if s.phase ≠ .holding then s.refuse .wrongPhase
    else
      match jogArgs args with
      | none => s.refuse .badArg
      | some (target, delta) =>
        if s.jogAdmits target then
          let d := s.effectiveDelta target.positions delta
          (if d = 0 then s else s.applyJog target.positions d, { result := .done, clamped := decide (d ≠ delta), data := [] })
        else s.refuse .badArg

/-- JOG: the execution of a held JOG. -/
def execJog (q : PortId) (s : State) : Host.Outcome State Fault Refusal :=
  .next (s.executeRequest q .jog (ownerJog q))

end Sys2Proof.Machine
end

