-- ==== Sys2Proof/Machine/Limits.lean ====
section
/-! DEFINITION. LIMIT_SET (R142). -/

namespace Sys2Proof.Machine

/-- A value clamped to its limit's range (R142). -/
def clampLimit (i : Fin 17) (v : Nat) : Nat :=
  clampNat (limitRanges.get i).1 (limitRanges.get i).2 v

/-- The order of the windows: W_done no greater than W_adv, and W_adv less than L_trip (R142). -/
def limitsOrdered (l : Table Nat 17) : Bool :=
  decide (l.get LimitId.wDone.code ≤ l.get LimitId.wAdv.code) && decide (l.get LimitId.wAdv.code < l.get LimitId.lTrip.code)

/-- LIMIT_SET (R142). -/
def ownerLimitSet (q : PortId) (s : State) (args : List Byte) : State × Answer :=
  match s.turnedAway q with
  | some r => s.refuse r
  | none =>
    if s.phase.isMotion then s.refuse .wrongPhase
    else
      match limitArgs args with
      | none => s.refuse .badArg
      | some (i, v) =>
        let new := s.limits.set i (clampLimit i v)
        if limitsOrdered new then
          (if s.limits.get i = clampLimit i v then s else ({ s with limits := new } : State).trigger,
            { result := .done, clamped := decide (clampLimit i v ≠ v), data := [] })
        else s.refuse .badArg

/-- LIMIT_SET: the execution of a held LIMIT_SET. -/
def execLimitSet (q : PortId) (s : State) : Host.Outcome State Fault Refusal :=
  .next (s.executeRequest q .limitSet (ownerLimitSet q))

end Sys2Proof.Machine
end

