-- ==== Sys2Proof/Machine/Notices.lean ====
section
/-! DEFINITION. The notice and watch unit (chapter 10): NOTICE_NEXT with the content of every category, NOTICE_SET, WATCH,
UNWATCH and the serving of update frames. -/

namespace Sys2Proof.Machine

/-! ### The content of a notice (R179) -/

/-- The positions whose column record meets a test, as a set. -/
def State.positionsWith (s : State) (test : Column → Bool) : Table Bool 48 :=
  s.cols.map test

/-- A set of causes as a 16-bit value, cause c at bit c (section 12.2). -/
def causeSet (t : Table Bool 14) : List Byte :=
  be16 (bitsOf t.rows)

/-- A stop block: 13 bytes (section 12.2). -/
def stopBlock (r : StopRecord) (further : Table Bool 14) : List Byte :=
  byteOf r.cause.code.val
    :: (opt8 (r.pos.map fun p => p.val) ++ opt8 (r.car.map fun c => c.val + 1) ++ optSigned24 r.value
        ++ [byteOf r.phase.code] ++ be16 r.h ++ [byteOf r.legIndex] ++ opt8 (r.port.map fun q => q.val)
        ++ causeSet further)

/-- The stop block of a record that is absent. -/
def absentBlock : List Byte :=
  List.replicate 13 0xFF

/-- The stop block of the present record. -/
def StopUnit.recordBlock (u : StopUnit) : List Byte :=
  match u.record with
  | some r => stopBlock r u.further
  | none => absentBlock

/-- The stop block of the previous record. -/
def StopUnit.previousBlock (u : StopUnit) : List Byte :=
  match u.previous with
  | some (r, further) => stopBlock r further
  | none => absentBlock

/-- The stop block a notice carries: the present record, and otherwise the previous one (R157). -/
def StopUnit.noticeBlock (u : StopUnit) : List Byte :=
  if u.record.isSome then u.recordBlock else u.previousBlock

/-- The content of TRIP and STOP. -/
def StopUnit.noticeContent (u : StopUnit) : List Byte :=
  byteOf (bitsOf [u.record.isNone && u.previous.isSome, u.record.isNone && u.previous.isNone, contactOpen u.stopIn,
    contactOpen u.stopOut]) :: u.noticeBlock

/-- The drops of a segment in a link state, drop d at bit d - 1. -/
def Segment.dropsIn (sg : Segment) (l : LinkState) : Nat :=
  bitsOf (sg.drops.rows.map fun d => decide (d.link = l))

/-- The content of ENROL for one segment: READY from bit 0, REFUSED from bit 12. -/
def Segment.enrolContent (sg : Segment) : List Byte :=
  be24 (sg.dropsIn .ready + 4096 * sg.dropsIn .refused)

/-- Whether a valid position's drop is READY with a serial other than a present expected serial (R179). -/
def State.mismatched (s : State) (p : Pos) : Bool :=
  match s.entry p with
  | some e =>
    decide ((s.drop e.seg e.drop).link = .ready) && e.serial.isSome
      && decide ((s.drop e.seg e.drop).cap.serial ≠ e.serial)
  | none => false

/-- The content of CREEP, all absent when there is no record. -/
def creepContent : Option CreepRecord → List Byte
  | some k => byteOf k.pos.val :: (be16 k.baseline ++ be16 k.height)
  | none => [0xFF, 0xFF, 0xFF, 0xFF, 0xFF]

/-- The content of ECHO_DONE: the last echo segment and its last echo result. -/
def State.echoContent (s : State) : List Byte :=
  opt8 (s.lastEcho.map fun g => g.val + 1) ++ echoResultBytes (s.lastEcho.bind fun g => (s.seg g).lastEcho)

/-- Whether a segment is in quiet mode. -/
def Segment.isQuiet (sg : Segment) : Bool :=
  decide (sg.mode = .quiet)

/-- The content of a category, from the state as it stands (R179, section 12.2). A flag that fills a byte of its own (pause-pending
in PHASE, the set-down marker in LEG_DONE and PLAN_CLAMPED) is sent as 1 when set, a value that the manual does not give (DESIGN
CHOICE, log entry 41). -/
def State.noticeContent (s : State) : Category → List Byte
  | .trip => s.stop.noticeContent
  | .stop => s.stop.noticeContent
  | .columnLost =>
    positionSet (s.positionsWith fun c => c.wasLost) ++ positionSet (s.positionsWith fun c => decide (c.link = .lost))
  | .columnFault => positionSet (s.positionsWith fun c => c.flags.driveFault)
  | .authority => s.holderByte
  | .phase =>
    [byteOf s.phase.code, byteOf s.pausePending.toNat, byteOf s.plan.index, byteOf s.plan.count]
  | .legDone => [byteOf s.phase.code, byteOf s.plan.index, byteOf s.plan.count, byteOf s.ref.setDown.toNat]
  | .enrol => (s.segs.rows.map Segment.enrolContent).flatten
  | .rosterMismatch => positionSet (.build s.mismatched)
  | .planClamped => [byteOf s.plan.index, byteOf s.ref.setDown.toNat] ++ opt16 s.ref.target ++ opt16 s.ref.speed
  | .creep => creepContent s.lastCreep
  | .loadShare => positionSet (s.positionsWith fun c => c.share)
  | .range => positionSet (s.positionsWith fun c => c.range)
  | .echoDone => s.echoContent
  | .retain =>
    [byteOf s.retention.status.code, byteOf (bitsOf [s.retention.writing.isSome, s.retention.rewrite])]
  | .cycleOverrun =>
    [byteOf (bitsOf ((s.segs.rows.map fun sg => sg.overrun) ++ s.segs.rows.map Segment.isQuiet))]

/-! ### Reading and setting notices (R176, R178) -/

/-- The pending category to read next: the smallest level, and among equals the lowest number (R178). -/
def NoticeState.choice (n : NoticeState) : Option Category :=
  Category.all.find? fun c => n.waiting.get c.code && decide ((n.level.get c.code).val = n.attention)

/-- The category is removed from the pending set. -/
def NoticeState.remove (c : Category) (n : NoticeState) : NoticeState :=
  { n with waiting := n.waiting.set c.code false }

/-- NOTICE_NEXT (R178). -/
def ownerNoticeNext (q : PortId) (s : State) (args : List Byte) : State × Answer :=
  if args ≠ [] then s.refuse .badArg
  else
    match (s.notices.get q).choice with
    | none => (s, .doneWith [0xFF])
    | some c =>
      (s.modNotices q (NoticeState.remove c),
        .doneWith ([byteOf c.code.val, byteOf ((s.notices.get q).level.get c.code).val] ++ s.noticeContent c))

/-- NOTICE_NEXT: the execution of a held NOTICE_NEXT. -/
def execNoticeNext (q : PortId) (s : State) : Host.Outcome State Fault Refusal :=
  .next (s.executeRequest q .noticeNext (ownerNoticeNext q))

/-- A station's setting for one category; a disabled category is not pending (R176). -/
def NoticeState.configure (c : Fin 16) (enable : Bool) (level : Fin 4) (n : NoticeState) : NoticeState :=
  { enabled := n.enabled.set c enable, level := n.level.set c level,
    waiting := n.waiting.set c (enable && n.waiting.get c) }

/-- NOTICE_SET (R176). -/
def ownerNoticeSet (q : PortId) (s : State) (args : List Byte) : State × Answer :=
  match noticeSetArgs args with
  | none => s.refuse .badArg
  | some (c, enable, level) => (s.modNotices q (NoticeState.configure c enable level), .plain .done)

/-- NOTICE_SET: the execution of a held NOTICE_SET. -/
def execNoticeSet (q : PortId) (s : State) : Host.Outcome State Fault Refusal :=
  .next (s.executeRequest q .noticeSet (ownerNoticeSet q))

/-! ### Watches (R181, R182) -/

/-- Whether a position's column record holds a height. -/
def State.hasHeight (s : State) (p : Pos) : Bool :=
  (s.col p).height.isSome

/-- The watch that a WATCH sets: every position of the new set that holds a height is owed (R181). -/
def State.newWatch (s : State) (set : Table Bool 48) (heightBand loadBand : Nat) : WatchState :=
  { watched := set, heightBand := heightBand, loadBand := loadBand, lastSent := .fill 48 none,
    owed := .build fun p => set.get p && s.hasHeight p, pointer := 47 }

/-- WATCH (R181). -/
def ownerWatch (q : PortId) (s : State) (args : List Byte) : State × Answer :=
  match watchArgs args with
  | none => s.refuse .badArg
  | some (set, heightBand, loadBand) => (s.modWatch q fun _ => s.newWatch set heightBand loadBand, .plain .done)

/-- WATCH: the execution of a held WATCH. -/
def execWatch (q : PortId) (s : State) : Host.Outcome State Fault Refusal :=
  .next (s.executeRequest q .watch (ownerWatch q))

/-- The watch after an UNWATCH; one that finds the watch already empty changes nothing (R182). -/
def WatchState.emptied (w : WatchState) : WatchState :=
  if w.watched = .fill 48 false then w
  else { w with watched := .fill 48 false, lastSent := .fill 48 none, owed := .fill 48 false, pointer := 47 }

/-- UNWATCH (R182). -/
def ownerUnwatch (q : PortId) (s : State) (args : List Byte) : State × Answer :=
  if args ≠ [] then s.refuse .badArg else (s.modWatch q WatchState.emptied, .plain .done)

/-- UNWATCH: the execution of a held UNWATCH. -/
def execUnwatch (q : PortId) (s : State) : Host.Outcome State Fault Refusal :=
  .next (s.executeRequest q .unwatch (ownerUnwatch q))

/-! ### Update frames (R168, R184) -/

/-- The positions after the pointer, counting upward and wrapping from 47 to 0 (R184). -/
def WatchState.servingOrder (w : WatchState) : List Pos :=
  (List.finRange 48).map fun k => w.pointer + k + 1

/-- The owed position to serve (R184). -/
def WatchState.nextOwed (w : WatchState) : Option Pos :=
  w.servingOrder.find? fun p => w.owed.get p

/-- The values that an update carries and the last-sent record keeps (R184). -/
def Column.sent (c : Column) : Sent :=
  { height := c.height, load := c.load, link := c.link, cls := c.cls, mark := c.mark }

/-- The body of an update frame (section 12.2). -/
def updateBody (p : Pos) (k : Sent) : List Byte :=
  [0x60, byteOf p.val, byteOf (k.link.code + 8 * k.cls.code + 32 * k.mark.toNat)] ++ opt16 k.height ++ opt16 k.load

/-- The watch once a position has been served (R184). -/
def WatchState.served (p : Pos) (k : Sent) (w : WatchState) : WatchState :=
  { w with lastSent := w.lastSent.set p (some k), owed := w.owed.set p false, pointer := p }

/-- Position `p`'s update is queued whole, and the station's watch notes it (R184). -/
def State.serve (s : State) (q : PortId) (p : Pos) : State :=
  (s.modPort q fun x => { x with tx := x.tx ++ stationFrame (updateBody p (s.col p).sent) }).modWatch q
    (WatchState.served p (s.col p).sent)

/-- The port queues one update frame when the station owes a position, no request is held and 121 bytes are free (R168). -/
def State.update (s : State) (q : PortId) : State :=
  match s.power, (s.port q).held, (s.watches.get q).nextOwed with
  | .inReset, _, _ => s
  | _, none, some p =>
    if (s.port q).tx.length + Config.updateRoom ≤ Config.txSize then s.serve q p else s
  | _, _, _ => s

/-- UPDATE_FRAME (R168, R184). -/
def execUpdateFrame (q : PortId) (s : State) : Host.Outcome State Fault Refusal :=
  .next (s.update q)

end Sys2Proof.Machine
end

