-- ==== Sys2Proof/Machine/Approach.lean ====
section
/-! DEFINITION. The approach and retraction logic of the tracking unit (chapter 5). -/

namespace Sys2Proof.Machine

/-! ### Approach (R86 to R92) -/

/-- A column with no start height takes the stored height just written (R86). -/
def State.takeStart (s : State) (p : Pos) : State :=
  match s.starts.get p with
  | some _ => s
  | none => { s with starts := s.starts.set p (s.col p).height }

/-- Whether every valid position's column holds a contact height (R92, R154). -/
def State.allContact (s : State) : Bool :=
  s.validPositions.all fun p => (s.col p).contact.isSome

/-- A contact is recorded: the stored height becomes the contact height, with rel 0, demand 0, classification IN, no mark
and lag 0 (R88). -/
def State.recordContact (s : State) (p : Pos) : State :=
  (s.modCol p fun c => { c with contact := c.height, rel := some 0, demand := 0 }).classify p .inPosition false (some 0)

/-- The all-contact test after a recorded contact: the group enters ALIGNED (R92, R68). -/
def State.testAllContact (s : State) : State :=
  if s.allContact then s.changePhase .aligned else s

/-- The travel since the start height, signed (R90). -/
def State.travelOf (s : State) (p : Pos) : Int :=
  match (s.col p).height, s.starts.get p with
  | some h, some k => (h : Int) - k
  | _, _ => 0

/-- The approach demand: the smaller of v_app and the column's max speed (R89). -/
def State.approachSpeed (s : State) (p : Pos) : Nat :=
  min (s.limit .vApp) (s.col p).speedBound

/-- Steps 4 to 6 of R87, for a column without contact and below the contact load. -/
def State.rise (s : State) (p : Pos) : State :=
  if (s.col p).flags.upperLimit then s.offerStop (columnOffer .driveLimit p (s.col p).heightValue)
  else if (s.limit .travel : Int) < s.travelOf p then s.offerStop (columnOffer .noContact p (some (s.travelOf p)))
  else s.setDemand p (s.approachSpeed p)

/-- Whether a column's stored load is at least C (R88). -/
def State.loadTouches (s : State) (p : Pos) : Bool :=
  match (s.col p).load with
  | some l => decide (s.limit .contactLoad ≤ l)
  | none => false

/-- Steps 2 to 6 of R87. -/
def State.approachColumn (s : State) (p : Pos) : State :=
  if (s.col p).contact.isSome then s.setDemand p 0
  else if s.loadTouches p then (s.recordContact p).testAllContact
  else s.rise p

/-- The approach logic at an arrival in APPROACH (R86, R87). -/
def State.approachWork (s : State) (p : Pos) : State :=
  let t := s.takeStart p
  let u := t.offerAll (t.overloadCheck p)
  if u.phase = .approach then u.approachColumn p else u

/-! ### Retraction (R93 to R97) -/

/-- Whether every valid position's column is parked (R97). -/
def State.allParked (s : State) : Bool :=
  s.validPositions.all fun p => (s.col p).parked

/-- A column is parked, and the all-parked test is made (R96, R97). -/
def State.park (s : State) (p : Pos) : State :=
  let t := s.modCol p fun c => { c with parked := true, demand := 0 }
  if t.allParked then t.changePhase .idle else t

/-- Step 4 of R94: the height at or below the parking height, which is signed, and the load below the release load. -/
def State.clearOfBody (s : State) (p : Pos) : Bool :=
  match (s.col p).height, (s.col p).contact, (s.col p).load with
  | some h, some k, some l =>
    decide ((h : Int) ≤ (k : Int) - s.limit .retractDistance) && decide (l < s.limit .releaseLoad)
  | _, _, _ => false

/-- Steps 2 to 6 of R94. -/
def State.retractColumn (s : State) (p : Pos) : State :=
  if (s.col p).parked then s.setDemand p 0
  else if (s.col p).flags.lowerLimit then s.park p
  else if s.clearOfBody p then s.park p
  else if (s.col p).flags.upperLimit then s.offerStop (columnOffer .driveLimit p (s.col p).heightValue)
  else s.setDemand p (-(s.approachSpeed p : Int))

/-- The retraction logic at an arrival in RETRACTING (R94). -/
def State.retractWork (s : State) (p : Pos) : State :=
  let u := s.offerAll (s.overloadCheck p)
  if u.phase = .retracting then u.retractColumn p else u

/-! ### The tracking unit's work (R120) -/

/-- The tracking unit's work on a report: rel, then the work of the phase of the arrival (R120). In STOPPED no approach check is
made, as R98 and R120 say, and so a second column that meets a condition of R90 offers nothing there, where R90 itself speaks of an
offer under R149 (DEDUCED, log entry 40). -/
def State.trackingWork (s : State) (p : Pos) : State :=
  let t := s.modCol p Column.withRel
  match t.phase with
  | .idle => t
  | .approach => t.approachWork p
  | .retracting => t.retractWork p
  | .aligned | .landed | .stopped => t.restWork p
  | .lifting | .lowering | .dwell | .holding => t.trackedWork p

end Sys2Proof.Machine
end

