-- ==== Sys2Proof/Machine/Roster.lean ====
section
/-! DEFINITION. The roster edits: MAP, UNMAP, LINK and CONFIRM (chapter 1). -/

namespace Sys2Proof.Machine

/-- The checks that the four roster edits make first: the holder, then the phase (R4). -/
def State.rosterRefusal (s : State) (q : PortId) : Option ResultCode :=
  if s.holder ≠ some q then some .notHolder
  else if s.phase ≠ .idle then some .wrongPhase
  else none

/-- A drop that no valid entry names any more: ENROLLED becomes READY, LOST becomes ABSENT (R6). -/
def State.dropLeaves (s : State) (g : SegId) (d : DropId) : State :=
  match (s.drop g d).link with
  | .enrolled => s.changeLink g d .ready
  | .lost => s.changeLink g d .absent
  | .absent | .settling | .paging | .ready | .refused => s

/-- The drop that an entry named leaves the roster. -/
def State.entryLeaves (s : State) : Option RosterEntry → State
  | some e => s.dropLeaves e.seg e.drop
  | none => s

/-- A column record is set to the empty state (R7), which the watches test (R183). A change of its link state is a wake condition
(R36), also where no state, or the state ABSENT, is copied after it, of which R7 says nothing or the contrary (DEDUCED, log entry
43). -/
def State.emptyRecord (s : State) (p : Pos) : State :=
  let t := ((s.classify p .none false none).modCol p fun _ => .empty).testWatches p
  if (s.col p).link = .absent then t else t.wake

/-- The column record of a newly mapped position is emptied and loaded from its new drop (R7). -/
def State.loadRecord (s : State) (p : Pos) (g : SegId) (d : DropId) : State :=
  let t := (s.emptyRecord p).modCol p fun c => { c with link := (s.drop g d).link, cap := (s.drop g d).cap }
  if (s.drop g d).link = .absent then t else (t.testWatches p).wake

/-- The roster with position `p`'s entry replaced and roster confirmed cleared (R5, R8). -/
def Roster.withEntry (r : Roster) (p : Pos) (e : Option RosterEntry) : Roster :=
  { r with entries := r.entries.set p e, confirmed := false }

/-- A retention trigger when the roster differs from what it was (R4). -/
def State.triggerIfChanged (s : State) (before : Roster) : State :=
  if s.roster = before then s else s.trigger

/-- An accepted MAP (R5): with the pair that `p` named before, the expected serial alone is replaced. -/
def State.acceptMap (s : State) (a : MapArgs) : State :=
  let t := { s with roster := s.roster.withEntry a.pos (some { seg := a.seg, drop := a.drop, serial := a.serial }) }
  if entryNames a.seg a.drop (s.entry a.pos) then t.triggerIfChanged s.roster
  else ((t.entryLeaves (s.entry a.pos)).loadRecord a.pos a.seg a.drop).triggerIfChanged s.roster

/-- MAP (R4, R5). -/
def ownerMap (q : PortId) (s : State) (args : List Byte) : State × Answer :=
  match s.rosterRefusal q with
  | some r => s.refuse r
  | none =>
    match mapArgs args with
    | none => s.refuse .badArg
    | some a =>
      match s.mappedAt a.seg a.drop with
      | none => (s.acceptMap a, .plain .done)
      | some p => if p = a.pos then (s.acceptMap a, .plain .done) else (s, .conflict p)

/-- An UNMAP of a valid position (R8). -/
def State.acceptUnmap (s : State) (p : Pos) : State :=
  let t := { s with roster := s.roster.withEntry p none }
  ((t.entryLeaves (s.entry p)).emptyRecord p).triggerIfChanged s.roster

/-- UNMAP (R4, R8). -/
def ownerUnmap (q : PortId) (s : State) (args : List Byte) : State × Answer :=
  match s.rosterRefusal q with
  | some r => s.refuse r
  | none =>
    match posArgs args with
    | none => s.refuse .badArg
    | some p => if s.validPos p then (s.acceptUnmap p, .plain .done) else (s, .plain .done)

/-- LINK (R4, R9). -/
def ownerLink (q : PortId) (s : State) (args : List Byte) : State × Answer :=
  match s.rosterRefusal q with
  | some r => s.refuse r
  | none =>
    match linkArgs args with
    | none => s.refuse .badArg
    | some (k, flag) =>
      (({ s with roster := { s.roster with links := s.roster.links.set k flag } } : State).triggerIfChanged s.roster,
        .plain .done)

/-- The first test of CONFIRM that a position fails (R10). -/
def State.confirmFault (s : State) (p : Pos) : Option Reason :=
  match s.entry p with
  | none => if s.carPresent (carOf p) then some .carIncomplete else none
  | some e =>
    if (s.drop e.seg e.drop).link ≠ .ready ∧ (s.drop e.seg e.drop).link ≠ .enrolled then some .dropNotReady
    else if e.serial.isSome ∧ (s.drop e.seg e.drop).cap.serial ≠ e.serial then some .serialDiffers
    else none

/-- The first position that stands in CONFIRM's way, with its reason (R10). -/
def State.firstConfirmFault (s : State) : Option (Reason × Pos) :=
  (List.finRange 48).findSome? fun p => (s.confirmFault p).map fun r => (r, p)

/-- Pinning: an absent expected serial becomes the drop's serial (R11). -/
def State.pinned (s : State) (p : Pos) : Option RosterEntry :=
  (s.entry p).map fun e =>
    match e.serial with
    | some _ => e
    | none => { e with serial := (s.drop e.seg e.drop).cap.serial }

/-- A position's READY drop becomes ENROLLED (R11). -/
def State.enrolAt (s : State) (p : Pos) : State :=
  match s.entry p with
  | some e => if (s.drop e.seg e.drop).link = .ready then s.changeLink e.seg e.drop .enrolled else s
  | none => s

/-- Every was-lost latch is cleared (R17). -/
def State.clearLatches (s : State) : State :=
  s.mapCols fun c => { c with wasLost := false }

/-- A successful CONFIRM (R11). -/
def State.acceptConfirm (s : State) : State :=
  let t := { s with roster := { s.roster with entries := .build s.pinned } }
  let t := (List.finRange 48).foldl State.enrolAt t
  (({ t with roster := { t.roster with confirmed := true } } : State).clearLatches).trigger

/-- CONFIRM (R4, R10, R11). -/
def ownerConfirm (q : PortId) (s : State) (args : List Byte) : State × Answer :=
  match s.rosterRefusal q with
  | some r => s.refuse r
  | none =>
    if args ≠ [] then s.refuse .badArg
    else if s.validPositions = [] then (s, .incomplete .emptyRoster none)
    else
      match s.firstConfirmFault with
      | some (reason, p) => (s, .incomplete reason (some p))
      | none => (s.acceptConfirm, .plain .done)

/-- MAP: the execution of a held MAP. -/
def execMap (q : PortId) (s : State) : Host.Outcome State Fault Refusal :=
  .next (s.executeRequest q .map (ownerMap q))

/-- UNMAP: the execution of a held UNMAP. -/
def execUnmap (q : PortId) (s : State) : Host.Outcome State Fault Refusal :=
  .next (s.executeRequest q .unmap (ownerUnmap q))

/-- LINK: the execution of a held LINK. -/
def execLink (q : PortId) (s : State) : Host.Outcome State Fault Refusal :=
  .next (s.executeRequest q .link (ownerLink q))

/-- CONFIRM: the execution of a held CONFIRM. -/
def execConfirm (q : PortId) (s : State) : Host.Outcome State Fault Refusal :=
  .next (s.executeRequest q .confirm (ownerConfirm q))

end Sys2Proof.Machine
end

