-- ==== Sys2Proof/Machine/Stops.lean ====
section
/-! DEFINITION. The stops and the safety chain (chapter 8): the STOP request and the STOP byte, STOP_IN, and REARM. -/

namespace Sys2Proof.Machine

/-! ### Sources of a stop (R146, R147) -/

/-- STOP: the stop is offered with the requesting port, in every phase and whatever follows the tag (R146, R167). -/
def ownerStop (q : PortId) (s : State) (_args : List Byte) : State × Answer :=
  (s.offerStop (plainOffer .stopRequest (some q)), .plain .done)

/-- STOP: the execution of a held STOP request. -/
def execStop (q : PortId) (s : State) : Host.Outcome State Fault Refusal :=
  .next (s.executeRequest q .stop (ownerStop q))

/-- The STOP byte acts at its arrival, ahead of the receive FIFO (R146, R159). A port that does not run yet acts on none. -/
def State.stopByte (s : State) (q : PortId) : State :=
  match s.power with
  | .inReset => s
  | .reading | .running => s.offerStop (plainOffer .stopByte (some q))

/-- STOP_BYTE (R146). -/
def execStopByte (q : PortId) (s : State) : Host.Outcome State Fault Refusal :=
  .next (s.stopByte q)

/-- The state of STOP_IN is set. -/
def State.setStopIn (s : State) (c : Contact) : State :=
  { s with stop := { s.stop with stopIn := c } }

/-- STOP_IN has been open for 1 ms: a change from CLOSED is taken, and a stop is offered (R147). -/
def State.stopInOpens (s : State) : State :=
  match s.stop.stopIn with
  | .opened => s
  | .closed => (s.setStopIn .opened).offerStop (plainOffer .stopIn none)

/-- STOP_IN_OPEN (R147). -/
def execStopInOpen (s : State) : Host.Outcome State Fault Refusal :=
  .next s.stopInOpens

/-- STOP_IN_CLOSE: a change to CLOSED updates the state and nothing else (R147). -/
def execStopInClose (s : State) : Host.Outcome State Fault Refusal :=
  .next (s.setStopIn .closed)

/-! ### Rearming (R153 to R155) -/

/-- The phase at stop of the present stop record. -/
def State.phaseAtStop (s : State) : Option Phase :=
  s.stop.record.map fun r => r.phase

/-- The next phase (the table of R154). -/
def State.rearmPhase (s : State) : Phase :=
  if s.allContact then
    match s.phaseAtStop with
    | some .aligned => .aligned
    | some .retracting => .landed
    | _ => .holding
  else .idle

/-- rel less offset of one column (R155); rel is present where this is used (R122). -/
def State.relLessOffset (s : State) (p : Pos) : Int :=
  (s.col p).rel.getD 0 - (s.col p).offset

/-- The sum of rel less offset over the valid positions (R155). -/
def State.reseatSum (s : State) : Int :=
  (s.validPositions.map s.relLessOffset).sum

/-- The reseated H: the mean, floored and clamped to 0 to 40,000 (R155). With no valid position the manual divides by none:
a free value in the stated range (log entry 3). -/
def State.reseatedH (s : State) : Nat :=
  if s.validPositions = [] then min 40000 (Config.reseatOfNone s.fresh)
  else (clampInt 0 40000 (s.reseatSum.fdiv s.validPositions.length)).toNat

/-- The reference at the reseated H, F being 100 times it and v_eff 0 (R155). -/
def State.reseat (s : State) : State :=
  let t := { s with ref := { s.ref with h := s.reseatedH, fine := 100 * s.reseatedH, vEff := 0 } }
  if s.validPositions = [] then t.spendFresh else t

/-- A column's stored load is above its rated load (R153). -/
def State.overloaded (s : State) (p : Pos) : Bool :=
  match (s.col p).load, (s.col p).cap.rated with
  | some l, some r => decide (r < l)
  | _, _ => false

/-- A column's stored load is below C (R153). -/
def State.unloaded (s : State) (p : Pos) : Bool :=
  match (s.col p).load with
  | some l => decide (l < s.limit .contactLoad)
  | none => false

/-- Whether REARM makes the load-lost test: it would lead to HOLDING, and not within the set-down band (R153). -/
def State.rearmTestsLoad (s : State) : Bool :=
  decide (s.rearmPhase = .holding) && !(s.ref.setDown && decide (s.reseatedH ≤ s.limit .setDownBand))

/-- The first valid position that meets a test, with the reason it gives. -/
def State.firstWith (s : State) (test : Pos → Bool) (r : Reason) : Option Answer :=
  (s.validPositions.find? test).map fun p => .incomplete r (some p)

/-- The conditions of REARM, in the order of the table of R153. -/
def State.rearmRefusal (s : State) : Option Answer :=
  if s.stop.stopIn = .opened then some (.incomplete .stopInOpen none)
  else
    (s.firstNotEnrolled.map fun p => .incomplete .dropNotReady (some p))
      <|> s.firstWith (fun p => (s.col p).flags.driveFault) .driveFault
      <|> s.firstWith s.overloaded .overload
      <|> if s.rearmTestsLoad then s.firstWith s.unloaded .loadLost else none

/-- Step 1 and step 2 of R154: the stop record moves to the previous record, and STOP_OUT is driven closed. -/
def StopUnit.rearmed (u : StopUnit) : StopUnit :=
  { u with
    record := none
    further := .fill 14 false
    previous := match u.record with
      | some r => some (r, u.further)
      | none => u.previous
    stopOut := .closed }

/-- A successful REARM (R154). -/
def State.acceptRearm (s : State) : State :=
  let t := ({ s with stop := s.stop.rearmed } : State).clearLatches
  (if s.rearmPhase = .holding then t.reseat else t).changePhase s.rearmPhase

/-- REARM (R153, R154). -/
def ownerRearm (q : PortId) (s : State) (args : List Byte) : State × Answer :=
  match s.turnedAway q with
  | some r => s.refuse r
  | none =>
    if s.phase ≠ .stopped then s.refuse .wrongPhase
    else if args ≠ [] then s.refuse .badArg
    else
      match s.rearmRefusal with
      | some a => (s, a)
      | none => (s.acceptRearm, .plain .done)

/-- REARM: the execution of a held REARM. -/
def execRearm (q : PortId) (s : State) : Host.Outcome State Fault Refusal :=
  .next (s.executeRequest q .rearm (ownerRearm q))

end Sys2Proof.Machine
end

