-- ==== Sys2Proof/Machine/Ports.lean ====
section
/-! DEFINITION. The station ports (sections 9.1 to 9.4): bytes arriving, the out-of-band bytes, the frame assembler, the
transmitter, and the answer to an unknown request code. -/

namespace Sys2Proof.Machine

/-- The ports run from the release of reset (R158). -/
def State.modRunningPort (s : State) (q : PortId) (f : Port → Port) : State :=
  match s.power with
  | .inReset => s
  | .reading | .running => s.modPort q f

/-! ### Out-of-band bytes (R159) -/

/-- HOLD sets the outbound-paused flag (R159). -/
def State.holdOutbound (s : State) (q : PortId) : State :=
  s.modRunningPort q fun x => { x with outboundPaused := true }

/-- HOLD (R159). -/
def execHold (q : PortId) (s : State) : Host.Outcome State Fault Refusal :=
  .next (s.holdOutbound q)

/-- GO clears the outbound-paused flag (R159). -/
def State.goOutbound (s : State) (q : PortId) : State :=
  s.modRunningPort q fun x => { x with outboundPaused := false }

/-- GO (R159). -/
def execGo (q : PortId) (s : State) : Host.Outcome State Fault Refusal :=
  .next (s.goOutbound q)

/-! ### The receive FIFO (R160, R163) -/

/-- The fill reaches 48 with the inbound-held flag clear: a HOLD is owed and the flag is set (R163). -/
def Port.fillRose (x : Port) : Port :=
  if Config.holdFill ≤ x.rx.length ∧ x.inboundHeld = false then
    { x with inboundHeld := true, owed := x.owed ++ [.hold] }
  else x

/-- The fill falls to 16 or below with the flag set: a GO is owed and the flag is cleared (R163). -/
def Port.fillFell (x : Port) : Port :=
  if x.rx.length ≤ Config.goFill ∧ x.inboundHeld = true then
    { x with inboundHeld := false, owed := x.owed ++ [.go] }
  else x

/-- A byte enters the receive FIFO, or is discarded with the overrun latch set when the FIFO is full (R160). -/
def Port.receive (x : Port) (b : RxByte) : Port :=
  if x.rx.length < Config.rxSize then ({ x with rx := x.rx ++ [b] } : Port).fillRose else { x with overrun := true }

/-- A byte from a station: without a framing fault HOLD, GO and STOP act as R159 gives, and every other byte enters the
receive FIFO (R159, R160). -/
def State.byteReceived (s : State) (q : PortId) (value : Byte) (faulted : Bool) : State :=
  if faulted = false ∧ value = holdByte then s.holdOutbound q
  else if faulted = false ∧ value = goByte then s.goOutbound q
  else if faulted = false ∧ value = stopByteValue then s.stopByte q
  else s.modRunningPort q fun x => x.receive { value := value, faulted := faulted }

/-- STATION_BYTE_RECEIVED (R160). -/
def execStationByteReceived (q : PortId) (value : Byte) (faulted : Bool) (s : State) :
    Host.Outcome State Fault Refusal :=
  .next (s.byteReceived q value faulted)

/-! ### The frame assembler (R161, R162) -/

/-- What a byte makes of the assembler: it gathers on, it discards the byte or the frame and sets the framing latch, or a
valid frame's body is complete. -/
inductive Gathering where
  | goesOn (a : Assembler)
  | discards (a : Assembler)
  | valid (body : List Byte)
  deriving DecidableEq, Repr

/-- A gathered value that is not refused: the length is checked as soon as it is gathered, and the CRC once both its bytes
are (R161). -/
def checkGathered (values : List Byte) : Gathering :=
  match values with
  | [] => .goesOn (.inFrame false [])
  | len :: rest =>
    if len.toNat < 2 ∨ 40 < len.toNat then .discards .hunting
    else if rest.length < len.toNat + 2 then .goesOn (.inFrame false values)
    else if rest.drop len.toNat = crcBytes (len :: rest.take len.toNat) then .valid (rest.take len.toNat)
    else .discards .hunting

/-- Whether a byte may follow an ESC (R161). -/
def isEscaped (b : Byte) : Bool :=
  decide (0x85 ≤ b.toNat) && decide (b.toNat ≤ 0x89)

/-- The assembler on a byte received without a framing fault (R161). -/
def Assembler.onByte (a : Assembler) (b : Byte) : Gathering :=
  match a with
  | .hunting => if b = startByte then .goesOn (.inFrame false []) else .discards .hunting
  | .inFrame escaped values =>
    if b = startByte then .discards (.inFrame false [])
    else if escaped then (if isEscaped b then checkGathered (values ++ [b ^^^ 0x20]) else .discards .hunting)
    else if b = escByte then .goesOn (.inFrame true values)
    else checkGathered (values ++ [b])

/-- The assembler on a byte of the receive FIFO: a faulted byte is discarded with any partial frame (R161). -/
def Assembler.onRxByte (a : Assembler) (b : RxByte) : Gathering :=
  if b.faulted then .discards .hunting else a.onByte b.value

/-- The port after the assembler has handled a byte (R161, R162). -/
def Port.gathered (x : Port) : Gathering → Port
  | .goesOn a => { x with assembler := a }
  | .discards a => { x with assembler := a, framing := true }
  | .valid body => { x with assembler := .hunting, held := some body }

/-- A valid frame from the holder restarts the lapse timer (R162, R172). -/
def State.restartLapse (s : State) (q : PortId) : Gathering → State
  | .valid _ => if s.holder = some q then { s with lapse := .running Config.lapseTime } else s
  | .goesOn _ | .discards _ => s

/-- The assembler takes the next byte of the receive FIFO; it takes none while the port has a held request (R160 to R163). -/
def State.assemble (s : State) (q : PortId) : State :=
  match s.power, (s.port q).held, (s.port q).rx with
  | .inReset, _, _ => s
  | _, none, b :: rest =>
    (s.modPort q fun x => (({ x with rx := rest } : Port).gathered (x.assembler.onRxByte b)).fillFell).restartLapse q
      ((s.port q).assembler.onRxByte b)
  | _, _, _ => s

/-- FRAME_ASSEMBLER_TAKE (R161). -/
def execFrameAssemblerTake (q : PortId) (s : State) : Host.Outcome State Fault Refusal :=
  .next (s.assemble q)

/-! ### The transmitter (R163, R164) -/

/-- The byte of an out-of-band character. -/
def OutOfBand.byte : OutOfBand → Byte
  | .hold => holdByte
  | .go => goByte

/-- At the end of a character the transmitter takes an owed HOLD or GO first, whatever the outbound-paused flag; then, with
that flag clear, the next byte of the transmit FIFO (R163, R164). -/
def Port.nextCharacter (x : Port) : Port :=
  match x.owed with
  | o :: rest => { x with owed := rest, line := some o.byte }
  | [] =>
    if x.outboundPaused then { x with line := none }
    else
      match x.tx with
      | b :: rest => { x with tx := rest, line := some b }
      | [] => { x with line := none }

/-- TRANSMIT_CHARACTER (R164). -/
def execTransmitCharacter (q : PortId) (s : State) : Host.Outcome State Fault Refusal :=
  .next (s.modRunningPort q Port.nextCharacter)

/-! ### An unknown request code (R165) -/

/-- A code that names no request is answered UNKNOWN, with no data and no change (R165). -/
def ownerUnknown (s : State) (_args : List Byte) : State × Answer :=
  s.refuse .unknown

/-- UNKNOWN: the execution of a held request whose code names no request. -/
def execUnknown (q : PortId) (s : State) : Host.Outcome State Fault Refusal :=
  .next (s.execute q (fun c => !isRequestCode c) ownerUnknown)

end Sys2Proof.Machine
end

