-- ==== Sys2Proof/Machine/Reads.lean ====
section
/-! DEFINITION. The reads (R19 to R22, R45, R84, R103, R144, R157): the data of each as section 12.2 lays it out. -/

namespace Sys2Proof.Machine

/-! ### READ_ROSTER (R19) -/

/-- The count of valid positions. -/
def State.validCount (s : State) : Nat :=
  s.validPositions.length

/-- The effective articulations, joint k at bit k - 1 (R2). -/
def State.effectiveBits (s : State) : Nat :=
  bitsOf ((List.finRange 11).map s.linkEffective)

/-- Car presence, car k at bit k - 1. -/
def State.presenceBits (s : State) : Nat :=
  bitsOf ((List.finRange 12).map s.carPresent)

/-- READ_ROSTER's 13 bytes. -/
def State.rosterData (s : State) (p : Pos) : List Byte :=
  entryByte (s.entry p) :: (serialBytes ((s.entry p).bind fun e => e.serial)
    ++ [byteOf s.roster.confirmed.toNat, byteOf s.validCount] ++ be16 (bitsOf s.roster.links.rows)
    ++ be16 s.effectiveBits ++ be16 s.presenceBits)

/-- READ_ROSTER (R19). -/
def ownerReadRoster (s : State) (args : List Byte) : State × Answer :=
  match posArgs args with
  | none => s.refuse .badArg
  | some p => (s, .doneWith (s.rosterData p))

/-- READ_ROSTER: the execution of a held READ_ROSTER. -/
def execReadRoster (q : PortId) (s : State) : Host.Outcome State Fault Refusal :=
  .next (s.executeRequest q .readRoster ownerReadRoster)

/-! ### READ_COLUMN (R20) -/

/-- The capability record's seven bytes and serial as the layouts give them: serial, stroke, rated load, max speed. -/
def Capability.bytes (c : Capability) : List Byte :=
  serialBytes c.serial ++ opt16 c.stroke ++ opt16 c.rated ++ opt16 c.maxSpeed

/-- The fields of a column record in the order of the table of section 1.4: bytes 0 to 31. -/
def Column.bytes (c : Column) : List Byte :=
  byteOf (c.link.code + 128 * c.cap.serial.isSome.toNat)
    :: (c.cap.bytes ++ opt16 c.height ++ opt16 c.load ++ [byteOf (bitsOf (c.range :: c.flags.bits))] ++ opt16 c.contact
        ++ optSigned24 c.rel ++ signed16 c.offset ++ optSigned24 c.lag ++ [byteOf (c.cls.code + 4 * c.mark.toNat)]
        ++ signed16 c.demand ++ [byteOf (bitsOf [c.jog, c.parked, c.share, c.wasLost])] ++ opt16 c.creep)

/-- READ_COLUMN's 33 bytes. -/
def State.columnData (s : State) (p : Pos) : List Byte :=
  (s.col p).bytes ++ [entryByte (s.entry p)]

/-- READ_COLUMN (R20). -/
def ownerReadColumn (s : State) (args : List Byte) : State × Answer :=
  match posArgs args with
  | none => s.refuse .badArg
  | some p => (s, .doneWith (s.columnData p))

/-- READ_COLUMN: the execution of a held READ_COLUMN. -/
def execReadColumn (q : PortId) (s : State) : Host.Outcome State Fault Refusal :=
  .next (s.executeRequest q .readColumn ownerReadColumn)

/-! ### READ_CAR (R21, R197) -/

/-- The stored and the effective flag of a joint beside a car, both clear where there is none (R21). -/
def State.jointFlags (s : State) : Option JointId → List Bool
  | none => [false, false]
  | some k => [s.roster.links.get k, s.linkEffective k]

/-- A point byte: link state, classification, mark and valid (section 12.2). -/
def State.pointByte (s : State) (p : Pos) : Byte :=
  byteOf ((s.col p).link.code + 8 * (s.col p).cls.code + 32 * (s.col p).mark.toNat + 128 * (s.validPos p).toNat)

/-- The total load, present when all four points are valid and all four loads are present (R21). -/
def State.totalLoad (s : State) (c : CarId) : Option Nat :=
  if (carPositions c).all s.validPos then s.carLoad c else none

/-- The end balance at a joint beside a car, present when the joint is effective and all four rel values are present (R21). -/
def State.endBalance (s : State) : Option JointId → Option Nat
  | none => none
  | some k => if s.linkEffective k then s.jointDifference k else none

/-- READ_CAR view 0: 18 bytes. -/
def State.carSummary (s : State) (c : CarId) : List Byte :=
  [byteOf (bitsOf (s.carPresent c :: (s.jointFlags (jointBefore c) ++ s.jointFlags (jointAfter c)))),
   byteOf (bitsOf (((carPositions c).map fun p => (s.col p).wasLost) ++ (carPositions c).map fun p => (s.col p).share))]
    ++ (carPositions c).map s.pointByte ++ opt24 (s.spread.get c) ++ opt24 (s.totalLoad c)
    ++ opt24 (s.endBalance (jointBefore c)) ++ opt24 (s.endBalance (jointAfter c))

/-- READ_CAR view 1: 28 bytes. -/
def State.carPoints (s : State) (c : CarId) : List Byte :=
  ((carPositions c).map fun p => opt16 (s.col p).height ++ opt16 (s.col p).load ++ optSigned24 (s.col p).rel).flatten

/-- READ_CAR (R21, R197). -/
def ownerReadCar (s : State) (args : List Byte) : State × Answer :=
  match carArgs args with
  | none => s.refuse .badArg
  | some (c, view) => (s, .doneWith (if view = 0 then s.carSummary c else s.carPoints c))

/-- READ_CAR: the execution of a held READ_CAR. -/
def execReadCar (q : PortId) (s : State) : Host.Outcome State Fault Refusal :=
  .next (s.executeRequest q .readCar ownerReadCar)

/-! ### READ_SEGMENT (R45, R197) -/

/-- Whether a timer runs. -/
def Timer.isRunning : Timer → Bool
  | .stopped => false
  | .running _ => true

/-- The codes of the echo states (section 12.2). -/
def EchoTest.code : EchoTest → Nat
  | .none => 0
  | .waiting _ => 1
  | .running _ _ => 2

/-- A drop status byte (section 12.2). -/
def Drop.statusByte (d : Drop) : Byte :=
  byteOf (d.link.code + 8 * d.miss + 32 * d.page.val)

/-- READ_SEGMENT view 0: 23 bytes. -/
def Segment.lineData (sg : Segment) : List Byte :=
  [byteOf (bitsOf [sg.isQuiet, sg.quietTimer.isRunning, sg.overrun, sg.allstopOwed] + 16 * sg.echo.code),
   byteOf (sg.discovery.val + 1)] ++ echoResultBytes sg.lastEcho ++ sg.drops.rows.map Drop.statusByte

/-- READ_SEGMENT view d: 13 bytes. -/
def State.dropData (s : State) (g : SegId) (d : DropId) : List Byte :=
  [(s.drop g d).statusByte] ++ opt8 ((s.mappedAt g d).map fun p => p.val)
    ++ [byteOf (s.drop g d).cap.serial.isSome.toNat] ++ (s.drop g d).cap.bytes

/-- The drop of a view 1 to 12, none for view 0. -/
def dropOfView (v : Fin 13) : Option DropId :=
  if h : 1 ≤ v.val then some ⟨v.val - 1, by have := v.isLt; omega⟩ else none

/-- READ_SEGMENT's data by view. -/
def State.segmentData (s : State) (g : SegId) (v : Fin 13) : List Byte :=
  match dropOfView v with
  | none => (s.seg g).lineData
  | some d => s.dropData g d

/-- READ_SEGMENT (R45, R197). -/
def ownerReadSegment (s : State) (args : List Byte) : State × Answer :=
  match segmentArgs args with
  | none => s.refuse .badArg
  | some (g, v) => (s, .doneWith (s.segmentData g v))

/-- READ_SEGMENT: the execution of a held READ_SEGMENT. -/
def execReadSegment (q : PortId) (s : State) : Host.Outcome State Fault Refusal :=
  .next (s.executeRequest q .readSegment ownerReadSegment)

/-! ### READ_GROUP (R84) -/

/-- The dwell time left in tenths of a second, rounded up, absent outside DWELL. The model holds no clock: it is a free value
from 1 to the whole dwell (log entry 2). -/
def State.dwellLeft (s : State) : Option Nat :=
  match s.phase with
  | .dwell => some (clampNat 1 (max 1 (10 * s.ref.dwell)) (Config.dwellTenthsLeft s.fresh))
  | .idle | .approach | .aligned | .lifting | .lowering | .holding | .landed | .retracting | .stopped => none

/-- d's bit: 1 for -1 (section 12.2). -/
def Direction.isDown : Direction → Bool
  | .up => false
  | .down => true

/-- The count of ENROLLED valid positions. -/
def State.enrolledCount (s : State) : Nat :=
  (s.validPositions.filter fun p => decide ((s.col p).link = .enrolled)).length

/-- READ_GROUP's 21 bytes. -/
def State.groupData (s : State) : List Byte :=
  [byteOf s.phase.code,
   byteOf (bitsOf [s.pausePending, s.ref.setDown, s.ref.dir.isDown, s.ref.arrived, s.echoStands,
     contactOpen s.stop.stopIn, contactOpen s.stop.stopOut, s.roster.confirmed]),
   byteOf s.plan.index, byteOf s.plan.count] ++ opt16 s.ref.target ++ opt16 s.ref.speed ++ be32 s.ref.fine
    ++ be16 s.ref.h ++ be16 s.ref.vEff ++ opt16 s.dwellLeft
    ++ [byteOf s.holdCount, byteOf s.outCount, byteOf s.enrolledCount]

/-- READ_GROUP (R84). A read in DWELL uses up one free value. -/
def ownerReadGroup (s : State) (args : List Byte) : State × Answer :=
  if args ≠ [] then s.refuse .badArg
  else (if s.dwellLeft.isSome then s.spendFresh else s, .doneWith s.groupData)

/-- READ_GROUP: the execution of a held READ_GROUP. -/
def execReadGroup (q : PortId) (s : State) : Host.Outcome State Fault Refusal :=
  .next (s.executeRequest q .readGroup ownerReadGroup)

/-! ### READ_PLAN (R103) -/

/-- READ_PLAN's 9 bytes. -/
def State.planData (s : State) (i : Fin 16) : List Byte :=
  be16 (s.plan.legs.get i).target ++ be16 (s.plan.legs.get i).speed ++ be16 (s.plan.legs.get i).dwell
    ++ [byteOf (bitsOf [(s.plan.legs.get i).continues, decide (i.val < s.plan.count)]), byteOf s.plan.count,
        byteOf s.plan.index]

/-- READ_PLAN (R103). -/
def ownerReadPlan (s : State) (args : List Byte) : State × Answer :=
  match legArgs args with
  | none => s.refuse .badArg
  | some i => (s, .doneWith (s.planData i))

/-- READ_PLAN: the execution of a held READ_PLAN. -/
def execReadPlan (q : PortId) (s : State) : Host.Outcome State Fault Refusal :=
  .next (s.executeRequest q .readPlan ownerReadPlan)

/-! ### READ_LIMITS (R144) -/

/-- Whether a limit takes one byte in READ_LIMITS: Kp, the ramp, share_min and share_max (section 12.2). -/
def isByteLimit (i : Fin 17) : Bool :=
  decide (i = LimitId.kp.code) || decide (i = LimitId.ramp.code) || decide (i = LimitId.shareMin.code)
    || decide (i = LimitId.shareMax.code)

/-- READ_LIMITS's 30 bytes. -/
def State.limitsData (s : State) : List Byte :=
  ((List.finRange 17).map fun i =>
    if isByteLimit i then [byteOf (s.limits.get i)] else be16 (s.limits.get i)).flatten

/-- READ_LIMITS (R144). -/
def ownerReadLimits (s : State) (args : List Byte) : State × Answer :=
  if args ≠ [] then s.refuse .badArg else (s, .doneWith s.limitsData)

/-- READ_LIMITS: the execution of a held READ_LIMITS. -/
def execReadLimits (q : PortId) (s : State) : Host.Outcome State Fault Refusal :=
  .next (s.executeRequest q .readLimits ownerReadLimits)

/-! ### READ_STOP (R157) -/

/-- READ_STOP's 27 bytes. -/
def StopUnit.data (u : StopUnit) : List Byte :=
  byteOf (bitsOf [u.record.isSome, u.previous.isSome, contactOpen u.stopIn, contactOpen u.stopOut])
    :: (u.recordBlock ++ u.previousBlock)

/-- READ_STOP (R157). -/
def ownerReadStop (s : State) (args : List Byte) : State × Answer :=
  if args ≠ [] then s.refuse .badArg else (s, .doneWith s.stop.data)

/-- READ_STOP: the execution of a held READ_STOP. -/
def execReadStop (q : PortId) (s : State) : Host.Outcome State Fault Refusal :=
  .next (s.executeRequest q .readStop ownerReadStop)

end Sys2Proof.Machine
end

