-- ==== Sys2Proof/Machine/Segments.lean ====
section
/-! DEFINITION. The segment lines (chapter 2): the poll cycle, the exchange, the ALLSTOP broadcast, quiet polling, and the
status arrival that hands a report to every block. -/

namespace Sys2Proof.Machine

/-! ### The poll cycle timer (R25) -/

/-- The poll cycle timer's expiry: a new cycle, or an overrun with a start owed, or nothing while an echo test stands. -/
def State.pollExpiry (s : State) (g : SegId) : State :=
  match s.power, (s.seg g).pollTimer with
  | .running, .running _ =>
    if (s.seg g).echo ≠ .none then s
    else if (s.seg g).cycle.isNone then s.modSeg g Segment.beginCycle
    else (s.modSeg g fun sg => { sg with overrun := true, startOwed := true }).raise .cycleOverrun
  | _, _ => s

/-- POLL_CYCLE_TIMER_EXPIRY (R25). -/
def execPollCycleTimerExpiry (g : SegId) (s : State) : Host.Outcome State Fault Refusal :=
  .next (s.pollExpiry g)

/-! ### The exchange (R13, R28) -/

/-- The demand that a COMMAND to a drop carries: that of the mapped position, and 0 for a PROBE, for an unmapped drop, for a
drop that is not ENROLLED, and from a stop until the phase leaves STOPPED (R13, R28). -/
def State.commandDemand (s : State) (g : SegId) (d : DropId) (kind : ExchangeKind) : Int :=
  match kind with
  | .probe => 0
  | .poll =>
    if (s.seg g).allstopOwed ∨ s.phase = .stopped ∨ (s.drop g d).link ≠ .enrolled then 0
    else
      match s.mappedAt g d with
      | none => 0
      | some p => (s.col p).demand

/-- The page request of a COMMAND: the drop's requested page, and 3 in every PROBE (R28). -/
def commandPage (d : Drop) : ExchangeKind → Fin 4
  | .poll => d.page
  | .probe => 3

/-- The cycle once an exchange with a drop has begun (R26). -/
def Cycle.after (c : Cycle) (d : DropId) : ExchangeKind → Cycle
  | .poll => { reached := d.val + 1, exchanged := d :: c.exchanged, probed := false }
  | .probe => { reached := 12, exchanged := d :: c.exchanged, probed := true }

/-- An exchange begins: the toggle flips, the COMMAND goes on the line, and the reply window follows it (R28). A PROBE moves
the discovery pointer (R26). -/
def Segment.beginExchange (sg : Segment) (d : DropId) (kind : ExchangeKind) (demand : Int) : Segment :=
  let x := sg.drops.get d
  { sg with
    drops := sg.drops.set d { x with toggle := !x.toggle }
    inFlight := some { drop := d, kind := kind, toggle := !x.toggle, page := commandPage x kind }
    cycle := sg.cycle.map fun c => c.after d kind
    discovery := match kind with
      | .poll => sg.discovery
      | .probe => d
    idleWaitRestarted := false
    line := some (commandFrame d kind (!x.toggle) (commandPage x kind) demand) }

/-- Whether a segment's line is free for the controller's own next COMMAND: no exchange in flight, no ALLSTOP owed (R33) and
no echo test (R40). -/
def Segment.freeForCommand (sg : Segment) : Bool :=
  sg.inFlight.isNone && !sg.allstopOwed && decide (sg.echo = .none)

/-- The controller begins the next exchange of its cycle, where there is one and the line is free for it (R26, R28). -/
def State.sendCommand (s : State) (g : SegId) : State :=
  match s.power, (s.seg g).nextExchange with
  | .running, some (d, kind) =>
    if (s.seg g).freeForCommand then s.modSeg g fun sg => sg.beginExchange d kind (s.commandDemand g d kind) else s
  | _, _ => s

/-- COMMAND (R28). -/
def execCommand (g : SegId) (s : State) : Host.Outcome State Fault Refusal :=
  .next (s.sendCommand g)

/-- A byte heard while no reply window is open is discarded and restarts the idle wait (R23). In an open window it belongs to
the frame that STATUS_ARRIVAL carries whole. -/
def Segment.hearByte (sg : Segment) : Segment :=
  match sg.inFlight with
  | none => { sg with idleWaitRestarted := true }
  | some _ => sg

/-- SEGMENT_LINE_BYTE (R23). -/
def execSegmentLineByte (g : SegId) (_value : Byte) (s : State) : Host.Outcome State Fault Refusal :=
  .next (s.modSeg g Segment.hearByte)

/-! ### ALLSTOP (R32) -/

/-- The owed ALLSTOP is sent, and the flag clears (R32). -/
def Segment.sendAllstop (sg : Segment) : Segment :=
  if sg.allstopOwed && sg.inFlight.isNone then
    { sg with allstopOwed := false, idleWaitRestarted := false, line := some allstopFrame }
  else sg

/-- An owed ALLSTOP goes at the first moment the line is free of an exchange (R32). The controllers send nothing before the
image has been read (R24). -/
def State.allstop (s : State) (g : SegId) : State :=
  match s.power with
  | .running => s.modSeg g Segment.sendAllstop
  | .inReset | .reading => s

/-- ALLSTOP (R32). -/
def execAllstop (g : SegId) (s : State) : Host.Outcome State Fault Refusal :=
  .next (s.allstop g)

/-! ### Quiet polling (R35, R38) -/

/-- The creep baselines of a segment's mapped positions are taken (R35). -/
def State.takeBaselines (s : State) (g : SegId) : State :=
  { s with
    cols := .build fun p =>
      match s.entry p with
      | some e => if e.seg = g then { s.col p with creep := (s.col p).height } else s.col p
      | none => s.col p }

/-- The quiet-entry timer's expiry (R35). A stopped timer does not expire. A cycle start that is owed at that moment stays owed and
begins when the cycle in progress ends, as R25 says, and does not wait for the new timer's first expiry, as R35 says of the next cycle
(DEDUCED, log entry 42). -/
def State.quietExpiry (s : State) (g : SegId) : State :=
  match s.power, (s.seg g).quietTimer with
  | .running, .running _ =>
    (s.modSeg g fun sg =>
      { sg with mode := .quiet, quietTimer := .stopped, pollTimer := .running Config.quietPeriod }).takeBaselines g
  | _, _ => s

/-- QUIET_ENTRY_TIMER_EXPIRY (R35). -/
def execQuietEntryTimerExpiry (g : SegId) (s : State) : Host.Outcome State Fault Refusal :=
  .next (s.quietExpiry g)

/-- A creep: the record, the notice and the wake (R38, R174). -/
def State.foundCreep (s : State) (p : Pos) (baseline height : Nat) : State :=
  ({ s.raise .creep with lastCreep := some { pos := p, baseline := baseline, height := height } } : State).wake

/-- The creep test at a status arrival in quiet mode, on the stored height (R38). -/
def State.creepTest (s : State) (g : SegId) (p : Pos) : State :=
  match (s.seg g).mode, (s.col p).height with
  | .quiet, some h =>
    match (s.col p).creep with
    | none => s.modCol p fun c => { c with creep := some h }
    | some b => if s.limit .creepBand < natDistance h b then s.foundCreep p b h else s
  | _, _ => s

/-! ### The status arrival (R18, R31) -/

/-- Step 3 of R18: the clamped height and load, the range flag and the drive flags (R15, R16). -/
def State.writeReport (s : State) (p : Pos) (r : Report) : State :=
  let t := s.modCol p fun c =>
    { c with
      height := some (storedHeight r.height)
      load := some (storedLoad r.load)
      range := rangeFlag r.height r.load
      flags := r.flags }
  if rangeFlag r.height r.load && !(s.col p).range then t.raise .range else t

/-- A MOVING flag in a reply is a wake condition (R36). -/
def State.wakeIfMoving (s : State) (r : Report) : State :=
  if r.flags.moving then s.wake else s

/-- A reported drive fault: COLUMN_FAULT when it is new, and outside IDLE a stop at every such report (R61). -/
def State.faultCheck (s : State) (p : Pos) (before : Bool) (r : Report) : State :=
  if r.flags.driveFault then
    let t := if before then s else s.raise .columnFault
    if t.phase = .idle then t else t.offerStop (columnOffer .driveFault p none)
  else s

/-- Steps 3 to 5 of R18 for a mapped drop: the report, the creep test and the wake of R31, the drive fault, the tracking
unit's work, the completion test of R112 and the watches' test. -/
def State.handleReport (s : State) (g : SegId) (p : Pos) (r : Report) : State :=
  let t := ((s.writeReport p r).creepTest g p).wakeIfMoving r
  (((t.faultCheck p (s.col p).flags.driveFault r).trackingWork p).testCompletion).testWatches p

/-- An acceptable reply ends the exchange and is handed on (R18, R31); an unmapped drop's reply reaches no column (R12). Then
the controller goes on with its cycle. -/
def State.takeReply (s : State) (g : SegId) (x : Exchange) (r : Report) : State :=
  let t := (s.modSeg g fun sg => { sg with inFlight := none }).acceptReply g x r
  let u := match t.mappedAt g x.drop with
    | none => t.wakeIfMoving r
    | some p => t.handleReport g p r
  u.modSeg g Segment.goOn

/-- The bytes of a frame heard in the open reply window: an acceptable STATUS is the reply, and any other frame leaves the
controller listening (R29, R198). -/
def State.statusArrival (s : State) (g : SegId) (frame : List Byte) : State :=
  match s.power, (s.seg g).inFlight with
  | .running, some x =>
    match readStatus x.drop x.toggle frame with
    | none => s
    | some r => s.takeReply g x r
  | _, _ => s

/-- STATUS_ARRIVAL (R18). -/
def execStatusArrival (g : SegId) (frame : List Byte) (s : State) : Host.Outcome State Fault Refusal :=
  .next (s.statusArrival g frame)

/-- The reply window closes with no acceptable reply: the exchange ends as a miss (R29, R30). -/
def State.windowClose (s : State) (g : SegId) : State :=
  match s.power, (s.seg g).inFlight with
  | .running, some x =>
    ((s.modSeg g fun sg => { sg with inFlight := none }).takeMiss g x).modSeg g Segment.goOn
  | _, _ => s

/-- REPLY_WINDOW_CLOSE (R30). -/
def execReplyWindowClose (g : SegId) (s : State) : Host.Outcome State Fault Refusal :=
  .next (s.windowClose g)

end Sys2Proof.Machine
end

