-- ==== Sys2Proof/Machine/Image.lean ====
section
/-! DEFINITION. The retained image: its bytes (section 12.4, R199), its decoding, and the tests that decide the retention
status at the reading (R188). -/

namespace Sys2Proof.Machine

/-! ### The bytes of an image (R199) -/

/-- A roster entry's five bytes: the entry byte, then the expected serial. -/
def entryBytes (e : Option RosterEntry) : List Byte :=
  entryByte e :: serialBytes (e.bind fun x => x.serial)

/-- A plan entry's seven bytes. -/
def legBytes (l : Leg) : List Byte :=
  be16 l.target ++ be16 l.speed ++ be16 l.dwell ++ [byteOf l.continues.toNat]

/-- The roster flags word: articulation flags 1 to 11 at bits 0 to 10, roster confirmed at bit 15. -/
def rosterFlags (r : Roster) : Nat :=
  bitsOf r.links.rows + 32768 * r.confirmed.toNat

/-- Bytes 0 to 582 of an image. -/
def imagePayload (m : Image) : List Byte :=
  (m.roster.entries.rows.map entryBytes).flatten ++ be16 (rosterFlags m.roster) ++ (m.limits.rows.map be16).flatten
    ++ (m.plan.legs.rows.map legBytes).flatten ++ [byteOf m.plan.count, byteOf m.plan.index]
    ++ (m.contacts.rows.map opt16).flatten ++ (m.offsets.rows.map signed16).flatten ++ [byteOf m.phase.code]

/-- The 585 bytes of an image. -/
def imageBytes (m : Image) : List Byte :=
  withCrc (imagePayload m)

/-! ### Decoding (R199) -/

/-- Byte `i` of an area. -/
def byteAt (b : List Byte) (i : Nat) : Byte :=
  b.getD i 0

/-- The two bytes from `i`. -/
def wordAt (b : List Byte) (i : Nat) : Nat :=
  word16 (byteAt b i) (byteAt b (i + 1))

/-- The four bytes from `i`. -/
def serialAt (b : List Byte) (i : Nat) : BitVec 32 :=
  word32 (byteAt b i) (byteAt b (i + 1)) (byteAt b (i + 2)) (byteAt b (i + 3))

/-- The entry of position `p`; an entry with the valid bit clear is none, and a drop outside 1 to 12 is caught by
`goodEntry`. -/
def entryAt (b : List Byte) (p : Pos) : Option RosterEntry :=
  if (byteAt b (5 * p.val)).getLsbD 7 then
    some { seg := Fin.ofNat 4 ((byteAt b (5 * p.val)).toNat / 16),
           drop := Fin.ofNat 12 ((byteAt b (5 * p.val)).toNat % 16 - 1),
           serial := if (byteAt b (5 * p.val)).getLsbD 6 then some (serialAt b (5 * p.val + 1)) else none }
  else none

/-- An entry byte that passes its tests: a valid entry's drop is 1 to 12, and an entry with the valid bit clear has the
serial-present bit clear (R188, R199). -/
def goodEntry (b : List Byte) (p : Pos) : Bool :=
  if (byteAt b (5 * p.val)).getLsbD 7 then
    decide (1 ≤ (byteAt b (5 * p.val)).toNat % 16) && decide ((byteAt b (5 * p.val)).toNat % 16 ≤ 12)
  else !(byteAt b (5 * p.val)).getLsbD 6

/-- The roster of an image. -/
def rosterAt (b : List Byte) : Roster :=
  { entries := .build (entryAt b)
    links := .build fun k => (wordAt b 240).testBit k.val
    confirmed := (wordAt b 240).testBit 15 }

/-- Plan entry `i`. -/
def legAt (b : List Byte) (i : Fin 16) : Leg :=
  { target := wordAt b (276 + 7 * i.val), speed := wordAt b (278 + 7 * i.val), dwell := wordAt b (280 + 7 * i.val),
    continues := decide (byteAt b (282 + 7 * i.val) = 1) }

/-- The contact height of position `p`, 0xFFFF for absent. -/
def contactAt (b : List Byte) (p : Pos) : Option Nat :=
  if wordAt b (390 + 2 * p.val) = 65535 then none else some (wordAt b (390 + 2 * p.val))

/-- The offset of position `p`. -/
def offsetAt (b : List Byte) (p : Pos) : Int :=
  int16 (byteAt b (486 + 2 * p.val)) (byteAt b (487 + 2 * p.val))

/-- The tests of R199 on the raw bytes: the entry bytes, bits 11 to 14 of the roster flags and the continue bytes. -/
def goodLayout (b : List Byte) : Bool :=
  (List.finRange 48).all (goodEntry b)
    && [11, 12, 13, 14].all (fun k => !(wordAt b 240).testBit k)
    && (List.finRange 16).all fun i => decide ((byteAt b (282 + 7 * i.val)).toNat ≤ 1)

/-- The image that bytes hold with phase `ph` (R199). -/
def imageAt (b : List Byte) (ph : Phase) : Image :=
  { roster := rosterAt b
    limits := .build fun i => wordAt b (242 + 2 * i.val)
    plan := { legs := .build (legAt b), count := (byteAt b 388).toNat, index := (byteAt b 389).toNat }
    contacts := .build (contactAt b)
    offsets := .build (offsetAt b)
    phase := ph }

/-! ### The consistency tests (R188) -/

/-- No two valid entries name the same segment and drop. -/
def Roster.injective (r : Roster) : Bool :=
  (List.finRange 48).all fun p =>
    match r.entries.get p with
    | none => true
    | some e => (List.finRange 48).all fun x => decide (x = p) || !entryNames e.seg e.drop (r.entries.get x)

/-- A present car of a confirmed roster is whole, and its entries have expected serials. -/
def Roster.wholeCar (r : Roster) (c : CarId) : Bool :=
  (carPositions c).all (fun p => (r.entries.get p).isNone)
    || (carPositions c).all fun p => ((r.entries.get p).bind fun e => e.serial).isSome

/-- When roster confirmed is set: an entry is valid, and every present car has all four entries valid with serials. -/
def Roster.confirmedWell (r : Roster) : Bool :=
  !r.confirmed || (r.entries.rows.any (fun e => e.isSome) && (List.finRange 12).all r.wholeCar)

/-- Every limit lies within its range, and the windows are in order. -/
def limitsWell (l : Table Nat 17) : Bool :=
  ((List.finRange 17).all fun i =>
      decide ((limitRanges.get i).1 ≤ l.get i) && decide (l.get i ≤ (limitRanges.get i).2))
    && limitsOrdered l

/-- Every field of a leg lies within its range (R101). -/
def Leg.inRange (l : Leg) : Bool :=
  decide (l.target ≤ 40000) && decide (10 ≤ l.speed) && decide (l.speed ≤ 400) && decide (l.dwell ≤ 600)

/-- n is at most 16, the leg index at most n, and every leg in range. -/
def Plan.well (p : Plan) : Bool :=
  decide (p.count ≤ 16) && decide (p.index ≤ p.count) && p.legs.rows.all Leg.inRange

/-- A position's contact height and offset: in range, and none and 0 for a position that is not valid. -/
def Image.goodPosition (m : Image) (p : Pos) : Bool :=
  decide ((m.contacts.get p).getD 0 ≤ 40000) && decide (-400 ≤ m.offsets.get p) && decide (m.offsets.get p ≤ 400)
    && ((m.roster.entries.get p).isSome || (decide (m.contacts.get p = none) && decide (m.offsets.get p = 0)))

/-- No contact height is present and every offset is 0. -/
def Image.landedAtRest (m : Image) : Bool :=
  (List.finRange 48).all fun p => decide (m.contacts.get p = none) && decide (m.offsets.get p = 0)

/-- The consistency tests of R188 on the decoded contents. -/
def Image.consistent (m : Image) : Bool :=
  decide (m.phase ≠ .stopped) && m.roster.injective && m.roster.confirmedWell && limitsWell m.limits && m.plan.well
    && (List.finRange 48).all m.goodPosition && (decide (m.phase ≠ .idle) || m.landedAtRest)

/-- The image that an area's contents hold, when they pass the tests of R188 and R199. -/
def decodeImage (b : List Byte) : Option Image :=
  match phaseOfCode (byteAt b 582).toNat with
  | none => none
  | some ph => if goodLayout b && (imageAt b ph).consistent then some (imageAt b ph) else none

/-! ### The reading (R188) -/

/-- The status that a reading decides, with the image when it is VALID (R188). -/
def readImage : MemoryReading → RetentionStatus × Option Image
  | .noAnswer => (.absent, none)
  | .answered b =>
    if b.all fun x => decide (x = 0xFF) then (.empty, none)
    else if b.length ≠ Config.imageSize ∨ crcBytes (b.take 583) ≠ b.drop 583 then (.corrupt, none)
    else
      match decodeImage b with
      | none => (.corrupt, none)
      | some m => (.valid, some m)

end Sys2Proof.Machine
end

