-- ==== Sys2Proof/Machine/Startup.lean ====
section
/-! DEFINITION. Start-up and the retention unit (chapter 11): reset, its release, the end of the reading and the end of a
write. -/

namespace Sys2Proof.Machine

/-! ### Reset (R158, R186) -/

/-- A power-on reset or an assertion of RESET: every block takes its value after reset, and the STOP_IN state is the level
found on the input (R145, R147, R186). The model's own queue and counter of free values are no part of the reset. -/
def State.powerOnReset (s : State) (level : Contact) : State :=
  { State.reset with
    stop := { StopUnit.initial with stopIn := level }
    pending := s.pending
    fresh := s.fresh }

/-- POWER_ON_RESET (R186). -/
def execPowerOnReset (level : Contact) (s : State) : Host.Outcome State Fault Refusal :=
  .next (s.powerOnReset level)

/-- The baud rate of the two strap pins, true for high (R158). -/
def baudOf (strapB strapA : Bool) : BaudRate :=
  match strapB, strapA with
  | false, false => .b115200
  | false, true => .b230400
  | true, false => .b460800
  | true, true => .b921600

/-- The release of reset: the straps are read, the ports begin to run and the reading begins (R186). -/
def State.resetRelease (s : State) (strapB strapA : Bool) : State :=
  match s.power with
  | .inReset => { s with power := .reading, baud := baudOf strapB strapA }
  | .reading | .running => s

/-- RESET_RELEASE (R186). -/
def execResetRelease (strapB strapA : Bool) (s : State) : Host.Outcome State Fault Refusal :=
  .next (s.resetRelease strapB strapA)

/-! ### The end of the reading (R189) -/

/-- What the part restores when there is no VALID image: the empty roster, the default limits and plan, no contact and no
offset (R189). -/
def Image.default : Image :=
  { roster := .empty, limits := defaultLimits, plan := .initial, contacts := .fill 48 none, offsets := .fill 48 0,
    phase := .idle }

/-- Steps 1 and 2 of R189: the roster, the limits, the plan, the contact heights and the offsets. -/
def State.restore (s : State) (m : Image) : State :=
  { s with
    roster := m.roster
    limits := m.limits
    plan := m.plan
    cols := .build fun p => { s.col p with contact := m.contacts.get p, offset := m.offsets.get p } }

/-- STOP_OUT is driven closed. -/
def State.closeStopOut (s : State) : State :=
  { s with stop := { s.stop with stopOut := .closed } }

/-- A segment's polling begins: fast mode, both timers started and the first cycle begun (R24); a cycle waits for the end of
an echo test (R25). -/
def Segment.startPolling (sg : Segment) : Segment :=
  let t : Segment :=
    { sg with mode := .fast, pollTimer := .running Config.fastPeriod, quietTimer := .running Config.quietEntryTime }
  if t.echo = .none then t.beginCycle else t

/-- Step 3 of R189: IDLE with STOP_OUT closed, where a waiting echo test becomes RUNNING (R190), or the stop with cause
POWER_RESTORED, whose phase at stop is the phase of the image (R151). -/
def State.takePhase (s : State) (ph : Phase) : State :=
  match ph with
  | .idle => s.closeStopOut.mapSegs Segment.tryEcho
  | .approach | .aligned | .lifting | .lowering | .dwell | .holding | .landed | .retracting | .stopped =>
    ({ s with phase := ph } : State).firstStop (plainOffer .powerRestored none)

/-- The end of the reading with its status and image (R189). -/
def State.endReading (s : State) (status : RetentionStatus) (m : Image) : State :=
  let t := ({ s with power := .running, retention := { s.retention with status := status } } : State).restore m
  ((t.takePhase m.phase).raise .retain).mapSegs Segment.startPolling

/-- The end of the reading: a VALID image, or the default one (R189). -/
def State.imageReadEnd (s : State) (r : MemoryReading) : State :=
  match s.power with
  | .reading => s.endReading (readImage r).1 ((readImage r).2.getD .default)
  | .inReset | .running => s

/-- IMAGE_READ_END (R189). -/
def execImageReadEnd (r : MemoryReading) (s : State) : Host.Outcome State Fault Refusal :=
  .next (s.imageReadEnd r)

/-! ### The end of a write (R192, R193) -/

/-- Whether a write succeeded: the memory reported completion in time, and the read-back equals what was sent (R193). -/
def writeSucceeded (sent : Image) : WriteOutcome → Bool
  | .noAnswer | .notCompleted => false
  | .completed back => decide (back = imageBytes sent)

/-- The status after a write's outcome, with RETAIN at every failure and at a success after another status (R193). -/
def State.noteWrite (s : State) (success : Bool) : State :=
  let status : RetentionStatus := if success then .valid else .failed
  let t := { s with retention := { s.retention with status := status } }
  if success ∧ s.retention.status = .valid then t else t.raise .retain

/-- After a write the flag is clear, unless a rewrite is pending: then a new write begins with the state as it stands
(R192). -/
def State.afterWrite (s : State) : State :=
  { s with
    retention := { s.retention with writing := if s.retention.rewrite then some s.image else none, rewrite := false } }

/-- The end of the write in flight (R193). With no write in flight there is none to end. -/
def State.writeEnd (s : State) (o : WriteOutcome) : State :=
  match s.retention.writing with
  | none => s
  | some sent => (s.noteWrite (writeSucceeded sent o)).afterWrite

/-- WRITE_END (R193). -/
def execWriteEnd (o : WriteOutcome) (s : State) : Host.Outcome State Fault Refusal :=
  .next (s.writeEnd o)

end Sys2Proof.Machine
end

