-- ==== Sys2Proof/Machine/Dispatch.lean ====
section
/-! DEFINITION. The dispatch: one arm for each command of spec/opcode_table.json, in the table's order. -/

namespace Sys2Proof.Machine

/-- A command's effect on everything but the queue of waiting commands. -/
def exec (i : Instr) (s : State) : Host.Outcome State Fault Refusal :=
  match i with
  | .powerOnReset stopIn => Sys2Proof.Machine.execPowerOnReset stopIn s
  | .resetRelease strapB strapA => Sys2Proof.Machine.execResetRelease strapB strapA s
  | .imageReadEnd reading => Sys2Proof.Machine.execImageReadEnd reading s
  | .writeEnd outcome => Sys2Proof.Machine.execWriteEnd outcome s
  | .stationByteReceived q value faulted => Sys2Proof.Machine.execStationByteReceived q value faulted s
  | .hold q => Sys2Proof.Machine.execHold q s
  | .go q => Sys2Proof.Machine.execGo q s
  | .stopByte q => Sys2Proof.Machine.execStopByte q s
  | .frameAssemblerTake q => Sys2Proof.Machine.execFrameAssemblerTake q s
  | .transmitCharacter q => Sys2Proof.Machine.execTransmitCharacter q s
  | .updateFrame q => Sys2Proof.Machine.execUpdateFrame q s
  | .unknown q => Sys2Proof.Machine.execUnknown q s
  | .readRoster q => Sys2Proof.Machine.execReadRoster q s
  | .readColumn q => Sys2Proof.Machine.execReadColumn q s
  | .readCar q => Sys2Proof.Machine.execReadCar q s
  | .readSegment q => Sys2Proof.Machine.execReadSegment q s
  | .readGroup q => Sys2Proof.Machine.execReadGroup q s
  | .readPlan q => Sys2Proof.Machine.execReadPlan q s
  | .readLimits q => Sys2Proof.Machine.execReadLimits q s
  | .readStop q => Sys2Proof.Machine.execReadStop q s
  | .noticeNext q => Sys2Proof.Machine.execNoticeNext q s
  | .noticeSet q => Sys2Proof.Machine.execNoticeSet q s
  | .watch q => Sys2Proof.Machine.execWatch q s
  | .unwatch q => Sys2Proof.Machine.execUnwatch q s
  | .claim q => Sys2Proof.Machine.execClaim q s
  | .yield q => Sys2Proof.Machine.execYield q s
  | .stop q => Sys2Proof.Machine.execStop q s
  | .map q => Sys2Proof.Machine.execMap q s
  | .unmap q => Sys2Proof.Machine.execUnmap q s
  | .link q => Sys2Proof.Machine.execLink q s
  | .confirm q => Sys2Proof.Machine.execConfirm q s
  | .echo q => Sys2Proof.Machine.execEcho q s
  | .approach q => Sys2Proof.Machine.execApproach q s
  | .run q => Sys2Proof.Machine.execRun q s
  | .pause q => Sys2Proof.Machine.execPause q s
  | .setdown q => Sys2Proof.Machine.execSetdown q s
  | .retract q => Sys2Proof.Machine.execRetract q s
  | .jog q => Sys2Proof.Machine.execJog q s
  | .rearm q => Sys2Proof.Machine.execRearm q s
  | .planLeg q => Sys2Proof.Machine.execPlanLeg q s
  | .planCut q => Sys2Proof.Machine.execPlanCut q s
  | .limitSet q => Sys2Proof.Machine.execLimitSet q s
  | .lapseTimerExpiry => Sys2Proof.Machine.execLapseTimerExpiry s
  | .stopInOpen => Sys2Proof.Machine.execStopInOpen s
  | .stopInClose => Sys2Proof.Machine.execStopInClose s
  | .pollCycleTimerExpiry g => Sys2Proof.Machine.execPollCycleTimerExpiry g s
  | .command g => Sys2Proof.Machine.execCommand g s
  | .segmentLineByte g value => Sys2Proof.Machine.execSegmentLineByte g value s
  | .statusArrival g frame => Sys2Proof.Machine.execStatusArrival g frame s
  | .replyWindowClose g => Sys2Proof.Machine.execReplyWindowClose g s
  | .allstop g => Sys2Proof.Machine.execAllstop g s
  | .quietEntryTimerExpiry g => Sys2Proof.Machine.execQuietEntryTimerExpiry g s
  | .settleTimerExpiry g d => Sys2Proof.Machine.execSettleTimerExpiry g d s
  | .echoTestRunning g => Sys2Proof.Machine.execEchoTestRunning g s
  | .echoPulse g r => Sys2Proof.Machine.execEchoPulse g r s
  | .echoTestEnd g => Sys2Proof.Machine.execEchoTestEnd g s
  | .referenceStepTimerExpiry => Sys2Proof.Machine.execReferenceStepTimerExpiry s
  | .dwellTimerExpiry => Sys2Proof.Machine.execDwellTimerExpiry s

end Sys2Proof.Machine
end

