-- ==== Sys2Proof/Safety.lean ====
section
/-! DEFINITION. What counts as a safe state of the part, in the terms the claims use: the laws that the manual states of every
state, one predicate a law, each decidable, so that a test can evaluate it; and after them what the statements say of two states:
what a request answers, what a phase change, a stop, a wake, a report and a group check do. -/

namespace Sys2Proof.Machine

/-! ### Station ports and authority -/

/-- The receive FIFO never holds more than 64 bytes (R160), and the transmit FIFO never more than 128 (R164). -/
abbrev State.fifosBounded (s : State) : Prop :=
  ∀ q : PortId, (s.port q).rx.length ≤ Config.rxSize ∧ (s.port q).tx.length ≤ Config.txSize

/-- The inbound-held flag follows the fill with its hysteresis: clear below 48, set above 16 (R163). -/
abbrev State.flowControlled (s : State) : Prop :=
  ∀ q : PortId, ((s.port q).inboundHeld = false → (s.port q).rx.length < Config.holdFill) ∧
    ((s.port q).inboundHeld = true → Config.goFill < (s.port q).rx.length)

/-- A held request has the 2 to 40 body bytes of a valid frame (R161, R162). -/
abbrev State.heldBounded (s : State) : Prop :=
  ∀ q : PortId, ∀ body ∈ (s.port q).held, 2 ≤ body.length ∧ body.length ≤ 40

/-- The lapse timer runs while there is a holder and is stopped while there is none (R169). -/
abbrev State.authorityWell (s : State) : Prop :=
  s.lapse = .stopped ↔ s.holder = none

/-! ### Notices and watches -/

/-- A station's pending set holds only categories enabled for that station (R175). -/
abbrev State.noticesWell (s : State) : Prop :=
  ∀ (q : PortId) (c : Fin 16), (s.notices.get q).waiting.get c = true → (s.notices.get q).enabled.get c = true

/-- The owed set lies within the watch set (R182), and only a watched position has a last-sent record (R181). -/
abbrev State.watchesWell (s : State) : Prop :=
  ∀ (q : PortId) (p : Pos), ((s.watches.get q).owed.get p = true → (s.watches.get q).watched.get p = true) ∧
    (((s.watches.get q).lastSent.get p).isSome = true → (s.watches.get q).watched.get p = true)

/-! ### Stops -/

/-- The stop record is present exactly when the phase is STOPPED (R145), STOP_OUT is open exactly in STOPPED and until the
image has been read (R152), and until then the phase is IDLE (R62). -/
abbrev State.stopsWell (s : State) : Prop :=
  (s.stop.record.isSome = true ↔ s.phase = .stopped) ∧
    (s.stop.stopOut = .opened ↔ s.phase = .stopped ∨ s.power ≠ .running) ∧
    (s.power ≠ .running → s.phase = .idle)

/-- The further-causes set never holds the cause of the stop record (R149), and the phase at stop can be any phase but
STOPPED (R150). -/
abbrev State.recordWell (s : State) : Prop :=
  ∀ r ∈ s.stop.record, s.stop.further.get r.cause.code = false ∧ r.phase ≠ .stopped

/-! ### Tracking, plan and reference -/

/-- The hold count and the out-of-position count are the numbers of columns classed LAG and of marked columns (R124). -/
abbrev State.countsWell (s : State) : Prop :=
  s.holdCount = s.cols.count (fun c => decide (c.cls = .lag)) ∧ s.outCount = s.cols.count (fun c => c.mark)

/-- The plan: n at most 16, the leg index never above n, every stored leg in its range (R99, R101); while a plan leg runs
the index is below n. -/
abbrev State.planWell (s : State) : Prop :=
  s.plan.well = true ∧ (s.phase.isLeg = true → s.ref.setDown = false → s.plan.index < s.plan.count)

/-- The limits lie in their ranges, and the windows are in order (R141, R142). -/
abbrev State.limitsInRange (s : State) : Prop :=
  limitsWell s.limits = true

/-- The reference: H is F floored to height steps, within 0 to 40,000 as is the effective target; v_eff is 0 outside LIFTING
and LOWERING and never above the effective speed (R104, R109). -/
abbrev State.referenceWell (s : State) : Prop :=
  s.ref.h = s.ref.fine / 100 ∧ s.ref.fine ≤ 4000000 ∧ (∀ t ∈ s.ref.target, t ≤ 40000) ∧
    (s.phase.isLeg = false → s.ref.vEff = 0) ∧ (∀ v ∈ s.ref.speed, s.phase.isLeg = true → s.ref.vEff ≤ v)

/-- The reference step timer runs exactly in LIFTING and LOWERING and the dwell timer exactly in DWELL (R64, R70, R113);
pause-pending is clear outside LIFTING and LOWERING (R62). -/
abbrev State.timersWell (s : State) : Prop :=
  (s.ref.stepTimer ≠ .stopped ↔ s.phase.isLeg = true) ∧ (s.ref.dwellTimer ≠ .stopped ↔ s.phase = .dwell) ∧
    (s.pausePending = true → s.phase.isLeg = true)

/-! ### Segment lines and drops -/

/-- In the motion phases every segment is in fast mode and its quiet-entry timer is stopped (R34). -/
abbrev State.pollingWell (s : State) : Prop :=
  s.phase.isMotion = true → ∀ g : SegId, (s.seg g).mode = .fast ∧ (s.seg g).quietTimer = .stopped

/-- While an echo test is RUNNING on a segment no exchange is in flight there, no cycle is in progress and none is owed, and
no settle timer runs (R40). -/
abbrev Segment.echoQuiet (sg : Segment) : Prop :=
  sg.echo.code = 2 → sg.inFlight = none ∧ sg.cycle = none ∧ sg.startOwed = false ∧
    ∀ d : DropId, (sg.drops.get d).settle = .stopped

/-- At most one segment has an echo test in WAITING or RUNNING (R39), and a RUNNING test keeps its line to itself (R40). -/
abbrev State.echoWell (s : State) : Prop :=
  (∀ g g' : SegId, (s.seg g).echo ≠ .none → (s.seg g').echo ≠ .none → g = g') ∧ ∀ g : SegId, (s.seg g).echoQuiet

/-- The part of a capability record that page 1 gives, as the part accepts it (R52). -/
abbrev Capability.hasPage1 (c : Capability) : Prop :=
  (c.stroke.any fun x => decide (x ≤ 40000)) = true ∧ (c.rated.any fun x => decide (1000 ≤ x)) = true

/-- The part of a capability record that page 2 gives, as the part accepts it (R53). -/
abbrev Capability.hasPage2 (c : Capability) : Prop :=
  (c.maxSpeed.any fun x => decide (10 ≤ x) && decide (x ≤ 400)) = true

/-- What a capability record holds in a link state with a requested page (R47, R51 to R53). -/
abbrev Capability.fits (c : Capability) (link : LinkState) (page : Fin 4) : Prop :=
  (link = .absent ∨ link = .settling → c = .empty) ∧
    (link = .paging → (1 ≤ page.val → c.serial.isSome = true) ∧ (2 ≤ page.val → c.hasPage1)) ∧
    (link = .ready ∨ link = .enrolled ∨ link = .lost → c.serial.isSome = true ∧ c.hasPage1 ∧ c.hasPage2)

/-- A drop: its miss count is at most 3 and 0 in ABSENT (R30), its settle timer runs in SETTLING alone (R49), the requested
page is 3 outside PAGING and 0 to 2 in it, and its capability record fits its link state (R47). -/
abbrev Drop.well (d : Drop) : Prop :=
  d.miss ≤ 3 ∧ (d.link = .absent → d.miss = 0) ∧ (d.settle ≠ .stopped → d.link = .settling) ∧
    (d.link = .paging ↔ d.page ≠ 3) ∧ d.cap.fits d.link d.page

/-- Every drop is as `Drop.well` says. -/
abbrev State.dropsWell (s : State) : Prop :=
  ∀ (g : SegId) (d : DropId), (s.drop g d).well

/-! ### The roster and the column records -/

/-- No two positions name one drop (R5), and a confirmed roster is whole and pinned (R10, R11). -/
abbrev State.rosterWell (s : State) : Prop :=
  s.roster.injective = true ∧ s.roster.confirmedWell = true

/-- The link state and the capability record of every valid position are those of its drop (R46); an invalid position has
neither (R7); a drop that no position names is not ENROLLED (R6); and before the image has been read every drop is ABSENT
(R189). -/
abbrev State.mirrored (s : State) : Prop :=
  (∀ p : Pos, (∀ e ∈ s.entry p, (s.col p).link = (s.drop e.seg e.drop).link ∧
      (s.col p).cap = (s.drop e.seg e.drop).cap) ∧
    (s.entry p = none → (s.col p).link = .absent ∧ (s.col p).cap = .empty)) ∧
    (∀ (g : SegId) (d : DropId), (s.drop g d).link = .enrolled → (s.mappedAt g d).isSome = true) ∧
    (s.power ≠ .running → ∀ (g : SegId) (d : DropId), (s.drop g d).link = .absent)

/-- The phases in which every valid position's column holds a contact height (R63, R81). -/
def Phase.hasContacts : Phase → Bool
  | .aligned | .lifting | .lowering | .dwell | .holding | .landed | .retracting => true
  | .idle | .approach | .stopped => false

/-- Outside IDLE and STOPPED every valid position's column is ENROLLED, and from ALIGNED on it holds a contact height
(R63). -/
abbrev State.groupReady (s : State) : Prop :=
  ∀ p : Pos, s.validPos p = true →
    (s.phase ≠ .idle → s.phase ≠ .stopped → (s.col p).link = .enrolled) ∧
      (s.phase.hasContacts = true → (s.col p).contact.isSome = true)

/-- The roster is confirmed in APPROACH (R67), and wherever an enrolled column holds a contact height: contacts come from an
approach or from an image, edits are taken in IDLE alone, and a restored column is enrolled in a confirmed roster alone
(R4, R55, R65). -/
abbrev State.contactsConfirmed (s : State) : Prop :=
  (s.phase = .approach → s.roster.confirmed = true) ∧
    ∀ p : Pos, s.validPos p = true → (s.col p).link = .enrolled → (s.col p).contact.isSome = true →
      s.roster.confirmed = true

/-- A demand fits the phase (R128). -/
abbrev Column.demandFits (c : Column) (ph : Phase) : Prop :=
  (0 < c.demand → ph = .approach ∨ ph = .lifting ∨ ph = .holding ∧ c.jog = true) ∧
    (c.demand < 0 → ph = .lowering ∨ ph = .retracting ∨ ph = .holding ∧ c.jog = true)

/-- A demand lies within the drive's clamped max speed, and is 0 for a drop that is not ENROLLED (R13, R128). -/
abbrev Column.demandBounded (c : Column) : Prop :=
  c.demand.natAbs ≤ c.speedBound ∧ (c.link ≠ .enrolled → c.demand = 0)

/-- The demand law: every demand field fits the phase, lies within the drive's max speed and is 0 without enrolment (R13,
R128), and jog-in-progress is set in HOLDING alone (R64, R139). -/
abbrev State.demandsLawful (s : State) : Prop :=
  ∀ p : Pos, (s.col p).demandFits s.phase ∧ (s.col p).demandBounded ∧ ((s.col p).jog = true → s.phase = .holding)

/-- The stored values of a column lie in their ranges (R15, R88, R138). -/
abbrev Column.inRange (c : Column) : Prop :=
  (∀ h ∈ c.height, h ≤ 40000) ∧ (∀ l ∈ c.load, l ≤ 60000) ∧ (∀ k ∈ c.contact, k ≤ 40000) ∧ -400 ≤ c.offset ∧
    c.offset ≤ 400

/-- A column without a contact height and with offset 0. -/
abbrev Column.atRest (c : Column) : Prop :=
  c.contact = none ∧ c.offset = 0

/-- The columns: values in range, an invalid position at rest (R7), and every position at rest in IDLE and while stopped in
IDLE (R65). -/
abbrev State.columnsWell (s : State) : Prop :=
  ∀ p : Pos, (s.col p).inRange ∧ (s.validPos p = false → (s.col p).atRest) ∧ (s.imagePhase = .idle → (s.col p).atRest)

/-! ### The laws together -/

/-- The laws of the stations: their ports, the authority, the notices and the watches. -/
abbrev State.stationsSafe (s : State) : Prop :=
  s.fifosBounded ∧ s.flowControlled ∧ s.heldBounded ∧ s.authorityWell ∧ s.noticesWell ∧ s.watchesWell

/-- The laws of the stop unit. -/
abbrev State.stopsSafe (s : State) : Prop :=
  s.stopsWell ∧ s.recordWell

/-- The laws of the plan, the limits, the reference, its timers and the polling. -/
abbrev State.liftSafe (s : State) : Prop :=
  s.planWell ∧ s.limitsInRange ∧ s.referenceWell ∧ s.timersWell ∧ s.pollingWell ∧ s.echoWell

/-- The laws of the roster, the drops and the columns. -/
abbrev State.columnsSafe (s : State) : Prop :=
  s.rosterWell ∧ s.dropsWell ∧ s.mirrored ∧ s.groupReady ∧ s.contactsConfirmed ∧ s.columnsWell

/-- Every law that the manual states of every state. -/
abbrev State.safe (s : State) : Prop :=
  s.stationsSafe ∧ s.stopsSafe ∧ s.countsWell ∧ s.liftSafe ∧ s.demandsLawful ∧ s.columnsSafe

/-! ### Runs -/

/-- The commands of a list executed one after another. -/
def execAll : List Instr → State → Host.Outcome State Fault Refusal
  | [], s => .next s
  | c :: cs, s =>
    match exec c s with
    | .next t => execAll cs t
    | .fault r => .fault r
    | .refused r => .refused r

/-! ### Effects that several commands share -/

/-- The retention unit after a trigger: a write of image `m` begins, or a rewrite is marked (R192). -/
def Retention.triggered (r : Retention) (m : Image) : Retention :=
  match r.writing with
  | none => { r with writing := some m }
  | some _ => { r with rewrite := true }

/-- The notices once category `c` has been raised (R175). -/
def State.noticesWith (s : State) (c : Category) : Table NoticeState 4 :=
  s.notices.map (NoticeState.raised c)

/-- A column record after a change from phase `old` to another phase `new` (R64, R65, R93, R125, R36). -/
def Column.changed (old new : Phase) (c : Column) : Column :=
  { c with
    demand := 0
    jog := false
    creep := none
    parked := if old = .retracting ∨ new = .retracting ∨ new = .idle then false else c.parked
    cls := if new.isTracked then c.cls else .none
    mark := if new.isTracked then c.mark else false
    lag := if new.isTracked then c.lag else none
    contact := if new = .idle then none else c.contact
    rel := if new = .idle then none else c.rel
    offset := if new = .idle then 0 else c.offset
    share := if new = .idle then false else c.share }

/-- The reference generator after a change to phase `new` (R64, R65, R68, R104). -/
def Reference.changed (new : Phase) (r : Reference) : Reference :=
  { r with
    vEff := 0
    stepTimer := if new.isLeg then r.stepTimer else .stopped
    dwellTimer := if new = .dwell then r.dwellTimer else .stopped
    fine := if new = .idle ∨ new = .aligned then 0 else r.fine
    h := if new = .idle ∨ new = .aligned then 0 else r.h
    arrived := if new = .idle ∨ new = .aligned then false else r.arrived
    target := if new = .idle then none else r.target
    speed := if new = .idle then none else r.speed
    setDown := if new = .idle then false else r.setDown }

/-- A segment after a wake that leaves its quiet-entry timer at `quiet`: fast mode, and on a return from quiet mode the poll
cycle timer at 5 ms, with a new cycle unless one is in progress or an echo test stands (R36, R37). -/
def Segment.awake (quiet : Timer) (sg : Segment) : Segment :=
  { sg with
    mode := .fast
    quietTimer := quiet
    pollTimer := if sg.mode = .fast then sg.pollTimer else .running Config.fastPeriod
    cycle := if sg.mode = .quiet ∧ sg.cycle = none ∧ sg.echo = .none then some .fresh else sg.cycle }

/-- Between `s` and `t` a wake has come about, with the image read: the segments are awake but for what their drops say, and no
creep baseline is left (R36). -/
def State.wakes (s t : State) : Prop :=
  (∀ p, (t.col p).creep = none) ∧ ∀ g, { t.seg g with drops := (s.seg g).drops } =
    (s.seg g).awake (if s.phase.isMotion then (s.seg g).quietTimer else .running Config.quietEntryTime)

/-- Between `s` and `t` no wake has come about: the segments stay but for what their drops say, and so do the creep baselines. -/
def State.rests (s t : State) : Prop :=
  (∀ p, (t.col p).creep = (s.col p).creep) ∧ ∀ g, { t.seg g with drops := (s.seg g).drops } = s.seg g

/-- What a change to phase `new`, with the image read, makes of a state; the ports are left to the statement that uses it
(R64, R65, R85, R86, R93, R125, R34, R36, R37). -/
structure State.changesPhase (s t : State) (new : Phase) : Prop where
  kept : { t with ports := s.ports, cols := s.cols, segs := s.segs, starts := s.starts, phase := s.phase,
                  pausePending := s.pausePending, plan := s.plan, ref := s.ref, holdCount := s.holdCount,
                  outCount := s.outCount, spread := s.spread, notices := s.notices, retention := s.retention } = s
  phase : t.phase = new
  pause : t.pausePending = false
  columns : ∀ p, t.col p = (s.col p).changed s.phase new
  starts : t.starts = if new = .approach then .build fun p => if s.validPos p then (s.col p).height else none
    else if s.phase = .approach then .fill 48 none else s.starts
  plan : t.plan = if new = .idle ∨ new = .aligned then { s.plan with index := 0 } else s.plan
  reference : t.ref = s.ref.changed new
  counts : t.holdCount = (if new.isTracked then s.holdCount else 0) ∧ t.outCount = if new.isTracked then s.outCount else 0
  spread : t.spread = if new = .idle then .fill 12 none else s.spread
  notices : t.notices = s.noticesWith .phase
  written : t.retention = s.retention.triggered t.image
  polling : ∀ g, t.seg g = (s.seg g).awake (if new.isMotion then .stopped else .running Config.quietEntryTime)

/-- A segment whose echo test, where it has one, a stop aborts: the result ABORTED, the settle timers of SETTLING drops
restarted, and polling resumed with a new cycle (R43, R44). -/
def Segment.echoAborted (sg : Segment) : Segment :=
  match sg.echo.cable with
  | none => sg
  | some cable =>
    { sg with
      echo := .none
      lastEcho := some { cable := cable, cls := .aborted, counts := none, average := none, distance := .missing }
      pollTimer := .running (match sg.mode with | .fast => Config.fastPeriod | .quiet => Config.quietPeriod)
      cycle := some .fresh
      drops := sg.drops.map fun d =>
        if d.link = .settling then { d with settle := .running Config.settleTime } else d }

/-- What a first stop makes of a state (R148, with the table of its effects): the record, the phase, the columns, the
reference, the lines and the notices. -/
structure State.takesFirstStop (s t : State) (o : Offer) : Prop where
  kept : { t with cols := s.cols, segs := s.segs, starts := s.starts, phase := s.phase, ref := s.ref,
                  pausePending := s.pausePending, holdCount := s.holdCount, outCount := s.outCount, stop := s.stop,
                  notices := s.notices, lastEcho := s.lastEcho, retention := s.retention } = s
  phase : t.phase = .stopped
  record : t.stop.record = some { cause := o.cause, pos := o.pos, car := o.car, value := o.value, phase := s.phase,
                                  h := s.ref.h, legIndex := s.plan.index, port := o.port }
  further : t.stop.further = .fill 14 false
  previous : t.stop.previous = s.stop.previous
  stopOut : t.stop.stopOut = .opened
  stopIn : t.stop.stopIn = s.stop.stopIn
  demands : ∀ p, (t.col p).demand = 0 ∧ (t.col p).jog = false
  untracked : ∀ p, (t.col p).cls = .none ∧ (t.col p).mark = false ∧ (t.col p).lag = none
  counts : t.holdCount = 0 ∧ t.outCount = 0
  parked : ∀ p, (t.col p).parked = if s.phase = .retracting then false else (s.col p).parked
  columns : ∀ p, { t.col p with demand := (s.col p).demand, jog := (s.col p).jog, cls := (s.col p).cls, mark := (s.col p).mark,
                                lag := (s.col p).lag, parked := (s.col p).parked, creep := (s.col p).creep } = s.col p
  reference : { t.ref with vEff := s.ref.vEff, stepTimer := s.ref.stepTimer, dwellTimer := s.ref.dwellTimer } = s.ref
  halted : t.ref.vEff = 0 ∧ t.ref.stepTimer = .stopped ∧ t.ref.dwellTimer = .stopped
  pause : t.pausePending = false
  starts : t.starts = if s.phase = .approach then .fill 48 none else s.starts
  creep : ∀ p, (t.col p).creep = none
  lines : ∀ g, t.seg g = { ((s.seg g).awake (.running Config.quietEntryTime)).echoAborted with allstopOwed := true }
  written : t.retention = s.retention.triggered t.image
  notices : t.notices = (let told := (s.raise .phase).raiseIfAny o.cause.notice
    if ∀ g, (s.seg g).echo = .none then told else told.raise .echoDone).notices
  lastEcho : ((∀ g, (s.seg g).echo = .none) → t.lastEcho = s.lastEcho) ∧
    ∀ g, (s.seg g).echo ≠ .none → (∀ z, g < z → (s.seg z).echo = .none) → t.lastEcho = some g

/-- A STATUS frame as a drive sends it (section 12.3). -/
def statusFrame (d : DropId) (toggle : Bool) (r : Report) : List Byte :=
  withCrc ([byteOf (d.val + 1), 0x04, byteOf (toggle.toNat + 16 * r.page.val)] ++ be16 r.height ++ be16 r.load
    ++ [byteOf (bitsOf r.flags.bits)] ++ be32 r.data.toNat)

/-- A report `r` with 16-bit values comes in exchange `x` on segment `g`, for position `p`. -/
structure State.hears (s : State) (g : SegId) (x : Exchange) (r : Report) (p : Pos) : Prop where
  running : s.power = .running
  inFlight : (s.seg g).inFlight = some x
  mapped : s.mappedAt g x.drop = some p
  height : r.height < 65536
  load : r.load < 65536

/-- The report comes from an ENROLLED drive without a drive fault, whose column holds the contact height `contact`, the max speed
`maxSpeed` and the rated load `rated`. -/
structure State.follows (s : State) (g : SegId) (x : Exchange) (r : Report) (p : Pos) (contact maxSpeed rated : Nat) : Prop
    extends s.hears g x r p where
  enrolled : (s.drop g x.drop).link = .enrolled
  contact : (s.col p).contact = some contact
  maxSpeed : (s.col p).cap.maxSpeed = some maxSpeed
  rated : (s.col p).cap.rated = some rated
  noFault : r.flags.driveFault = false

/-- The reply has been taken from the line: the exchange is over (R31). -/
def State.lineFreed (s : State) (g : SegId) : State :=
  s.modSeg g fun sg => { sg with inFlight := none }

/-- What an acceptable reply makes of its drop and of the notices: the miss count, the entry to SETTLING, the pages, a refusal
and the end of paging by the roster (R6, R48, R51 to R53, R55, R59). A page counts only where the COMMAND of the exchange asked
for it (log entry 17). -/
def State.enrols (s : State) (g : SegId) (x : Exchange) (r : Report) (drop : Drop) (notices : Table NoticeState 4) : Prop :=
  let old : Drop := { s.drop g x.drop with miss := 0 }
  let high := r.data.toNat / 65536
  let low := r.data.toNat % 65536
  let becomes := fun (d : Drop) (n : Table NoticeState 4) => drop = d ∧ notices = n
  let refused : Drop := { old with link := .refused, settle := .stopped, page := 3 }
  let paged := fun l : LinkState =>
    ({ old with link := l, settle := .stopped, page := 3, cap := { old.cap with maxSpeed := some (min high 400) } } : Drop)
  (old.link = .absent ∨ old.link = .lost →
    becomes { old with link := .settling, settle := .running 500, page := 3, cap := Capability.empty } s.notices) ∧
  (old.link = .settling ∨ old.link = .ready ∨ old.link = .enrolled ∨ old.link = .refused → becomes old s.notices) ∧
  (old.link = .paging → r.page ≠ old.page ∨ x.page ≠ old.page ∨ old.page = 3 → becomes old s.notices) ∧
  (old.link = .paging → r.page = old.page → x.page = old.page →
    (old.page = 0 → becomes { old with page := 1, cap := { old.cap with serial := some r.data } } s.notices) ∧
    (old.page = 1 → low < 1000 → becomes refused (s.noticesWith .enrol)) ∧
    (old.page = 1 → 1000 ≤ low → becomes
      { old with page := 2, cap := { old.cap with stroke := some (min high 40000), rated := some low } } s.notices) ∧
    (old.page = 2 → high < 10 → becomes refused (s.noticesWith .enrol)) ∧
    (old.page = 2 → 10 ≤ high →
      (s.mappedAt g x.drop = none → becomes (paged .ready) (s.noticesWith .enrol)) ∧
      ∀ p e, s.mappedAt g x.drop = some p → s.entry p = some e →
        (s.roster.confirmed = true → e.serial.isSome = true → old.cap.serial = e.serial →
          becomes (paged .enrolled) (s.noticesWith .enrol)) ∧
        (e.serial.isSome = true → old.cap.serial ≠ e.serial →
          becomes (paged .ready) (s.noticesWith .rosterMismatch)) ∧
        (e.serial = none ∨ s.roster.confirmed = false ∧ old.cap.serial = e.serial →
          becomes (paged .ready) (s.noticesWith .enrol))))

/-- Whether the creep test finds a creep in a stored height: the segment in quiet mode, and the height beyond the creep band
around the baseline (R38). -/
def State.creeps (s : State) (g : SegId) (p : Pos) (height : Nat) : Bool :=
  match (s.seg g).mode, (s.col p).creep with
  | .quiet, some b => decide ((s.limit .creepBand : Int) < |(height : Int) - b|)
  | _, _ => false

/-- The notices that report `r` of position `p` makes of the notices `n`: RANGE at a new range flag, CREEP at a creep, and
COLUMN_FAULT at a new drive fault (R15, R38, R61). -/
def State.newsOf (s : State) (p : Pos) (r : Report) (crept : Bool) (n : Table NoticeState 4) : Table NoticeState 4 :=
  let told := fun (raised : Bool) (c : Category) (m : Table NoticeState 4) =>
    if raised then m.map (NoticeState.raised c) else m
  told (r.flags.driveFault && !(s.col p).flags.driveFault) .columnFault
    (told crept .creep (told (decide (40000 < r.height ∨ 60000 < r.load) && !(s.col p).range) .range n))

/-- What a report makes of the lines and the creep baselines, where no stop and no phase change follows: `changed` says whether the
drop's link state has changed with it. A change, a creep and MOVING are wakes (R36, R38); with none of them, the first report in
quiet mode becomes the baseline. The creep test comes before the wake of MOVING (log entry 16). -/
structure State.isTold (s u : State) (g : SegId) (x : Exchange) (r : Report) (p : Pos) (changed : Bool) : Prop where
  record : ∀ b, changed = false → s.creeps g p (min r.height 40000) = true → (s.col p).creep = some b →
    u.lastCreep = some { pos := p, baseline := b, height := min r.height 40000 }
  noRecord : changed = true ∨ s.creeps g p (min r.height 40000) = false → u.lastCreep = s.lastCreep
  wakes : changed = true ∨ s.creeps g p (min r.height 40000) = true ∨ r.flags.moving = true → (s.lineFreed g).wakes u
  rests : changed = false → s.creeps g p (min r.height 40000) = false → r.flags.moving = false →
    (u.col p).creep = (if (s.seg g).mode = .quiet ∧ (s.col p).creep = none then some (min r.height 40000)
      else (s.col p).creep) ∧
    (∀ y, y ≠ p → (u.col y).creep = (s.col y).creep) ∧
    ∀ z, { u.seg z with drops := (s.seg z).drops } = (s.lineFreed g).seg z
  drops : ∀ g' d, ¬ (g' = g ∧ d = x.drop) → u.drop g' d = s.drop g' d

/-! ### The quantities of the checks, for the statements -/

/-- The rel of each position once the report from `p` has made its rel `rel` (R120). -/
def State.relWith (s : State) (p : Pos) (rel : Int) (y : Pos) : Option Int :=
  if y = p then some rel else (s.col y).rel

/-- `n` is the spread of a car's four present rel values (R131). -/
def spreadIs (rels : Pos → Option Int) (k : CarId) (n : Nat) : Prop :=
  ∃ a b c d, rels (posOf k 0) = some a ∧ rels (posOf k 1) = some b ∧ rels (posOf k 2) = some c ∧ rels (posOf k 3) = some d ∧
    (n : Int) = max (max a b) (max c d) - min (min a b) (min c d)

/-- `n` is the difference of the two sums at a joint, whose four rel values are present (R132). -/
def stepIs (rels : Pos → Option Int) (k : JointId) (n : Nat) : Prop :=
  ∃ a b c d, rels (posOf (carBefore k) 2) = some a ∧ rels (posOf (carBefore k) 3) = some b ∧
    rels (posOf (carAfter k) 0) = some c ∧ rels (posOf (carAfter k) 1) = some d ∧ (n : Int) = |(a + b) - (c + d)|

/-- Cause `c` is offered with value `v`, and car `k` in its record, by the checks of a tracked arrival at which `p` reports a
stored height and load (R130 to R135). -/
def State.breaches (s : State) (p : Pos) (r : Report) (contact rated : Nat) (c : StopCause) (v : Int) (k : CarId) : Prop :=
  let height := min r.height 40000
  let load := min r.load 60000
  let rel := (height : Int) - contact
  let e := (s.ref.h : Int) + (s.col p).offset - rel
  match c with
  | .lag => v = e ∧ k = carOf p ∧ s.limit .lTrip < e.natAbs
  | .carSpread => ∃ n, spreadIs (s.relWith p rel) (carOf p) n ∧ s.limit .tCar < n ∧ v = n ∧ k = carOf p
  | .articulation => ∃ j n, jointOf p = some j ∧ s.linkEffective j = true ∧ stepIs (s.relWith p rel) j n ∧
      2 * s.limit .aStep < n ∧ v = n ∧ k = carBefore j
  | .overload => v = load ∧ k = carOf p ∧ rated < load
  | .loadLost => v = load ∧ k = carOf p ∧ load < s.limit .contactLoad ∧
      (s.phase = .lifting ∨ s.phase = .dwell ∨ s.ref.setDown = false ∨ s.limit .setDownBand < s.ref.h)
  | .driveLimit => v = height ∧ k = carOf p ∧
      (s.phase = .lifting ∧ r.flags.upperLimit = true ∨ s.phase = .lowering ∧ r.flags.lowerLimit = true)
  | .stopRequest | .stopByte | .stopIn | .authorityLapse | .noContact | .columnLost | .driveFault | .powerRestored => False

/-- What a tracked arrival with no breach makes of the tracking fields: the lag, the classification `kind` and the mark, the two
counts by the difference, the car's spread, and nothing of another column but its share flag and creep baseline (R120 to R124,
R131). -/
structure State.classifies (s t : State) (p : Pos) (contact height : Nat) (kind : Classification) : Prop where
  rel : (t.col p).rel = some ((height : Int) - contact)
  lag : (t.col p).lag = some ((s.ref.h : Int) + (s.col p).offset - ((height : Int) - contact))
  cls : (t.col p).cls = kind
  mark : (t.col p).mark = decide
    (s.limit .wDone < ((s.ref.h : Int) + (s.col p).offset - ((height : Int) - contact)).natAbs)
  kept : (t.col p).contact = some contact ∧ (t.col p).offset = (s.col p).offset
  holds : t.holdCount + (decide ((s.col p).cls = .lag)).toNat = s.holdCount + (decide (kind = .lag)).toNat
  outs : t.outCount + (s.col p).mark.toNat = s.outCount + (t.col p).mark.toNat
  spread : ∀ n, t.spread.get (carOf p) = some n ↔ spreadIs (s.relWith p ((height : Int) - contact)) (carOf p) n
  spreads : ∀ c, c ≠ carOf p → t.spread.get c = s.spread.get c
  others : ∀ y, y ≠ p → { t.col y with share := (s.col y).share, creep := (s.col y).creep } = s.col y

/-! ### Requests -/

/-- The command that is the execution of a request of each kind at a port. -/
def Request.command : Request → PortId → Instr
  | .readRoster => .readRoster
  | .readColumn => .readColumn
  | .readCar => .readCar
  | .readSegment => .readSegment
  | .readGroup => .readGroup
  | .readPlan => .readPlan
  | .readLimits => .readLimits
  | .readStop => .readStop
  | .noticeNext => .noticeNext
  | .noticeSet => .noticeSet
  | .watch => .watch
  | .unwatch => .unwatch
  | .claim => .claim
  | .yield => .yield
  | .stop => .stop
  | .map => .map
  | .unmap => .unmap
  | .link => .link
  | .confirm => .confirm
  | .echo => .echo
  | .approach => .approach
  | .run => .run
  | .pause => .pause
  | .setdown => .setdown
  | .retract => .retract
  | .jog => .jog
  | .rearm => .rearm
  | .planLeg => .planLeg
  | .planCut => .planCut
  | .limitSet => .limitSet

/-- The requests taken from the holder alone (section 9.6). -/
def Request.holderOnly : Request → Bool
  | .map | .unmap | .link | .confirm | .echo | .approach | .run | .pause | .setdown | .retract | .jog | .rearm | .planLeg
  | .planCut | .limitSet => true
  | .readRoster | .readColumn | .readCar | .readSegment | .readGroup | .readPlan | .readLimits | .readStop | .noticeNext
  | .noticeSet | .watch | .unwatch | .claim | .yield | .stop => false

/-- The requests that are refused BUSY until the image has been read (R186). -/
def Request.needsImage : Request → Bool
  | .approach | .run | .pause | .setdown | .retract | .jog | .rearm | .planLeg | .planCut | .limitSet => true
  | .map | .unmap | .link | .confirm | .echo | .readRoster | .readColumn | .readCar | .readSegment | .readGroup
  | .readPlan | .readLimits | .readStop | .noticeNext | .noticeSet | .watch | .unwatch | .claim | .yield | .stop => false

/-- Port `q` has a request of kind `r` due, with a tag and arguments (R165). -/
abbrev State.holds (s : State) (q : PortId) (r : Request) (tag : Byte) (args : List Byte) : Prop :=
  s.dueRequest q = some (r.code, tag, args)

/-- The body of a reply with reply code `code`: the header shows the state `t` just after the request and the latches that
port `q` held in `s` (R166). -/
def State.replyIn (s t : State) (q : PortId) (code tag : Byte) (a : Answer) : List Byte :=
  [code, tag, byteOf a.result.code, byteOf t.phase.code] ++ t.holderByte
    ++ [byteOf (t.notices.get q).attention,
        byteOf ((s.port q).overrun.toNat + 2 * (s.port q).framing.toNat + 4 * a.clamped.toNat)] ++ a.data

/-- Between `s` and `t` port `q` has queued one whole reply, cleared its latches and cleared its held request, and no other
port has changed (R165, R166). -/
def State.answers (s t : State) (q : PortId) (code tag : Byte) (a : Answer) : Prop :=
  t.ports = s.ports.set q { s.port q with
    tx := (s.port q).tx ++ stationFrame (s.replyIn t q code tag a)
    held := none
    overrun := false
    framing := false }

/-- The execution of a request of kind `r` at port `q` answers `a` and changes nothing else. -/
def State.onlyAnswers (s : State) (q : PortId) (r : Request) (tag : Byte) (a : Answer) : Prop :=
  ∃ t, exec (r.command q) s = .next t ∧ s.answers t q (r.code + 0x80) tag a ∧ { t with ports := s.ports } = s

/-- The execution of a request of kind `r` at port `q` answers `a`, and leaves a state that satisfies `P`. -/
def State.executes (s : State) (q : PortId) (r : Request) (tag : Byte) (a : Answer) (P : State → Prop) : Prop :=
  ∃ t, exec (r.command q) s = .next t ∧ s.answers t q (r.code + 0x80) tag a ∧ P t

end Sys2Proof.Machine
end

