-- ==== Sys2Proof/Certificates/Slice0/Obligations.lean ====
section
/-! DEFINITION. The statements for the provers, in the order of OBLIGATIONS.json. A request's statement says what its due
execution answers (`State.answers`, `State.executes`, `State.onlyAnswers`) and gives its frame as an equation: the state after
it, with the fields named set back, is the state before it. -/

open Sys2Proof Sys2Proof.Machine

/-! ### The step, start-up and the retained image -/

/-- A step executes the command at the front of the queue on the state with the queue's rest; with no command waiting the part
idles (the model's choice, log entry 1). -/
def Obligations.StepTakesFrontCommand : Prop :=
  ∀ s : State, (∀ c rest, s.pending = c :: rest → step s = exec c { s with pending := rest }) ∧
    (s.pending = [] → step s = .next s)

/-- Every command completes and leaves the queue alone; the start-up commands alone change the baud rate and the power
state. That a command whose event cannot occur completes by changing nothing is the model's choice (log entry 6), and so is
the queue, a field of the model's own that no command touches (log entries 1 and 32); the clauses on the baud rate and the power
are those of sections 9.1 and 11.1. -/
def Obligations.EveryCommandCompletes : Prop :=
  ∀ (c : Instr) (s : State), ∃ t, exec c s = .next t ∧ t.pending = s.pending ∧
    ((∀ l, c ≠ .powerOnReset l) → (∀ b a, c ≠ .resetRelease b a) → t.baud = s.baud) ∧
    ((∀ l, c ≠ .powerOnReset l) → (∀ b a, c ≠ .resetRelease b a) → (∀ r, c ≠ .imageReadEnd r) → t.power = s.power)

/-- A reset, from any state, leaves every block at its value after reset (R186 with the tables it names). The release of reset
fixes the baud rate by the straps and begins the reading; the straps change nothing while the part runs (R158). That a release
with no reset asserted changes nothing is the model's choice (log entry 6). -/
def Obligations.ResetValuesAndStraps : Prop :=
  (∀ (s : State) (level : Contact), ∃ t, exec (.powerOnReset level) s = .next t ∧
     t.power = .inReset ∧ t.phase = .idle ∧ t.pausePending = false ∧ t.holder = none ∧ t.lapse = .stopped ∧
     (∀ q, (t.port q).rx = [] ∧ (t.port q).assembler = .hunting ∧ (t.port q).held = none ∧ (t.port q).tx = [] ∧
       (t.port q).outboundPaused = false ∧ (t.port q).inboundHeld = false ∧ (t.port q).owed = [] ∧
       (t.port q).overrun = false ∧ (t.port q).framing = false) ∧
     (∀ g, (t.seg g).mode = .fast ∧ (t.seg g).pollTimer = .stopped ∧ (t.seg g).quietTimer = .stopped ∧
       (t.seg g).cycle = none ∧ (t.seg g).startOwed = false ∧ (t.seg g).overrun = false ∧ (t.seg g).discovery.val + 1 = 12 ∧
       (t.seg g).inFlight = none ∧ (t.seg g).allstopOwed = false ∧ (t.seg g).echo = .none ∧ (t.seg g).lastEcho = none) ∧
     (∀ g d, (t.drop g d).toggle = false ∧ (t.drop g d).link = .absent ∧ (t.drop g d).miss = 0 ∧
       (t.drop g d).settle = .stopped ∧ (t.drop g d).page = 3 ∧
       (t.drop g d).cap = { serial := none, stroke := none, rated := none, maxSpeed := none }) ∧
     (∀ p, t.col p = Column.empty ∧ t.starts.get p = none) ∧
     t.plan.count = 0 ∧ t.plan.index = 0 ∧
     (∀ i, t.plan.legs.get i = { target := 0, speed := 100, dwell := 0, continues := false }) ∧
     t.ref = { fine := 0, h := 0, vEff := 0, dir := .up, target := none, speed := none, dwell := 0, continues := false,
               setDown := false, arrived := false, stepTimer := .stopped, dwellTimer := .stopped } ∧
     t.holdCount = 0 ∧ t.outCount = 0 ∧ (∀ c, t.spread.get c = none) ∧
     t.limits.rows = [20, 4, 100, 120, 80, 32, 5, 60, 6000, 500, 40, 60, 200, 400, 10, 10, 45] ∧
     t.stop.record = none ∧ (∀ c, t.stop.further.get c = false) ∧ t.stop.previous = none ∧ t.stop.stopIn = level ∧
     t.stop.stopOut = .opened ∧
     (∀ q, (∀ c, (t.notices.get q).enabled.get c = true ∧
         ((t.notices.get q).waiting.get c = true ↔ c = Category.retain.code)) ∧
       (t.notices.get q).level.rows = [0, 0, 0, 1, 1, 2, 2, 3, 1, 2, 1, 2, 2, 3, 1, 2]) ∧
     t.lastCreep = none ∧ t.lastEcho = none ∧
     (∀ q, (∀ p, (t.watches.get q).watched.get p = false ∧ (t.watches.get q).owed.get p = false ∧
         (t.watches.get q).lastSent.get p = none) ∧
       (t.watches.get q).heightBand = 20 ∧ (t.watches.get q).loadBand = 100 ∧ (t.watches.get q).pointer = 47) ∧
     t.retention = { status := .absent, writing := none, rewrite := false }) ∧
  ∀ (s : State) (b a : Bool),
    (s.power = .inReset → exec (.resetRelease b a) s = .next { s with
      power := .reading
      baud := if b then (if a then .b921600 else .b460800) else (if a then .b230400 else .b115200) }) ∧
    (s.power ≠ .inReset → exec (.resetRelease b a) s = .next s)

/-- The state while reset is asserted satisfies every law. -/
def Obligations.ResetIsSafe : Prop :=
  State.reset.safe ∧ ∀ (s : State) (level : Contact), ∃ t, exec (.powerOnReset level) s = .next t ∧ t.safe

/-- The end of a reading that finds no VALID image: the empty roster, the defaults, no contact, IDLE kept with STOP_OUT closed,
RETAIN raised and polling begun (R189): the first cycle begins at once on every segment, and on a line as reset leaves it, its one
exchange is a PROBE of drop 1 (R24). A segment with a waiting echo test on a free line runs the test instead (R190, log
entry 30). -/
def Obligations.EmptyReadingRestoresDefaults : Prop :=
  ∀ (s : State) (r : MemoryReading), s.power = .reading → (readImage r).2 = none →
    ∃ t, exec (.imageReadEnd r) s = .next t ∧ t.power = .running ∧
      t.retention = { s.retention with status := (readImage r).1 } ∧
      (∀ p, t.entry p = none) ∧ (∀ k, t.roster.links.get k = false) ∧ t.roster.confirmed = false ∧
      t.limits.rows = [20, 4, 100, 120, 80, 32, 5, 60, 6000, 500, 40, 60, 200, 400, 10, 10, 45] ∧
      t.plan.count = 0 ∧ t.plan.index = 0 ∧
      (∀ i, t.plan.legs.get i = { target := 0, speed := 100, dwell := 0, continues := false }) ∧
      (∀ p, t.col p = { s.col p with contact := none, offset := 0 }) ∧
      t.stop = { s.stop with stopOut := .closed } ∧ t.notices = s.noticesWith .retain ∧
      (∀ g, (t.seg g).mode = .fast ∧ (t.seg g).pollTimer = .running 5 ∧ (t.seg g).quietTimer = .running 2000 ∧
        ((s.seg g).echo = .none → (t.seg g).cycle = some { reached := 0, exchanged := [], probed := false } ∧
          ((s.seg g).discovery = 11 → (∀ d, (s.drop g d).link = .absent) → (t.seg g).nextExchange = some (0, .probe))) ∧
        (∀ c, (s.seg g).echo = .waiting c → (s.seg g).inFlight = none → (s.seg g).allstopOwed = false →
          (t.seg g).echo = .running c [] ∧ (t.seg g).cycle = none) ∧
        (∀ d, (s.drop g d).link = .absent → t.drop g d = s.drop g d)) ∧
      { t with power := s.power, retention := s.retention, roster := s.roster, limits := s.limits, plan := s.plan,
               cols := s.cols, stop := s.stop, notices := s.notices, segs := s.segs } = s

/-- The end of a reading that finds a VALID image: its contents are restored; an image in IDLE closes STOP_OUT, and any other
takes the stop POWER_RESTORED, which writes the restored state (R189, R151). Polling begins with a first cycle at once on every
segment (R24), but where a waiting echo test runs instead (R190, log entry 30). What an echo test that waits at such a stop gives
way to is the model's reading (log entry 14). -/
def Obligations.ValidReadingRestoresImage : Prop :=
  ∀ (s : State) (r : MemoryReading) (m : Image), s.power = .reading → s.phase = .idle → readImage r = (.valid, some m) →
    ∃ t, exec (.imageReadEnd r) s = .next t ∧ t.power = .running ∧ t.roster = m.roster ∧ t.limits = m.limits ∧
      t.plan = m.plan ∧ (∀ p, (t.col p).contact = m.contacts.get p ∧ (t.col p).offset = m.offsets.get p) ∧
      t.retention.status = .valid ∧
      (∀ q, (s.notices.get q).enabled.get Category.retain.code = true →
        (t.notices.get q).waiting.get Category.retain.code = true) ∧
      (∀ g, (t.seg g).mode = .fast ∧ (t.seg g).pollTimer = .running 5 ∧ (t.seg g).quietTimer = .running 2000 ∧
        ((s.seg g).echo = .none ∨ m.phase ≠ .idle → (t.seg g).cycle = some { reached := 0, exchanged := [], probed := false } ∧
          ((s.seg g).discovery = 11 → (∀ d, (s.drop g d).link = .absent) → (t.seg g).nextExchange = some (0, .probe))) ∧
        (∀ c, m.phase = .idle → (s.seg g).echo = .waiting c → (s.seg g).inFlight = none → (s.seg g).allstopOwed = false →
          (t.seg g).echo = .running c [] ∧ (t.seg g).cycle = none)) ∧
      (m.phase = .idle → t.phase = .idle ∧ t.stop = { s.stop with stopOut := .closed } ∧
        t.retention = { s.retention with status := .valid }) ∧
      (m.phase ≠ .idle → t.phase = .stopped ∧ t.stop.stopOut = .opened ∧ (∀ g, (t.seg g).allstopOwed = true) ∧
        (∀ g, (t.seg g).echo = .none) ∧
        t.stop.record = some { cause := .powerRestored, pos := none, car := none, value := none, phase := m.phase,
                               h := s.ref.h, legIndex := m.plan.index, port := none } ∧
        t.retention = ({ s.retention with status := .valid } : Retention).triggered m ∧
        ∀ q, (s.notices.get q).enabled.get Category.phase.code = true →
          (t.notices.get q).waiting.get Category.phase.code = true) ∧
      { t with power := s.power, retention := s.retention, roster := s.roster, limits := s.limits, plan := s.plan,
               cols := s.cols, stop := s.stop, notices := s.notices, segs := s.segs, phase := s.phase, starts := s.starts,
               pausePending := s.pausePending, ref := s.ref, holdCount := s.holdCount, outCount := s.outCount,
               lastEcho := s.lastEcho } = s

/-- The status that a reading of the whole area decides, on the bytes themselves: EMPTY when every byte is 0xFF, and VALID exactly
when the CRC matches and every consistency test of the manual passes, else CORRUPT (R188, R199). That the other fields of an entry
whose valid flag is clear are not looked at is the model's reading (log entry 26). -/
def Obligations.ReadingDecidesStatus : Prop :=
  (readImage .noAnswer).1 = .absent ∧
  ∀ b : List Byte, b.length = 585 →
    ((∀ x ∈ b, x = 0xFF) → (readImage (.answered b)).1 = .empty) ∧
    ((∃ x ∈ b, x ≠ 0xFF) →
      (readImage (.answered b)).1 = .valid ∨ (readImage (.answered b)).1 = .corrupt) ∧
    ((readImage (.answered b)).1 = .valid ↔
      crcBytes (b.take 583) = b.drop 583 ∧ (byteAt b 582).toNat ≤ 8 ∧
      (∀ p : Pos, (byteAt b (5 * p.val)).getLsbD 7 = true →
        1 ≤ (byteAt b (5 * p.val)).toNat % 16 ∧ (byteAt b (5 * p.val)).toNat % 16 ≤ 12) ∧
      (∀ p : Pos, (byteAt b (5 * p.val)).getLsbD 7 = false → (byteAt b (5 * p.val)).getLsbD 6 = false) ∧
      (∀ p x : Pos, p ≠ x → (byteAt b (5 * p.val)).getLsbD 7 = true → (byteAt b (5 * x.val)).getLsbD 7 = true →
        (byteAt b (5 * p.val)).toNat % 64 ≠ (byteAt b (5 * x.val)).toNat % 64) ∧
      (∀ k, 11 ≤ k → k ≤ 14 → (wordAt b 240).testBit k = false) ∧
      ((wordAt b 240).testBit 15 = true → (∃ p : Pos, (byteAt b (5 * p.val)).getLsbD 7 = true) ∧
        ∀ p x : Pos, carOf p = carOf x → (byteAt b (5 * p.val)).getLsbD 7 = true →
          (byteAt b (5 * x.val)).getLsbD 7 = true ∧ (byteAt b (5 * x.val)).getLsbD 6 = true) ∧
      (∀ i : Fin 17, (limitRanges.get i).1 ≤ wordAt b (242 + 2 * i.val) ∧
        wordAt b (242 + 2 * i.val) ≤ (limitRanges.get i).2) ∧
      wordAt b 244 ≤ wordAt b 242 ∧ wordAt b 242 < wordAt b 246 ∧
      (byteAt b 388).toNat ≤ 16 ∧ (byteAt b 389).toNat ≤ (byteAt b 388).toNat ∧
      (∀ i : Fin 16, wordAt b (276 + 7 * i.val) ≤ 40000 ∧ 10 ≤ wordAt b (278 + 7 * i.val) ∧
        wordAt b (278 + 7 * i.val) ≤ 400 ∧ wordAt b (280 + 7 * i.val) ≤ 600 ∧ (byteAt b (282 + 7 * i.val)).toNat ≤ 1) ∧
      (∀ p : Pos, wordAt b (390 + 2 * p.val) ≤ 40000 ∨ wordAt b (390 + 2 * p.val) = 65535) ∧
      (∀ p : Pos, -400 ≤ int16 (byteAt b (486 + 2 * p.val)) (byteAt b (487 + 2 * p.val)) ∧
        int16 (byteAt b (486 + 2 * p.val)) (byteAt b (487 + 2 * p.val)) ≤ 400) ∧
      (∀ p : Pos, (byteAt b (5 * p.val)).getLsbD 7 = false ∨ byteAt b 582 = 0 →
        wordAt b (390 + 2 * p.val) = 65535 ∧ wordAt b (486 + 2 * p.val) = 0))

/-- Every consistent image is read back whole from the bytes that a write sends (R199, R188). -/
def Obligations.ImageRoundTrip : Prop :=
  ∀ m : Image, m.consistent = true →
    (imageBytes m).length = 585 ∧ readImage (.answered (imageBytes m)) = (.valid, some m)

/-- Every safe state writes an image that passes the consistency tests, with the phase at stop in place of STOPPED (R188,
R191). A write begun in APPROACH records no contact height, so that a loss of power there restores none (R88, R191; log entry 39), and
a write begun in any other phase those of the columns. -/
def Obligations.SafeStateWritesConsistentImage : Prop :=
  ∀ s : State, s.safe → s.image.consistent = true ∧ s.image.phase ≠ .stopped ∧
    (∀ r, s.phase = .stopped → s.stop.record = some r → s.image.phase = r.phase) ∧
    (s.phase ≠ .stopped → s.image.phase = s.phase) ∧
    (s.phase = .approach → ∀ p, s.image.contacts.get p = none) ∧
    (s.phase ≠ .approach → ∀ p, s.image.contacts.get p = (s.col p).contact)

/-- The outcome of a write: VALID on success and FAILED otherwise, RETAIN at every failure and at a success after another
status, and a pending rewrite begins at once (R192, R193). -/
def Obligations.WriteEndOutcome : Prop :=
  ∀ (s : State) (o : WriteOutcome) (sent : Image), s.retention.writing = some sent →
    ∃ t, exec (.writeEnd o) s = .next t ∧
      t.retention.status = (if o = .completed (imageBytes sent) then .valid else .failed) ∧
      t.retention.writing = (if s.retention.rewrite then some s.image else none) ∧ t.retention.rewrite = false ∧
      t.notices = (if o = .completed (imageBytes sent) ∧ s.retention.status = .valid then s.notices
        else s.noticesWith .retain) ∧
      { t with retention := s.retention, notices := s.notices } = s

/-! ### Station ports -/

/-- A byte at a station port. Every byte but an unfaulted HOLD, GO or STOP enters the receive FIFO; a full FIFO discards it and
sets the overrun latch, and a fill that reaches 48 owes a HOLD. The out-of-band bytes act at their arrival, are never stored and
change no byte of the port's FIFOs; while reset is asserted the ports do not run (R159, R160, R163, R186). That nothing at all
follows from a byte while reset is asserted is the model's reading (log entry 35). -/
def Obligations.StationByteArrives : Prop :=
  (∀ (s : State) (q : PortId) (v : Byte) (f : Bool), s.power ≠ .inReset →
     (f = true ∨ (v ≠ 0xA7 ∧ v ≠ 0xA8 ∧ v ≠ 0xA9)) →
     exec (.stationByteReceived q v f) s = .next { s with
       ports := s.ports.set q
         (if 64 ≤ (s.port q).rx.length then { s.port q with overrun := true }
         else if 47 ≤ (s.port q).rx.length ∧ (s.port q).inboundHeld = false then
           { s.port q with rx := (s.port q).rx ++ [⟨v, f⟩], inboundHeld := true, owed := (s.port q).owed ++ [.hold] }
         else { s.port q with rx := (s.port q).rx ++ [⟨v, f⟩] }) }) ∧
  ∀ (s : State) (q : PortId),
    exec (.stationByteReceived q 0xA7 false) s = exec (.hold q) s ∧
    exec (.stationByteReceived q 0xA8 false) s = exec (.go q) s ∧
    exec (.stationByteReceived q 0xA9 false) s = exec (.stopByte q) s ∧
    (s.power ≠ .inReset →
      exec (.hold q) s = .next { s with ports := s.ports.set q { s.port q with outboundPaused := true } } ∧
      exec (.go q) s = .next { s with ports := s.ports.set q { s.port q with outboundPaused := false } }) ∧
    (s.power = .inReset → exec (.hold q) s = .next s ∧ exec (.go q) s = .next s ∧ exec (.stopByte q) s = .next s)

/-- The frame assembler on the next byte of the receive FIFO, case by case: the assembler `A`, the framing latch `F` and the held
request `H` after it, the GO owed when the fill falls to 16, and the lapse timer that a valid frame from the holder restarts.
While the port has a held request the assembler takes no byte (R160 to R163, R172). That a take with a held request changes
nothing is the model's choice (log entry 6). -/
def Obligations.AssemblerTakesByte : Prop :=
  (∀ (s : State) (q : PortId) (body : List Byte), (s.port q).held = some body → exec (.frameAssemblerTake q) s = .next s) ∧
  ∀ (s : State) (q : PortId) (b : RxByte) (rest : List RxByte), s.power ≠ .inReset → (s.port q).held = none →
    (s.port q).rx = b :: rest →
    ∃ (t : State) (A : Assembler) (F : Bool) (H : Option (List Byte)),
      exec (.frameAssemblerTake q) s = .next t ∧
      t.ports = s.ports.set q
        (if rest.length ≤ 16 ∧ (s.port q).inboundHeld = true then
          { s.port q with rx := rest, assembler := A, framing := F, held := H, inboundHeld := false,
                          owed := (s.port q).owed ++ [.go] }
        else { s.port q with rx := rest, assembler := A, framing := F, held := H }) ∧
      t.lapse = (if H.isSome = true ∧ s.holder = some q then .running 2000 else s.lapse) ∧
      { t with ports := s.ports, lapse := s.lapse } = s ∧
      (b.faulted = true → A = .hunting ∧ F = true ∧ H = none) ∧
      (b.faulted = false →
        match (s.port q).assembler with
        | .hunting =>
          if b.value = 0xA5 then A = .inFrame false [] ∧ F = (s.port q).framing ∧ H = none
          else A = .hunting ∧ F = true ∧ H = none
        | .inFrame escaped values =>
          if b.value = 0xA5 then A = .inFrame false [] ∧ F = true ∧ H = none
          else if escaped = false ∧ b.value = 0xA6 then
            A = .inFrame true values ∧ F = (s.port q).framing ∧ H = none
          else if escaped = true ∧ ¬ (0x85 ≤ b.value.toNat ∧ b.value.toNat ≤ 0x89) then
            A = .hunting ∧ F = true ∧ H = none
          else
            let all := values ++ [if escaped then b.value ^^^ 0x20 else b.value]
            let n := (all.getD 0 0).toNat
            if n < 2 ∨ 40 < n then A = .hunting ∧ F = true ∧ H = none
            else if all.length < n + 3 then A = .inFrame false all ∧ F = (s.port q).framing ∧ H = none
            else if all.drop (n + 1) = crcBytes (all.take (n + 1)) then
              A = .hunting ∧ F = (s.port q).framing ∧ H = some ((all.take (n + 1)).drop 1)
            else A = .hunting ∧ F = true ∧ H = none)

/-- The framing round trip: a frame composed by the port's own framing, with every reserved value escaped, is read back whole by
the assembler as the held request, with no latch set and the bytes behind it left in the FIFO (R161, R162, R164). -/
def Obligations.AssemblerReadsFrame : Prop :=
  ∀ (s : State) (q : PortId) (body : List Byte) (more : List RxByte), s.power ≠ .inReset → (s.port q).held = none →
    (s.port q).assembler = .hunting → 2 ≤ body.length → body.length ≤ 40 →
    (s.port q).rx = (stationFrame body).map (fun v => ⟨v, false⟩) ++ more →
    ∃ t, execAll (List.replicate (stationFrame body).length (.frameAssemblerTake q)) s = .next t ∧
      (t.port q).held = some body ∧ (t.port q).rx = more ∧ (t.port q).assembler = .hunting ∧
      (t.port q).framing = (s.port q).framing ∧ (t.port q).overrun = (s.port q).overrun ∧ (t.port q).tx = (s.port q).tx ∧
      t.lapse = (if s.holder = some q then .running 2000 else s.lapse) ∧
      { t with ports := s.ports, lapse := s.lapse } = s ∧ ∀ x, x ≠ q → t.port x = s.port x

/-- At the end of a character the transmitter takes an owed HOLD or GO first, even while outbound is paused, in the order they
became owed; then, with outbound not paused, the next byte of the transmit FIFO (R163, R164). That the character shows in the
port's field line is the model's choice (log entry 9). -/
def Obligations.TransmitterOrder : Prop :=
  ∀ (s : State) (q : PortId), s.power ≠ .inReset →
    (∀ o rest, (s.port q).owed = o :: rest → exec (.transmitCharacter q) s = .next { s with
      ports := s.ports.set q
        { s.port q with owed := rest, line := some (match o with | .hold => 0xA7 | .go => 0xA8) } }) ∧
    ((s.port q).owed = [] → (s.port q).outboundPaused = true ∨ (s.port q).tx = [] →
      exec (.transmitCharacter q) s = .next { s with ports := s.ports.set q { s.port q with line := none } }) ∧
    (∀ b rest, (s.port q).owed = [] → (s.port q).outboundPaused = false → (s.port q).tx = b :: rest →
      exec (.transmitCharacter q) s = .next { s with ports := s.ports.set q { s.port q with tx := rest, line := some b } })

/-- With no held request and 121 bytes free, the first owed position after the pointer, counting upward and wrapping, is served:
its frame is queued whole, its values become the last-sent record, it leaves the owed set and the pointer moves to it (R168,
R184). Otherwise no update is queued. That an update that is not due changes nothing is the model's choice (log entry 6). -/
def Obligations.UpdateFrameServed : Prop :=
  ∀ (s : State) (q : PortId), s.power ≠ .inReset →
    (∀ k : Fin 48, (s.port q).held = none → (s.port q).tx.length ≤ 7 →
      (∀ j : Fin 48, j < k → (s.watches.get q).owed.get ((s.watches.get q).pointer + 1 + j) = false) →
      (s.watches.get q).owed.get ((s.watches.get q).pointer + 1 + k) = true →
      ∃ t, exec (.updateFrame q) s = .next t ∧
        (let p := (s.watches.get q).pointer + 1 + k
        let c := s.col p
        let body := [0x60, byteOf p.val, byteOf (c.link.code + 8 * c.cls.code + 32 * c.mark.toNat)] ++ opt16 c.height
          ++ opt16 c.load
        t.ports = s.ports.set q { s.port q with tx := (s.port q).tx ++ stationFrame body } ∧
        t.watches = s.watches.set q { s.watches.get q with
          lastSent := (s.watches.get q).lastSent.set p
            (some { height := c.height, load := c.load, link := c.link, cls := c.cls, mark := c.mark })
          owed := (s.watches.get q).owed.set p false
          pointer := p } ∧
        { t with ports := s.ports, watches := s.watches } = s)) ∧
    ((s.port q).held.isSome = true ∨ 7 < (s.port q).tx.length ∨ (∀ p, (s.watches.get q).owed.get p = false) →
      exec (.updateFrame q) s = .next s)

/-- A held request executes only with 86 bytes free: until then, and where no request of the kind is held, nothing happens. A code
that names no request is answered UNKNOWN with no data and no change: the reply code is the code plus 0x80, and 0xFF for a code
from 0x80 (R165, R166). That the row of a request that is not held, or not due, changes nothing is the model's choice (log entry
6), and a row is the execution of the held request by the model's reading (log entry 7). -/
def Obligations.WaitingAndUnknownRequests : Prop :=
  (∀ (s : State) (q : PortId) (r : Request), (∀ tag args, ¬ s.holds q r tag args) → exec (r.command q) s = .next s) ∧
  (∀ (s : State) (q : PortId), s.power = .inReset ∨ (s.port q).held = none ∨ 42 < (s.port q).tx.length →
    s.dueRequest q = none) ∧
  (∀ (s : State) (q : PortId) (code tag : Byte) (args : List Byte), s.power ≠ .inReset →
    (s.port q).held = some (code :: tag :: args) → (s.port q).tx.length ≤ 42 → s.dueRequest q = some (code, tag, args)) ∧
  ∀ (s : State) (q : PortId) (code tag : Byte) (args : List Byte), s.dueRequest q = some (code, tag, args) →
    (∀ r : Request, r.code ≠ code) →
    ∃ t, exec (.unknown q) s = .next t ∧
      s.answers t q (if code.toNat < 0x80 then code + 0x80 else 0xFF) tag (.plain .unknown) ∧
      { t with ports := s.ports } = s

/-- A holder-only request from a port that does not hold command is answered NOT_HOLDER before any other check; until the image has
been read, the group requests, REARM and the plan and limit edits from the holder are answered BUSY; neither changes anything
(R4, R39, R66, R83, R100, R102, R142, R153, R186). -/
def Obligations.NotHolderThenBusy : Prop :=
  ∀ (s : State) (q : PortId) (r : Request) (tag : Byte) (args : List Byte), s.holds q r tag args →
    (s.holder ≠ some q → r ∈ [.map, .unmap, .link, .confirm, .echo, .approach, .run, .pause, .setdown, .retract, .jog,
        .rearm, .planLeg, .planCut, .limitSet] → s.onlyAnswers q r tag (.plain .notHolder)) ∧
    (s.holder = some q → s.power ≠ .running → r ∈ [.approach, .run, .pause, .setdown, .retract, .jog, .rearm, .planLeg,
        .planCut, .limitSet] → s.onlyAnswers q r tag (.plain .busy))

/-- An open request with an argument list of the wrong length or an argument out of range is answered BAD_ARG and changes
nothing (R1, R167, R195, R196). -/
def Obligations.OpenRequestBadArguments : Prop :=
  ∀ (s : State) (q : PortId) (r : Request) (tag : Byte) (args : List Byte), s.holds q r tag args →
    (match r with
      | .readRoster | .readColumn => ¬ ∃ p : Pos, args = [byteOf p.val]
      | .readCar => ¬ ∃ (c : CarId) (v : Fin 2), args = [byteOf (c.val + 1), byteOf v.val]
      | .readSegment => ¬ ∃ (g : SegId) (v : Fin 13), args = [byteOf (g.val + 1), byteOf v.val]
      | .readPlan => ¬ ∃ i : Fin 16, args = [byteOf i.val]
      | .noticeSet => ¬ ∃ (c : Fin 16) (e : Byte) (l : Fin 4), args = [byteOf c.val, e, byteOf l.val]
      | .watch => ¬ ∃ (set : List Byte) (h l : Nat), set.length = 6 ∧ 1 ≤ h ∧ h ≤ 2000 ∧ 1 ≤ l ∧ l ≤ 60000 ∧
          args = set ++ be16 h ++ be16 l
      | .readGroup | .readLimits | .readStop | .noticeNext | .unwatch => args ≠ []
      | _ => False) →
    s.onlyAnswers q r tag (.plain .badArg)

/-! ### Reads -/

/-- The reads of the roster, the columns, the cars, the segments, the plan and the limits: each answers DONE with the bytes of its
layout, and changes nothing (R19 to R22, R45, R103, R144, section 12.2). The filler bytes of an absent echo result and of an
absent serial are the model's reading (log entry 25). -/
def Obligations.ReadsOfTables : Prop :=
  ∀ (s : State) (q : PortId) (tag : Byte),
    (∀ p : Pos, s.holds q .readRoster tag [byteOf p.val] → s.onlyAnswers q .readRoster tag (.doneWith
      ([entryByte (s.entry p)] ++ serialBytes ((s.entry p).bind fun e => e.serial)
        ++ [byteOf s.roster.confirmed.toNat, byteOf s.validPositions.length] ++ be16 (bitsOf s.roster.links.rows)
        ++ be16 (bitsOf ((List.finRange 11).map s.linkEffective))
        ++ be16 (bitsOf ((List.finRange 12).map s.carPresent))))) ∧
    (∀ p : Pos, s.holds q .readColumn tag [byteOf p.val] → s.onlyAnswers q .readColumn tag (.doneWith
      (let c := s.col p
      [byteOf (c.link.code + 128 * c.cap.serial.isSome.toNat)] ++ serialBytes c.cap.serial ++ opt16 c.cap.stroke
        ++ opt16 c.cap.rated ++ opt16 c.cap.maxSpeed ++ opt16 c.height ++ opt16 c.load
        ++ [byteOf (bitsOf [c.range, c.flags.moving, c.flags.upperLimit, c.flags.lowerLimit, c.flags.driveFault])]
        ++ opt16 c.contact ++ optSigned24 c.rel ++ signed16 c.offset ++ optSigned24 c.lag
        ++ [byteOf (c.cls.code + 4 * c.mark.toNat)] ++ signed16 c.demand
        ++ [byteOf (bitsOf [c.jog, c.parked, c.share, c.wasLost])] ++ opt16 c.creep ++ [entryByte (s.entry p)]))) ∧
    (∀ k : CarId, s.holds q .readCar tag [byteOf (k.val + 1), 0] → s.onlyAnswers q .readCar tag (.doneWith
      (let lost := fun i => (s.col (posOf k i)).wasLost
      let share := fun i => (s.col (posOf k i)).share
      [byteOf (bitsOf [s.carPresent k, (jointBefore k).any s.roster.links.get, (jointBefore k).any s.linkEffective,
          (jointAfter k).any s.roster.links.get, (jointAfter k).any s.linkEffective]),
        byteOf (bitsOf [lost 0, lost 1, lost 2, lost 3, share 0, share 1, share 2, share 3])]
        ++ [s.pointByte (posOf k 0), s.pointByte (posOf k 1), s.pointByte (posOf k 2), s.pointByte (posOf k 3)]
        ++ opt24 (s.spread.get k) ++ opt24 (s.totalLoad k) ++ opt24 (s.endBalance (jointBefore k))
        ++ opt24 (s.endBalance (jointAfter k))))) ∧
    (∀ k : CarId, s.holds q .readCar tag [byteOf (k.val + 1), 1] → s.onlyAnswers q .readCar tag (.doneWith
      (let point := fun i => opt16 (s.col (posOf k i)).height ++ opt16 (s.col (posOf k i)).load
        ++ optSigned24 (s.col (posOf k i)).rel
      point 0 ++ point 1 ++ point 2 ++ point 3))) ∧
    (∀ g : SegId, s.holds q .readSegment tag [byteOf (g.val + 1), 0] → s.onlyAnswers q .readSegment tag (.doneWith
      (let sg := s.seg g
      [byteOf (bitsOf [decide (sg.mode = .quiet), decide (sg.quietTimer ≠ .stopped), sg.overrun, sg.allstopOwed]
          + 16 * sg.echo.code), byteOf (sg.discovery.val + 1)] ++ echoResultBytes sg.lastEcho
        ++ sg.drops.rows.map fun d => byteOf (d.link.code + 8 * d.miss + 32 * d.page.val)))) ∧
    (∀ (g : SegId) (d : DropId), s.holds q .readSegment tag [byteOf (g.val + 1), byteOf (d.val + 1)] →
      s.onlyAnswers q .readSegment tag (.doneWith
      (let x := s.drop g d
      [byteOf (x.link.code + 8 * x.miss + 32 * x.page.val)] ++ opt8 ((s.mappedAt g d).map fun p => p.val)
        ++ [byteOf x.cap.serial.isSome.toNat] ++ serialBytes x.cap.serial ++ opt16 x.cap.stroke ++ opt16 x.cap.rated
        ++ opt16 x.cap.maxSpeed))) ∧
    (∀ i : Fin 16, s.holds q .readPlan tag [byteOf i.val] → s.onlyAnswers q .readPlan tag (.doneWith
      (let l := s.plan.legs.get i
      be16 l.target ++ be16 l.speed ++ be16 l.dwell ++ [byteOf (bitsOf [l.continues, decide (i.val < s.plan.count)]),
        byteOf s.plan.count, byteOf s.plan.index]))) ∧
    (s.holds q .readLimits tag [] → s.onlyAnswers q .readLimits tag (.doneWith
      (let two := fun i => be16 (s.limits.get i)
      let one := fun i => [byteOf (s.limits.get i)]
      two 0 ++ two 1 ++ two 2 ++ two 3 ++ two 4 ++ one 5 ++ one 6 ++ two 7 ++ two 8 ++ two 9 ++ two 10 ++ two 11 ++ two 12
        ++ two 13 ++ two 14 ++ one 15 ++ one 16)))

/-- READ_STOP and READ_GROUP: each answers DONE with the bytes of its layout and changes nothing that the manual names. A stop block
is that of a present record, with its further causes, and 13 bytes of 0xFF for an absent one. In DWELL
the dwell time left is a free value of the model between 1 and the whole dwell, so any such value is stated (log entry 2)
(R84, R157, section 12.2). -/
def Obligations.ReadsOfRecords : Prop :=
  ∀ (s : State) (q : PortId) (tag : Byte),
    (s.holds q .readStop tag [] → s.onlyAnswers q .readStop tag (.doneWith
      ([byteOf (bitsOf [s.stop.record.isSome, s.stop.previous.isSome, contactOpen s.stop.stopIn, contactOpen s.stop.stopOut])]
        ++ s.stop.recordBlock ++ s.stop.previousBlock))) ∧
    (∀ r, s.stop.record = some r → s.stop.recordBlock = stopBlock r s.stop.further) ∧
    (s.stop.record = none → s.stop.recordBlock = List.replicate 13 0xFF) ∧
    (∀ r f, s.stop.previous = some (r, f) → s.stop.previousBlock = stopBlock r f) ∧
    (s.stop.previous = none → s.stop.previousBlock = List.replicate 13 0xFF) ∧
    (∀ (r : StopRecord) (f : Table Bool 14), stopBlock r f =
      [byteOf r.cause.code.val] ++ opt8 (r.pos.map fun p => p.val) ++ opt8 (r.car.map fun c => c.val + 1)
        ++ optSigned24 r.value ++ [byteOf r.phase.code] ++ be16 r.h ++ [byteOf r.legIndex]
        ++ opt8 (r.port.map fun x => x.val) ++ be16 (bitsOf f.rows)) ∧
    (s.holds q .readGroup tag [] →
      ∃ left : Option Nat, (s.phase ≠ .dwell → left = none) ∧
        (s.phase = .dwell → ∃ k, left = some k ∧ 1 ≤ k ∧ k ≤ max 1 (10 * s.ref.dwell)) ∧
        s.executes q .readGroup tag (.doneWith
          ([byteOf s.phase.code, byteOf (bitsOf [s.pausePending, s.ref.setDown, decide (s.ref.dir = .down), s.ref.arrived,
              s.segs.rows.any fun sg => decide (sg.echo ≠ .none), contactOpen s.stop.stopIn, contactOpen s.stop.stopOut,
              s.roster.confirmed]), byteOf s.plan.index, byteOf s.plan.count]
            ++ opt16 s.ref.target ++ opt16 s.ref.speed ++ be32 s.ref.fine ++ be16 s.ref.h ++ be16 s.ref.vEff ++ opt16 left
            ++ [byteOf s.holdCount, byteOf s.outCount,
              byteOf (s.validPositions.filter fun p => decide ((s.col p).link = .enrolled)).length]))
          fun t => { t with ports := s.ports, fresh := s.fresh } = s ∧ (s.phase ≠ .dwell → t.fresh = s.fresh))

/-! ### Notices and watches -/

/-- A raise makes the category pending at every station that has it enabled, and changes nothing else (R175). -/
def Obligations.RaiseReachesEnabledStations : Prop :=
  ∀ (s : State) (c : Category), { s.raise c with notices := s.notices } = s ∧
    ∀ q, ((s.raise c).notices.get q).enabled = (s.notices.get q).enabled ∧
      ((s.raise c).notices.get q).level = (s.notices.get q).level ∧
      ∀ k, ((s.raise c).notices.get q).waiting.get k = true ↔
        (s.notices.get q).waiting.get k = true ∨ (k = c.code ∧ (s.notices.get q).enabled.get k = true)

/-- NOTICE_NEXT takes the pending category with the smallest level, and among equals the lowest number, removes it and answers
with it, its level and its content; an empty set gives 0xFF alone (R178). -/
def Obligations.NoticeNextChooses : Prop :=
  ∀ (s : State) (q : PortId) (tag : Byte), s.holds q .noticeNext tag [] →
    ((∀ k, (s.notices.get q).waiting.get k = false) → s.onlyAnswers q .noticeNext tag (.doneWith [0xFF])) ∧
    ∀ c : Category, (s.notices.get q).waiting.get c.code = true →
      (∀ k, (s.notices.get q).waiting.get k = true → (s.notices.get q).level.get c.code < (s.notices.get q).level.get k ∨
        (s.notices.get q).level.get c.code = (s.notices.get q).level.get k ∧ c.code ≤ k) →
      s.executes q .noticeNext tag
        (.doneWith ([byteOf c.code.val, byteOf ((s.notices.get q).level.get c.code).val] ++ s.noticeContent c))
        fun t => t.notices = s.notices.set q { s.notices.get q with
            waiting := (s.notices.get q).waiting.set c.code false } ∧
          { t with ports := s.ports, notices := s.notices } = s

/-- The content of each category, read from the state as it stands (R179, section 12.2). That a flag in a byte of its own, as in
PHASE, LEG_DONE and PLAN_CLAMPED, is sent as 1 when set is the model's choice (log entry 41). The filler bytes of an absent echo
result are its reading (log entry 25). -/
def Obligations.NoticeContents : Prop :=
  ∀ s : State,
    (let set := fun test : Pos → Bool => (List.finRange 6).map fun j : Fin 6 => byteOf (bitsOf ((List.finRange 8).map
        fun i : Fin 8 => test ⟨8 * j.val + i.val, by omega⟩))
    let block := byteOf (bitsOf [s.stop.record.isNone && s.stop.previous.isSome,
        s.stop.record.isNone && s.stop.previous.isNone, contactOpen s.stop.stopIn, contactOpen s.stop.stopOut])
      :: (if s.stop.record.isSome then s.stop.recordBlock else s.stop.previousBlock)
    s.noticeContent .trip = block ∧ s.noticeContent .stop = block ∧
    s.noticeContent .columnLost = set (fun p => (s.col p).wasLost) ++ set (fun p => decide ((s.col p).link = .lost)) ∧
    s.noticeContent .columnFault = set (fun p => (s.col p).flags.driveFault) ∧
    s.noticeContent .loadShare = set (fun p => (s.col p).share) ∧
    s.noticeContent .range = set (fun p => (s.col p).range) ∧
    s.noticeContent .rosterMismatch = set (fun p => (s.entry p).any fun e =>
      decide ((s.drop e.seg e.drop).link = .ready) && e.serial.isSome
        && decide ((s.drop e.seg e.drop).cap.serial ≠ e.serial)) ∧
    s.noticeContent .authority = opt8 (s.holder.map fun q => q.val) ∧
    s.noticeContent .phase =
      [byteOf s.phase.code, byteOf s.pausePending.toNat, byteOf s.plan.index, byteOf s.plan.count] ∧
    s.noticeContent .legDone =
      [byteOf s.phase.code, byteOf s.plan.index, byteOf s.plan.count, byteOf s.ref.setDown.toNat] ∧
    s.noticeContent .planClamped =
      [byteOf s.plan.index, byteOf s.ref.setDown.toNat] ++ opt16 s.ref.target ++ opt16 s.ref.speed ∧
    s.noticeContent .retain =
      [byteOf s.retention.status.code, byteOf (bitsOf [s.retention.writing.isSome, s.retention.rewrite])] ∧
    s.noticeContent .enrol = ((List.finRange 4).map fun g =>
      be24 (bitsOf ((List.finRange 12).map fun d => decide ((s.drop g d).link = .ready))
        + 4096 * bitsOf ((List.finRange 12).map fun d => decide ((s.drop g d).link = .refused)))).flatten ∧
    s.noticeContent .cycleOverrun = [byteOf (bitsOf ((List.finRange 4).map fun g => (s.seg g).overrun)
      + 16 * bitsOf ((List.finRange 4).map fun g => decide ((s.seg g).mode = .quiet)))] ∧
    s.noticeContent .echoDone = opt8 (s.lastEcho.map fun g => g.val + 1)
      ++ echoResultBytes (s.lastEcho.bind fun g => (s.seg g).lastEcho) ∧
    (s.lastCreep = none → s.noticeContent .creep = [0xFF, 0xFF, 0xFF, 0xFF, 0xFF]) ∧
    ∀ k, s.lastCreep = some k → s.noticeContent .creep = [byteOf k.pos.val] ++ be16 k.baseline ++ be16 k.height)

/-- NOTICE_SET in range: the level is set, the category is enabled or disabled, a disabled category leaves the pending set and an
enabled one is not made pending; no other category and no other station changes. A category above 15 or a level above 3 gives
BAD_ARG (R176). -/
def Obligations.NoticeSetEffect : Prop :=
  (∀ (s : State) (q : PortId) (tag c e l : Byte), 15 < c.toNat ∨ 3 < l.toNat → s.holds q .noticeSet tag [c, e, l] →
    s.onlyAnswers q .noticeSet tag (.plain .badArg)) ∧
  ∀ (s : State) (q : PortId) (tag e : Byte) (c : Fin 16) (l : Fin 4),
    s.holds q .noticeSet tag [byteOf c.val, e, byteOf l.val] →
    s.executes q .noticeSet tag (.plain .done) fun t =>
      t.notices = s.notices.set q
        { enabled := (s.notices.get q).enabled.set c (decide (e ≠ 0))
          level := (s.notices.get q).level.set c l
          waiting := if e = 0 then (s.notices.get q).waiting.set c false else (s.notices.get q).waiting } ∧
      { t with ports := s.ports, notices := s.notices } = s

/-- WATCH replaces the station's watch, every named position that holds a height is owed; UNWATCH empties it and keeps the
deadbands (R181, R182). That a position which was watched before loses its last-sent record too, and is owed, is the model's
choice (log entry 19). -/
def Obligations.WatchAndUnwatch : Prop :=
  ∀ (s : State) (q : PortId) (tag : Byte),
    (∀ (set : Table Bool 48) (h l : Nat), 1 ≤ h → h ≤ 2000 → 1 ≤ l → l ≤ 60000 →
      s.holds q .watch tag (positionSet set ++ be16 h ++ be16 l) →
      s.executes q .watch tag (.plain .done) fun t =>
        (∃ w, t.watches = s.watches.set q w ∧ w.watched = set ∧ w.heightBand = h ∧ w.loadBand = l ∧ w.pointer = 47 ∧
          ∀ p, w.lastSent.get p = none ∧ w.owed.get p = (set.get p && (s.col p).height.isSome)) ∧
        { t with ports := s.ports, watches := s.watches } = s) ∧
    (s.holds q .unwatch tag [] →
      s.executes q .unwatch tag (.plain .done) fun t =>
        (∃ w, t.watches = s.watches.set q w ∧ w.heightBand = (s.watches.get q).heightBand ∧
          w.loadBand = (s.watches.get q).loadBand ∧ (∀ p, w.watched.get p = false) ∧
          ((∃ p, (s.watches.get q).watched.get p = true) → w.pointer = 47 ∧
            ∀ p, w.lastSent.get p = none ∧ w.owed.get p = false) ∧
          ((∀ p, (s.watches.get q).watched.get p = false) → w = s.watches.get q)) ∧
        { t with ports := s.ports, watches := s.watches } = s)

/-- The watches' test of a position at one station: it becomes owed when the position is watched and the last-sent record is
absent or differs by one of the five conditions, and nothing else changes (R183). -/
def Obligations.WatchTestOwes : Prop :=
  ∀ (s : State) (p : Pos), { s.testWatches p with watches := s.watches } = s ∧
    ∀ q, (s.testWatches p).watches.get q = { s.watches.get q with owed := ((s.testWatches p).watches.get q).owed } ∧
      (∀ x, x ≠ p → ((s.testWatches p).watches.get q).owed.get x = (s.watches.get q).owed.get x) ∧
      (((s.testWatches p).watches.get q).owed.get p = true ↔ (s.watches.get q).owed.get p = true ∨
        (s.watches.get q).watched.get p = true ∧
          match (s.watches.get q).lastSent.get p with
          | none => True
          | some k =>
            (s.col p).height.isSome ≠ k.height.isSome ∨
            (∃ a b, (s.col p).height = some a ∧ k.height = some b ∧
              ((s.watches.get q).heightBand : Int) ≤ |(a : Int) - b|) ∨
            (s.col p).load.isSome ≠ k.load.isSome ∨
            (∃ a b, (s.col p).load = some a ∧ k.load = some b ∧ ((s.watches.get q).loadBand : Int) ≤ |(a : Int) - b|) ∨
            (s.col p).link ≠ k.link ∨ (s.col p).cls ≠ k.cls ∨ (s.col p).mark ≠ k.mark)

/-! ### Command authority -/

/-- CLAIM: granted when command is free, DONE with no change to the holder, HELD to another port, BAD_ARG with bytes after its tag;
CLAIMs due at one moment are taken lowest port first (R167, R170). That CLAIMs waiting together in the ports count as due at one
moment, so that a port's CLAIM first executes those of the lower ports, is the model's choice (log entry 20), and so is BAD_ARG
before the holder is looked at (log entry 22). -/
def Obligations.ClaimEffect : Prop :=
  (∀ (s : State) (q : PortId) (tag : Byte) (args : List Byte), s.holds q .claim tag args → args ≠ [] →
    (∀ x < q, ∀ tg ar, ¬ s.holds x .claim tg ar) → s.onlyAnswers q .claim tag (.plain .badArg)) ∧
  ∀ (s : State) (q : PortId) (tag : Byte), s.holds q .claim tag [] →
    ((∀ x < q, ∀ tg ar, ¬ s.holds x .claim tg ar) →
      (s.holder = none → s.executes q .claim tag (.plain .done) fun t =>
        t.holder = some q ∧ t.lapse = .running 2000 ∧ t.notices = s.noticesWith .authority ∧
        { t with ports := s.ports, holder := s.holder, lapse := s.lapse, notices := s.notices } = s) ∧
      (s.holder = some q → s.onlyAnswers q .claim tag (.plain .done)) ∧
      (∀ h, h ≠ q → s.holder = some h → s.onlyAnswers q .claim tag (.plain .held))) ∧
    ∀ x < q, ∀ tagx, s.holds x .claim tagx [] → (∀ y < x, ∀ tg ar, ¬ s.holds y .claim tg ar) → s.holder = none →
      ∃ t, exec (.claim q) s = .next t ∧ t.holder = some x ∧ t.lapse = .running 2000 ∧
        t.notices = s.noticesWith .authority ∧ (t.port x).held = none ∧ (t.port q).held = none ∧
        (t.port x).tx = (s.port x).tx ++ stationFrame (s.replyIn t x (Request.claim.code + 0x80) tagx (.plain .done)) ∧
        (t.port q).tx = (s.port q).tx ++ stationFrame (s.replyIn t q (Request.claim.code + 0x80) tag (.plain .held)) ∧
        { t with ports := s.ports, holder := s.holder, lapse := s.lapse, notices := s.notices } = s

/-- Command given up. YIELD: from the holder in a motion phase WRONG_PHASE; from the holder in any other phase the holder becomes
none; from another port DONE with no change (R171). The argument list is looked at after the phase (the model's choice, log entry
22). The lapse timer's expiry clears the holder; in a motion phase it also takes the stop AUTHORITY_LAPSE with the port that held
command, after the holder has been cleared (R173). What an echo test aborted in WAITING by that stop gives way to is the model's
reading (log entry 14; R44). -/
def Obligations.YieldAndLapse : Prop :=
  (∀ (s : State) (q : PortId) (tag : Byte) (args : List Byte), s.holds q .yield tag args →
     (s.holder = some q → s.phase ∈ [.approach, .lifting, .lowering, .dwell, .retracting] →
       s.onlyAnswers q .yield tag (.plain .wrongPhase)) ∧
     (args ≠ [] → (s.holder = some q → s.phase ∉ [.approach, .lifting, .lowering, .dwell, .retracting]) →
       s.onlyAnswers q .yield tag (.plain .badArg)) ∧
     (args = [] → s.holder ≠ some q → s.onlyAnswers q .yield tag (.plain .done)) ∧
     (args = [] → s.holder = some q → s.phase ∉ [.approach, .lifting, .lowering, .dwell, .retracting] →
       s.executes q .yield tag (.plain .done) fun t =>
         t.holder = none ∧ t.lapse = .stopped ∧ t.notices = s.noticesWith .authority ∧
         { t with ports := s.ports, holder := s.holder, lapse := s.lapse, notices := s.notices } = s)) ∧
  ∀ (s : State) (ms : Nat), s.lapse = .running ms →
    (s.phase ∉ [.approach, .lifting, .lowering, .dwell, .retracting] → exec .lapseTimerExpiry s =
      .next { s with holder := none, lapse := .stopped, notices := s.noticesWith .authority }) ∧
    (s.phase ∈ [.approach, .lifting, .lowering, .dwell, .retracting] → s.power = .running →
      ∃ t, exec .lapseTimerExpiry s = .next t ∧
        ({ s with holder := none, lapse := .stopped, notices := s.noticesWith .authority } : State).takesFirstStop t
          (plainOffer .authorityLapse s.holder))

/-! ### Stops and the safety chain -/

/-- A STOP request, a STOP byte and an opened STOP_IN outside STOPPED are each a first stop, with the record, the further causes
emptied, STOPPED with all its effects, the wake among them, an ALLSTOP owed on every segment, STOP_OUT open, the notice, and an
echo test aborted with its result and ECHO_DONE (R36, R44, R64, R146 to R148). That a test aborted in WAITING gives way to a fresh
cycle, with an owed start kept, is the model's reading (log entry 14). -/
def Obligations.FirstStopEffect : Prop :=
  ∀ s : State, s.power = .running → s.phase ≠ .stopped →
    (∀ q tag args, s.holds q .stop tag args → s.executes q .stop tag (.plain .done) fun t =>
      s.takesFirstStop { t with ports := s.ports } (plainOffer .stopRequest (some q))) ∧
    (∀ q, ∃ t, exec (.stopByte q) s = .next t ∧ s.takesFirstStop t (plainOffer .stopByte (some q))) ∧
    (s.stop.stopIn = .closed → ∃ t, exec .stopInOpen s = .next t ∧
      ({ s with stop := { s.stop with stopIn := .opened } } : State).takesFirstStop t (plainOffer .stopIn none))

/-- A stop taken in STOPPED changes the further-causes set alone: its cause joins the set unless it is the stop record's cause
(R149). Until the image has been read the stop unit takes no stop: a STOP request is answered DONE and changes nothing, and a STOP
byte or an opening changes nothing beyond the STOP_IN state. At any time a change to CLOSED updates the state and nothing else,
and a level that is open already is no change (R146 to R148). That an opening of an input that is open already changes nothing is
the model's choice (log entry 6). -/
def Obligations.FurtherAndEarlyStops : Prop :=
  (∀ (s : State) (r : StopRecord), s.power = .running → s.phase = .stopped → s.stop.record = some r →
     let joined := fun c : StopCause => if r.cause = c then s.stop.further else s.stop.further.set c.code true
     (∀ q tag args, s.holds q .stop tag args → s.executes q .stop tag (.plain .done) fun t =>
       { t with ports := s.ports } = { s with stop := { s.stop with further := joined .stopRequest } }) ∧
     (∀ q, exec (.stopByte q) s = .next { s with stop := { s.stop with further := joined .stopByte } }) ∧
     (s.stop.stopIn = .closed →
       exec .stopInOpen s = .next { s with stop := { s.stop with stopIn := .opened, further := joined .stopIn } })) ∧
  ∀ s : State,
    (s.power ≠ .running →
      (∀ q tag args, s.holds q .stop tag args → s.onlyAnswers q .stop tag (.plain .done)) ∧
      (∀ q, exec (.stopByte q) s = .next s) ∧
      (s.stop.stopIn = .closed → exec .stopInOpen s = .next { s with stop := { s.stop with stopIn := .opened } })) ∧
    exec .stopInClose s = .next { s with stop := { s.stop with stopIn := .closed } } ∧
    (s.stop.stopIn = .opened → exec .stopInOpen s = .next s)

/-- The refusals of REARM from the holder, in order: the phase, the argument list (its place is the model's choice, log entry 22),
STOP_IN, and then over the valid positions from p 0 the first column not ENROLLED, with a drive fault, above its rated load, and,
where REARM would lead to HOLDING outside the set-down band, below C (R153). -/
def Obligations.RearmRefusals : Prop :=
  ∀ (s : State) (q : PortId) (tag : Byte) (args : List Byte), s.holds q .rearm tag args → s.holder = some q →
    s.power = .running →
    (s.phase ≠ .stopped → s.onlyAnswers q .rearm tag (.plain .wrongPhase)) ∧
    (s.phase = .stopped → args ≠ [] → s.onlyAnswers q .rearm tag (.plain .badArg)) ∧
    (s.phase = .stopped → args = [] →
      let first := fun (test : Pos → Prop) (p : Pos) =>
        s.validPos p = true ∧ test p ∧ ∀ x < p, s.validPos x = true → ¬ test x
      let none_ := fun test : Pos → Prop => ∀ p, s.validPos p = true → ¬ test p
      let away := fun p => (s.col p).link ≠ .enrolled
      let fault := fun p => (s.col p).flags.driveFault = true
      let heavy := fun p => ∃ l r, (s.col p).load = some l ∧ (s.col p).cap.rated = some r ∧ r < l
      let light := fun p => ∃ l, (s.col p).load = some l ∧ l < s.limit .contactLoad
      (s.stop.stopIn = .opened → s.onlyAnswers q .rearm tag (.incomplete .stopInOpen none)) ∧
      (s.stop.stopIn = .closed →
        (∀ p, first away p → s.onlyAnswers q .rearm tag (.incomplete .dropNotReady (some p))) ∧
        (∀ p, none_ away → first fault p → s.onlyAnswers q .rearm tag (.incomplete .driveFault (some p))) ∧
        (∀ p, none_ away → none_ fault → first heavy p → s.onlyAnswers q .rearm tag (.incomplete .overload (some p))) ∧
        (∀ p r, none_ away → none_ fault → none_ heavy → s.stop.record = some r →
          (∀ x, s.validPos x = true → (s.col x).contact.isSome = true) → r.phase ≠ .aligned → r.phase ≠ .retracting →
          ¬ (s.ref.setDown = true ∧ s.reseatedH ≤ s.limit .setDownBand) → first light p →
          s.onlyAnswers q .rearm tag (.incomplete .loadLost (some p)))))

/-- A REARM that passes every test: the record moves to the previous record, STOP_OUT closes, the latches clear, and the phase is
chosen from the contacts and the phase at stop, with the reference reseated on the way to HOLDING: H is the sum of rel less offset
over the valid positions, divided by their number, floored, and clamped to 0 to 40,000 (R154, R155). Three clauses are the model's
choice: the leg index becomes 0 at an entry to ALIGNED by REARM too, where the text of section 8.5 keeps it (log entry 21), at an
entry to IDLE the direction d is kept, where R104 gives it no value (log entry 38), and an absent rel, which no run reaches here,
counts as 0 in the sum (log entry 24). -/
def Obligations.RearmEffect : Prop :=
  ∀ (s : State) (q : PortId) (tag : Byte) (r : StopRecord), s.holds q .rearm tag [] → s.holder = some q →
    s.power = .running → s.phase = .stopped → s.stop.record = some r → s.stop.stopIn = .closed → r.phase ≠ .stopped →
    s.validPositions ≠ [] →
    (∀ p, s.validPos p = true → (s.col p).link = .enrolled ∧ (s.col p).flags.driveFault = false ∧
      ∀ l k, (s.col p).load = some l → (s.col p).cap.rated = some k → l ≤ k) →
    let whole := ∀ p, s.validPos p = true → (s.col p).contact.isSome = true
    (s.reseatedH : Int) = max 0 (min 40000 ((s.validPositions.map fun p => (s.col p).rel.getD 0 - (s.col p).offset).sum
      / (s.validPositions.length : Int))) ∧
    ∀ new : Phase, (¬ whole → new = .idle) → (whole → r.phase = .aligned → new = .aligned) →
      (whole → r.phase = .retracting → new = .landed) →
      (whole → r.phase ≠ .aligned → r.phase ≠ .retracting → new = .holding) →
      (new = .holding → ¬ (s.ref.setDown = true ∧ s.reseatedH ≤ s.limit .setDownBand) →
        ∀ p l, s.validPos p = true → (s.col p).load = some l → s.limit .contactLoad ≤ l) →
      s.executes q .rearm tag (.plain .done) fun t =>
        ({ s with
          stop := { s.stop with record := none, further := .fill 14 false, previous := some (r, s.stop.further),
                                stopOut := .closed }
          cols := s.cols.map fun c => { c with wasLost := false }
          ref := if new = .holding then { s.ref with h := s.reseatedH, fine := 100 * s.reseatedH, vEff := 0 }
            else s.ref } : State).changesPhase t new

/-! ### The roster -/

/-- MAP in IDLE with arguments in range: CONFLICT when another position holds the pair; otherwise the entry is written and roster
confirmed cleared. With the pair the position named before, the entry alone changes; with another pair the old drop leaves the
roster, and the column record is emptied and takes the link state and the capability of the new drop (R5 to R7). The watches test
the position at both changes of its record (R183, log entry 18), and a change of a link state is a wake (R36, R37). That the
emptied record is a change of its own for the watches, and a wake also where the new drop is ABSENT, is the model's reading (log
entries 18 and 43). -/
def Obligations.MapEffect : Prop :=
  ∀ (s : State) (q : PortId) (tag : Byte) (p : Pos) (g : SegId) (d : DropId) (serial : Option (BitVec 32)),
    s.rosterWell → s.holder = some q → s.phase = .idle →
    s.holds q .map tag ([byteOf p.val, byteOf (g.val + 1), byteOf (d.val + 1)]
      ++ (match serial with | some x => be32 x.toNat | none => [])) →
    (∀ x, x ≠ p → (∃ sn, s.entry x = some ⟨g, d, sn⟩) → s.onlyAnswers q .map tag (.conflict x)) ∧
    ((∀ x, x ≠ p → ¬ ∃ sn, s.entry x = some ⟨g, d, sn⟩) →
      s.executes q .map tag (.plain .done) fun t =>
        t.roster = { s.roster with entries := s.roster.entries.set p (some ⟨g, d, serial⟩), confirmed := false } ∧
        t.retention = (if t.roster = s.roster ∨ s.power ≠ .running then s.retention
          else s.retention.triggered t.image) ∧
        ((∃ sn, s.entry p = some ⟨g, d, sn⟩) →
          { t with ports := s.ports, roster := s.roster, retention := s.retention } = s) ∧
        ((¬ ∃ sn, s.entry p = some ⟨g, d, sn⟩) →
          t.col p = { Column.empty with link := (s.drop g d).link, cap := (s.drop g d).cap } ∧
          (∀ x, x ≠ p → { t.col x with creep := (s.col x).creep } = s.col x) ∧
          (∀ (g' : SegId) (d' : DropId), (¬ ∃ sn, s.entry p = some ⟨g', d', sn⟩) → t.drop g' d' = s.drop g' d') ∧
          (∀ e, s.entry p = some e →
            ((s.drop e.seg e.drop).link = .enrolled →
              t.drop e.seg e.drop = { s.drop e.seg e.drop with link := .ready, settle := .stopped, page := 3 }) ∧
            ((s.drop e.seg e.drop).link = .lost →
              t.drop e.seg e.drop = { s.drop e.seg e.drop with link := .absent, miss := 0, settle := .stopped, page := 3,
                                                               cap := Capability.empty }) ∧
            ((s.drop e.seg e.drop).link ≠ .enrolled → (s.drop e.seg e.drop).link ≠ .lost →
              t.drop e.seg e.drop = s.drop e.seg e.drop)) ∧
          ((s.col p).cls ≠ .lag → (s.col p).mark = false → t.holdCount = s.holdCount ∧ t.outCount = s.outCount) ∧
          t.watches = (({ t with watches := ((s.modCol p fun _ => Column.empty).testWatches p).watches } : State).testWatches
            p).watches ∧
          (let moved := (s.col p).link ≠ .absent ∨ (s.drop g d).link ≠ .absent ∨
            ∃ e, s.entry p = some e ∧ ((s.drop e.seg e.drop).link = .enrolled ∨ (s.drop e.seg e.drop).link = .lost)
          (s.power = .running → moved → s.wakes t) ∧ (s.power ≠ .running ∨ ¬ moved →
            (∀ z, { t.seg z with drops := (s.seg z).drops } = s.seg z) ∧ ∀ x, x ≠ p → t.col x = s.col x)) ∧
          { t with ports := s.ports, roster := s.roster, retention := s.retention, cols := s.cols, segs := s.segs,
                   watches := s.watches, holdCount := s.holdCount, outCount := s.outCount } = s))

/-- UNMAP of a position that is not valid is answered DONE with no change. UNMAP of a valid one clears its entry and roster
confirmed, empties its column record and takes its drop out of the roster (R6 to R8). The watches test the emptied record (R183),
and a change of a link state is a wake (R36, R37). That the emptied record is a wake is the model's reading of R36 beside R7 (log
entry 43), and that the watches test it at once (log entry 18). -/
def Obligations.UnmapEffect : Prop :=
  ∀ (s : State) (q : PortId) (tag : Byte) (p : Pos), s.rosterWell → s.holder = some q → s.phase = .idle →
    s.holds q .unmap tag [byteOf p.val] →
    (s.entry p = none → s.onlyAnswers q .unmap tag (.plain .done)) ∧
    (∀ e, s.entry p = some e →
      s.executes q .unmap tag (.plain .done) fun t =>
        t.roster = { s.roster with entries := s.roster.entries.set p none, confirmed := false } ∧
        t.retention = (if s.power = .running then s.retention.triggered t.image else s.retention) ∧
        t.col p = Column.empty ∧ (∀ x, x ≠ p → { t.col x with creep := (s.col x).creep } = s.col x) ∧
        t.mappedAt e.seg e.drop = none ∧
        (∀ g d, ¬ (g = e.seg ∧ d = e.drop) → t.drop g d = s.drop g d) ∧
        ((s.drop e.seg e.drop).link = .enrolled →
          t.drop e.seg e.drop = { s.drop e.seg e.drop with link := .ready, settle := .stopped, page := 3 }) ∧
        ((s.drop e.seg e.drop).link = .lost →
          t.drop e.seg e.drop = { s.drop e.seg e.drop with link := .absent, miss := 0, settle := .stopped, page := 3,
                                                           cap := Capability.empty }) ∧
        ((s.drop e.seg e.drop).link ≠ .enrolled → (s.drop e.seg e.drop).link ≠ .lost →
          t.drop e.seg e.drop = s.drop e.seg e.drop) ∧
        ((s.col p).cls ≠ .lag → (s.col p).mark = false → t.holdCount = s.holdCount ∧ t.outCount = s.outCount) ∧
        t.watches = ((s.modCol p fun _ => Column.empty).testWatches p).watches ∧
        (let moved := (s.col p).link ≠ .absent ∨ (s.drop e.seg e.drop).link = .enrolled ∨ (s.drop e.seg e.drop).link = .lost
        (s.power = .running → moved → s.wakes t) ∧ (s.power ≠ .running ∨ ¬ moved →
          (∀ z, { t.seg z with drops := (s.seg z).drops } = s.seg z) ∧ ∀ x, x ≠ p → t.col x = s.col x)) ∧
        { t with ports := s.ports, roster := s.roster, retention := s.retention, cols := s.cols, segs := s.segs,
                 watches := s.watches, holdCount := s.holdCount, outCount := s.outCount } = s)

/-- LINK stores the flag, whether or not the cars are present, keeps roster confirmed, and triggers a write when the flag
changes; a joint outside 1 to 11 gives BAD_ARG (R9). -/
def Obligations.LinkEffect : Prop :=
  (∀ (s : State) (q : PortId) (tag k f : Byte), s.holder = some q → s.phase = .idle → k = 0 ∨ 11 < k.toNat →
    s.holds q .link tag [k, f] → s.onlyAnswers q .link tag (.plain .badArg)) ∧
  ∀ (s : State) (q : PortId) (tag f : Byte) (k : JointId), s.holder = some q → s.phase = .idle →
    s.holds q .link tag [byteOf (k.val + 1), f] →
    s.executes q .link tag (.plain .done) fun t =>
      t.roster = { s.roster with links := s.roster.links.set k (decide (f ≠ 0)) } ∧
      t.retention = (if s.roster.links.get k = decide (f ≠ 0) ∨ s.power ≠ .running then s.retention
        else s.retention.triggered t.image) ∧
      { t with ports := s.ports, roster := s.roster, retention := s.retention } = s

/-- CONFIRM in IDLE: INCOMPLETE with EMPTY_ROSTER when no entry is valid, else with the first failing position and its first
failing test; when every position passes, the serials are pinned, every mapped READY drop becomes ENROLLED, roster confirmed is
set, the was-lost latches clear and a write is triggered (R10, R11). Each new enrolment makes the watches test its position (R183)
and is a wake (R36, R37). That each change has its own test is the model's reading (log entry 18). -/
def Obligations.ConfirmEffect : Prop :=
  ∀ (s : State) (q : PortId) (tag : Byte), s.rosterWell → s.mirrored → s.holder = some q → s.phase = .idle →
    s.holds q .confirm tag [] →
    let incomplete := fun p => s.entry p = none ∧ s.carPresent (carOf p) = true
    let notReady := fun p => ∃ e, s.entry p = some e ∧ (s.drop e.seg e.drop).link ≠ .ready ∧
      (s.drop e.seg e.drop).link ≠ .enrolled
    let differs := fun p => ∃ e, s.entry p = some e ∧ e.serial.isSome = true ∧ (s.drop e.seg e.drop).cap.serial ≠ e.serial
    let passes := fun p => ¬ incomplete p ∧ ¬ notReady p ∧ ¬ differs p
    ((∀ p, s.entry p = none) → s.onlyAnswers q .confirm tag (.incomplete .emptyRoster none)) ∧
    ((∃ p, s.entry p ≠ none) →
      (∀ p, (∀ x < p, passes x) →
        (incomplete p → s.onlyAnswers q .confirm tag (.incomplete .carIncomplete (some p))) ∧
        (notReady p → s.onlyAnswers q .confirm tag (.incomplete .dropNotReady (some p))) ∧
        (¬ notReady p → differs p → s.onlyAnswers q .confirm tag (.incomplete .serialDiffers (some p)))) ∧
      ((∀ p, passes p) →
        s.executes q .confirm tag (.plain .done) fun t =>
          t.roster.confirmed = true ∧ t.roster.links = s.roster.links ∧
          (∀ p, s.entry p = none → t.entry p = none) ∧
          (∀ p e, s.entry p = some e → t.entry p = some { e with
            serial := e.serial.or (s.drop e.seg e.drop).cap.serial }) ∧
          (∀ p e, s.entry p = some e →
            { t.drop e.seg e.drop with settle := (s.drop e.seg e.drop).settle, page := (s.drop e.seg e.drop).page }
              = { s.drop e.seg e.drop with link := .enrolled }) ∧
          (∀ g d, s.mappedAt g d = none → t.drop g d = s.drop g d) ∧
          (∀ p, { t.col p with creep := (s.col p).creep } = { s.col p with
            wasLost := false, link := if s.validPos p then .enrolled else (s.col p).link }) ∧
          t.retention = (if s.power = .running then s.retention.triggered t.image else s.retention) ∧
          (let ready := fun p => (s.entry p).any fun e => decide ((s.drop e.seg e.drop).link = .ready)
          t.watches = (((List.finRange 48).filter ready).foldl State.testWatches { t with watches := s.watches }).watches ∧
            (s.power = .running → (∃ p, ready p = true) → s.wakes t) ∧
            (s.power ≠ .running ∨ (∀ p, ready p = false) → s.rests t)) ∧
          { t with ports := s.ports, roster := s.roster, retention := s.retention, cols := s.cols, segs := s.segs,
                   watches := s.watches } = s))

/-! ### The group requests, the legs and the reference -/

/-- A request from the holder outside the phases that take it is answered WRONG_PHASE, and in them an argument list that does not
fit is answered BAD_ARG: the roster edits at any time, the others once the image has been read (R4, R66, R83, R100, R102, R142,
R167, and the table of section 4.3). For a group request that takes no argument, the place of that check is the model's choice
(log entry 22). -/
def Obligations.WrongPhaseThenBadArgument : Prop :=
  ∀ (s : State) (q : PortId) (r : Request) (tag : Byte) (args : List Byte) (phases : List Phase), s.holds q r tag args →
    s.holder = some q → (r ∈ [.map, .unmap, .link, .confirm] ∨ s.power = .running) →
    (match r with
      | .map | .unmap | .link | .confirm | .approach => phases = [.idle]
      | .run => phases = [.aligned, .holding, .lifting, .lowering]
      | .pause => phases = [.lifting, .lowering, .dwell]
      | .setdown => phases = [.aligned, .holding]
      | .retract => phases = [.aligned, .landed]
      | .jog => phases = [.holding]
      | .planLeg | .planCut => phases = [.idle, .approach, .aligned, .holding, .landed, .retracting, .stopped]
      | .limitSet => phases = [.idle, .aligned, .holding, .landed, .stopped]
      | _ => False) →
    (s.phase ∉ phases → s.onlyAnswers q r tag (.plain .wrongPhase)) ∧
    (s.phase ∈ phases →
      (match r with
        | .map => ¬ ∃ (p : Pos) (g : SegId) (d : DropId) (serial : Option (BitVec 32)),
            args = [byteOf p.val, byteOf (g.val + 1), byteOf (d.val + 1)]
              ++ (match serial with | some x => be32 x.toNat | none => [])
        | .unmap => ¬ ∃ p : Pos, args = [byteOf p.val]
        | .link => ¬ ∃ (k : JointId) (f : Byte), args = [byteOf (k.val + 1), f]
        | .jog => (¬ ∃ (p : Pos) (a b : Byte), args = [0, byteOf p.val, a, b] ∧ s.validPos p = true) ∧
            ¬ ∃ (c : CarId) (a b : Byte), args = [1, byteOf (c.val + 1), a, b] ∧ s.carPresent c = true
        | .planLeg => ¬ ∃ (i : Fin 16) (rest : List Byte), args = byteOf i.val :: rest ∧ rest.length = 7 ∧
            i.val ≤ s.plan.count
        | .planCut => ¬ ∃ k : Byte, args = [k] ∧ k.toNat ≤ s.plan.count
        | .limitSet => ¬ ∃ (i : Fin 17) (a b : Byte), args = [byteOf i.val, a, b]
        | _ => args ≠ []) →
      s.onlyAnswers q r tag (.plain .badArg))

/-- APPROACH in IDLE: its checks in order (an echo test, the confirmation, the first column not ENROLLED, STOP_IN), and then the
change to APPROACH; RETRACT in ALIGNED and LANDED: the change to RETRACTING (R67, R81). -/
def Obligations.ApproachAndRetract : Prop :=
  ∀ (s : State) (q : PortId) (tag : Byte), s.holder = some q → s.power = .running →
    (s.holds q .approach tag [] → s.phase = .idle →
      let quietLines := ∀ g, (s.seg g).echo = .none
      let away := fun p => s.validPos p = true ∧ (s.col p).link ≠ .enrolled
      (¬ quietLines → s.onlyAnswers q .approach tag (.plain .busy)) ∧
      (quietLines → s.roster.confirmed = false → s.onlyAnswers q .approach tag (.incomplete .notConfirmed none)) ∧
      (quietLines → s.roster.confirmed = true →
        (∀ p, away p → (∀ x < p, ¬ away x) → s.onlyAnswers q .approach tag (.incomplete .dropNotReady (some p))) ∧
        ((∀ p, ¬ away p) →
          (s.stop.stopIn = .opened → s.onlyAnswers q .approach tag (.incomplete .stopInOpen none)) ∧
          (s.stop.stopIn = .closed →
            s.executes q .approach tag (.plain .done) fun t => s.changesPhase t .approach)))) ∧
    (s.holds q .retract tag [] → s.phase = .aligned ∨ s.phase = .landed →
      s.executes q .retract tag (.plain .done) fun t => s.changesPhase t .retracting)

/-- A leg starts, at a RUN, a SETDOWN, a dwell's end or a completion. The target is clamped to the ceiling and the speed to the
group's limit, PLAN_CLAMPED is raised when either changes, the direction and the arrived flag follow from H, and the phase from
the direction; where the phase is another, that is a phase change, and where it stays, the leg in hand alone changes and the step
timer runs on. RUN takes the plan leg at the leg index, or answers PLAN_END, and SETDOWN the set-down leg; a leg that starts
arrived with no column out of position is tested for completion at once (R69, R70, R72, R78, R105 to R108, R114). A ceiling below
0 counts as 0, and none is clamped above (the model's reading, log entry 23). -/
def Obligations.LegStart : Prop :=
  (∀ (s : State) (q : PortId) (tag : Byte), s.holds q .run tag [] → s.holder = some q → s.power = .running →
    s.phase = .aligned ∨ s.phase = .holding → s.plan.count ≤ s.plan.index → s.onlyAnswers q .run tag (.plain .planEnd)) ∧
  ∀ (s : State) (down : Bool) (leg : Leg) (ceiling slowest : Nat), s.power = .running →
    leg = (if down then { target := 0, speed := s.limit .setDownSpeed, dwell := 0, continues := false }
      else s.plan.leg s.plan.index) →
    (let room := fun (p : Pos) (stroke contact : Nat) => ((stroke : Int) - contact - (s.col p).offset).toNat
    (∀ p x k, s.validPos p = true → (s.col p).cap.stroke = some x → (s.col p).contact = some k → ceiling ≤ room p x k) ∧
      ∃ p x k, s.validPos p = true ∧ (s.col p).cap.stroke = some x ∧ (s.col p).contact = some k ∧ ceiling = room p x k) →
    ((∀ p v, s.validPos p = true → (s.col p).cap.maxSpeed = some v → slowest ≤ v) ∧
      ∃ p, s.validPos p = true ∧ (s.col p).cap.maxSpeed = some slowest) →
    let target := min leg.target ceiling
    let speed := min leg.speed (slowest * 3 / 4)
    let dir : Direction := if s.ref.h < target then .up else if target < s.ref.h then .down
      else if down then .down else .up
    let begun : State :=
      { s with
        notices := if target ≠ leg.target ∨ speed ≠ leg.speed then s.noticesWith .planClamped else s.notices
        ref := { fine := if target = s.ref.h then 100 * target else s.ref.fine, h := s.ref.h, vEff := 0, dir := dir,
                 target := some target, speed := some speed, dwell := leg.dwell, continues := leg.continues,
                 setDown := down, arrived := decide (target = s.ref.h), stepTimer := .running 10,
                 dwellTimer := s.ref.dwellTimer } }
    let new : Phase := match dir with
      | .up => .lifting
      | .down => .lowering
    (new ≠ s.phase → begun.changesPhase (s.startLeg down) new) ∧ (new = s.phase → s.startLeg down = begun) ∧
    ∀ (q : PortId) (tag : Byte), s.holds q (if down then .setdown else .run) tag [] → s.holder = some q →
      s.phase = .aligned ∨ s.phase = .holding → (down = true ∨ s.plan.index < s.plan.count) →
      s.executes q (if down then .setdown else .run) tag (.plain .done) fun t =>
        { t with ports := s.ports } =
          if target = s.ref.h ∧ s.outCount = 0 then (s.startLeg down).testCompletion else s.startLeg down

/-- The completion test, in LIFTING and LOWERING with the arrived flag set and no mark: the set-down leg leads to LANDED; a plan
leg is counted, and the pause, the dwell and the continue flag choose HOLDING, DWELL or the next leg. Otherwise it changes nothing
(R71, R72, R79, R112). That the write of a counted leg holds the state of that point of the event is the model's reading (log
entry 28). -/
def Obligations.LegCompletion : Prop :=
  ∀ s : State, s.power = .running →
    (¬ ((s.phase = .lifting ∨ s.phase = .lowering) ∧ s.ref.arrived = true ∧ s.outCount = 0) → s.testCompletion = s) ∧
    (s.phase = .lifting ∨ s.phase = .lowering → s.ref.arrived = true → s.outCount = 0 →
      let told : State := { s with notices := s.noticesWith .legDone }
      let plan : Plan := { s.plan with index := s.plan.index + 1 }
      let counted : State := { told with plan := plan, retention := s.retention.triggered { s.image with plan := plan } }
      (s.ref.setDown = true → told.changesPhase s.testCompletion .landed) ∧
      (s.ref.setDown = false →
        (s.pausePending = true → counted.changesPhase s.testCompletion .holding) ∧
        (s.pausePending = false → 0 < s.ref.dwell →
          ({ counted with ref := { s.ref with dwellTimer := .running (1000 * s.ref.dwell) } } : State).changesPhase
            s.testCompletion .dwell) ∧
        (s.pausePending = false → s.ref.dwell = 0 →
          (s.ref.continues = true → s.plan.index + 1 < s.plan.count →
            s.testCompletion = (counted.startLeg false).testCompletion) ∧
          (s.ref.continues = false ∨ s.plan.count ≤ s.plan.index + 1 →
            counted.changesPhase s.testCompletion .holding))))

/-- RUN and PAUSE while a leg runs change pause-pending alone; PAUSE in DWELL goes to HOLDING; the dwell timer's expiry starts the
next leg where the continue flag is set and the index is below n, and otherwise goes to HOLDING (R72, R73, R75). That an expiry
outside DWELL, or of a stopped timer, changes nothing is the model's choice (log entry 6). -/
def Obligations.PauseAndDwell : Prop :=
  ∀ (s : State) (q : PortId) (tag : Byte), s.power = .running →
    (s.holder = some q → s.phase = .lifting ∨ s.phase = .lowering →
      (s.holds q .run tag [] → s.executes q .run tag (.plain .done) fun t =>
        { t with ports := s.ports } = { s with pausePending := false }) ∧
      (s.holds q .pause tag [] → s.executes q .pause tag (.plain .done) fun t =>
        { t with ports := s.ports } = { s with pausePending := true })) ∧
    (s.holder = some q → s.phase = .dwell → s.holds q .pause tag [] →
      s.executes q .pause tag (.plain .done) fun t => s.changesPhase t .holding) ∧
    (∀ ms, s.phase = .dwell → s.ref.dwellTimer = .running ms →
      (s.ref.continues = true → s.plan.index < s.plan.count →
        exec .dwellTimerExpiry s = .next (s.startLeg false).testCompletion) ∧
      (s.ref.continues = false ∨ s.plan.count ≤ s.plan.index →
        ∃ t, exec .dwellTimerExpiry s = .next t ∧ s.changesPhase t .holding)) ∧
    (s.phase ≠ .dwell ∨ s.ref.dwellTimer = .stopped → exec .dwellTimerExpiry s = .next s)

/-- One reference step: v_eff moves toward the speed target by at most the ramp, F by v_eff in the direction, H is F in height
steps; at the target F, H and the arrived flag are set with v_eff 0. Then the completion test, or HOLDING where a pause is pending
at rest (R74, R109, R110). That an expiry outside LIFTING and LOWERING, or of a stopped timer, changes nothing is the model's
choice (log entry 6). -/
def Obligations.ReferenceStep : Prop :=
  ∀ s : State, s.power = .running →
    (∀ ms target speed, s.phase = .lifting ∨ s.phase = .lowering → s.ref.stepTimer = .running ms → s.ref.target = some target →
      s.ref.speed = some speed →
      ∀ (v goal : Nat) (f : Int), goal = (if s.holdCount = 0 ∧ s.pausePending = false then speed else 0) →
        (goal ≤ s.ref.vEff → v = max goal (s.ref.vEff - s.limit .ramp)) →
        (s.ref.vEff ≤ goal → v = min goal (s.ref.vEff + s.limit .ramp)) →
        (s.ref.dir = .up → f = s.ref.fine + v) → (s.ref.dir = .down → f = s.ref.fine - v) →
        let reached := (s.ref.dir = .up → 100 * (target : Int) ≤ f) ∧ (s.ref.dir = .down → f ≤ 100 * (target : Int))
        let there : State := { s with ref := { s.ref with fine := 100 * target, h := target, vEff := 0, arrived := true } }
        let onward : State := { s with ref := { s.ref with fine := f.toNat, h := f.toNat / 100, vEff := v } }
        ∃ t, exec .referenceStepTimerExpiry s = .next t ∧
          (s.ref.arrived = true →
            (s.pausePending = true ∧ s.ref.vEff = 0 → s.changesPhase t .holding) ∧
            (s.pausePending = false ∨ s.ref.vEff ≠ 0 → t = s)) ∧
          (s.ref.arrived = false → reached →
            (s.outCount = 0 → t = there.testCompletion) ∧
            (s.outCount ≠ 0 → s.pausePending = true → there.changesPhase t .holding) ∧
            (s.outCount ≠ 0 → s.pausePending = false → t = there)) ∧
          (s.ref.arrived = false → ¬ reached →
            (s.pausePending = true ∧ v = 0 → onward.changesPhase t .holding) ∧
            (s.pausePending = false ∨ v ≠ 0 → t = onward))) ∧
    (s.ref.stepTimer = .stopped ∨ s.phase ∉ [.lifting, .lowering] → exec .referenceStepTimerExpiry s = .next s)

/-! ### Jogs, the plan and the limits -/

/-- JOG in HOLDING of a valid position or a present car: the effective delta is the furthest value from 0 toward the request that
meets the four conditions, each with its bound or, past it, no larger than before; it is added to the offset of every affected
column, and a lag beyond W_done sets the jog flag. A set flag is a wake; no set flag triggers a write; 0 changes nothing (R83,
R138, R139). A column that was flagged already and is still beyond W_done counts as given the flag, so that a wake
and no write follow (the model's choice, log entry 27). -/
def Obligations.JogEffect : Prop :=
  ∀ (s : State) (q : PortId) (tag a b : Byte) (affected : List Pos), s.holder = some q → s.power = .running →
    s.phase = .holding →
    ((∃ p, s.validPos p = true ∧ affected = [p] ∧ s.holds q .jog tag [0, byteOf p.val, a, b]) ∨
      ∃ c, s.carPresent c = true ∧ affected = [posOf c 0, posOf c 1, posOf c 2, posOf c 3] ∧
        s.holds q .jog tag [1, byteOf (c.val + 1), a, b]) →
    let within := fun bound now new : Nat => new ≤ bound ∨ bound < now ∧ new ≤ now
    let offset := fun (d : Int) (p : Pos) => if p ∈ affected then (s.col p).offset + d else (s.col p).offset
    let lag := fun (d : Int) (p : Pos) (rel : Int) => ((s.ref.h : Int) + ((s.col p).offset + d) - rel).natAbs
    let spread := fun (d : Int) (c : CarId) =>
      let o := fun i => offset d (posOf c i)
      (max (max (o 0) (o 1)) (max (o 2) (o 3)) - min (min (o 0) (o 1)) (min (o 2) (o 3))).toNat
    let joint := fun (d : Int) (k : JointId) =>
      (offset d (posOf (carBefore k) 2) + offset d (posOf (carBefore k) 3)
        - (offset d (posOf (carAfter k) 0) + offset d (posOf (carAfter k) 1))).natAbs
    let allowed := fun d : Int => ∀ p ∈ affected,
      -400 ≤ (s.col p).offset + d ∧ (s.col p).offset + d ≤ 400 ∧
      within (s.limit .tCar / 2) (spread 0 (carOf p)) (spread d (carOf p)) ∧
      (∀ k, jointOf p = some k → s.linkEffective k = true → within (s.limit .aStep) (joint 0 k) (joint d k)) ∧
      ∀ rel, (s.col p).rel = some rel → within (s.limit .lTrip / 2) (lag 0 p rel) (lag d p rel)
    let beyond := fun (d : Int) (p : Pos) => ∃ rel, (s.col p).rel = some rel ∧ s.limit .wDone < lag d p rel
    ∀ d : Int, (d = 0 ∨ allowed d) → (0 ≤ int16 a b → 0 ≤ d ∧ d ≤ int16 a b) → (int16 a b ≤ 0 → int16 a b ≤ d ∧ d ≤ 0) →
      (∀ e : Int, (d < e ∧ e ≤ int16 a b ∨ int16 a b ≤ e ∧ e < d) → ¬ allowed e) →
      let answer : Answer := { result := .done, clamped := decide (d ≠ int16 a b), data := [] }
      (d = 0 → s.onlyAnswers q .jog tag answer) ∧
      (d ≠ 0 →
        s.executes q .jog tag answer fun t =>
          (∀ p, (t.col p).offset = offset d p ∧
            ((t.col p).jog = true ↔ (s.col p).jog = true ∨ p ∈ affected ∧ beyond d p) ∧
            { t.col p with offset := (s.col p).offset, jog := (s.col p).jog, creep := (s.col p).creep } = s.col p) ∧
          ((∃ p ∈ affected, beyond d p) → t.retention = s.retention ∧ s.wakes t) ∧
          ((∀ p ∈ affected, ¬ beyond d p) → t.retention = s.retention.triggered t.image ∧ t.segs = s.segs ∧
            ∀ p, (t.col p).creep = (s.col p).creep) ∧
          (∀ g x, t.drop g x = s.drop g x) ∧
          { t with ports := s.ports, cols := s.cols, segs := s.segs, retention := s.retention } = s)

/-- PLAN_LEG with an index up to n writes the entry with its fields clamped, an append raises n, and the leg index stays;
PLAN_CUT below n cuts n and the leg index, and PLAN_CUT(n) changes nothing (R100 to R102). -/
def Obligations.PlanEdits : Prop :=
  ∀ (s : State) (q : PortId) (tag : Byte), s.holder = some q → s.power = .running →
    s.phase ∉ [.lifting, .lowering, .dwell] →
    (∀ (i : Fin 16) (target speed dwell : Nat) (c : Byte), i.val ≤ s.plan.count → target < 65536 → speed < 65536 →
      dwell < 65536 → s.holds q .planLeg tag (byteOf i.val :: be16 target ++ be16 speed ++ be16 dwell ++ [c]) →
      let leg : Leg := { target := min target 40000, speed := max 10 (min speed 400), dwell := min dwell 600,
                         continues := decide (c ≠ 0) }
      s.executes q .planLeg tag
        { result := .done, clamped := decide (40000 < target ∨ speed < 10 ∨ 400 < speed ∨ 600 < dwell), data := [] }
        fun t => t.plan = { s.plan with legs := s.plan.legs.set i leg, count := max s.plan.count (i.val + 1) } ∧
          t.retention = s.retention.triggered t.image ∧
          { t with ports := s.ports, plan := s.plan, retention := s.retention } = s) ∧
    (∀ k : Byte, k.toNat < s.plan.count → s.holds q .planCut tag [k] →
      s.executes q .planCut tag (.plain .done) fun t =>
        t.plan = { s.plan with count := k.toNat, index := min s.plan.index k.toNat } ∧
        t.retention = s.retention.triggered t.image ∧
        { t with ports := s.ports, plan := s.plan, retention := s.retention } = s) ∧
    (∀ k : Byte, k.toNat = s.plan.count → s.holds q .planCut tag [k] → s.onlyAnswers q .planCut tag (.plain .done))

/-- LIMIT_SET outside the motion phases: the value is clamped to the limit's range with the clamped flag; a record in which
W_done is above W_adv, or W_adv not below L_trip, is answered BAD_ARG; a changed value is stored and triggers a write
(R142). -/
def Obligations.LimitSetEffect : Prop :=
  ∀ (s : State) (q : PortId) (tag : Byte) (i : Fin 17) (v w : Nat), s.holder = some q → s.power = .running →
    s.phase ∉ [.approach, .lifting, .lowering, .dwell, .retracting] → v < 65536 →
    s.holds q .limitSet tag (byteOf i.val :: be16 v) →
    w = max (limitRanges.get i).1 (min v (limitRanges.get i).2) →
    let new := s.limits.set i w
    let answer : Answer := { result := .done, clamped := decide (w ≠ v), data := [] }
    (¬ (new.get 1 ≤ new.get 0 ∧ new.get 0 < new.get 2) → s.onlyAnswers q .limitSet tag (.plain .badArg)) ∧
    (new.get 1 ≤ new.get 0 → new.get 0 < new.get 2 →
      (w = s.limits.get i → s.onlyAnswers q .limitSet tag answer) ∧
      (w ≠ s.limits.get i → s.executes q .limitSet tag answer fun t =>
        t.limits = new ∧ t.retention = s.retention.triggered t.image ∧
        { t with ports := s.ports, limits := s.limits, retention := s.retention } = s))

/-! ### Segment lines -/

/-- The poll cycle timer's expiry begins a cycle, or sets the overrun flag and owes one start while a cycle is in progress, and
does nothing while an echo test stands; a cycle with no exchange left ends, which clears the overrun flag or begins the owed
cycle; the quiet-entry timer's expiry brings quiet mode and takes the creep baselines; a byte outside a reply window restarts the
idle wait (R23, R25, R35). That the restart shows in idleWaitRestarted is the model's choice (log entry 9), and so is that a byte
in an open window changes nothing by itself, since its frame comes whole with STATUS_ARRIVAL (log entry 11). That a cycle start
owed at the entry to quiet mode stays owed is the model's reading of R25 against R35 (log entry 42). That a cycle's end is decided
where the controller goes on is its reading too (log entry 12). -/
def Obligations.PollTimers : Prop :=
  ∀ (s : State) (g : SegId), s.power = .running →
    (∀ ms, (s.seg g).pollTimer = .running ms →
      ((s.seg g).echo ≠ .none → exec (.pollCycleTimerExpiry g) s = .next s) ∧
      ((s.seg g).echo = .none → (s.seg g).cycle = none → exec (.pollCycleTimerExpiry g) s = .next { s with
        segs := s.segs.set g { s.seg g with cycle := some { reached := 0, exchanged := [], probed := false } } }) ∧
      ((s.seg g).echo = .none → (s.seg g).cycle ≠ none → exec (.pollCycleTimerExpiry g) s = .next { s with
        segs := s.segs.set g { s.seg g with overrun := true, startOwed := true }
        notices := s.noticesWith .cycleOverrun })) ∧
    (∀ ms, (s.seg g).quietTimer = .running ms → exec (.quietEntryTimerExpiry g) s = .next { s with
      segs := s.segs.set g { s.seg g with mode := .quiet, quietTimer := .stopped, pollTimer := .running 100 }
      cols := .build fun p =>
        { s.col p with
          creep := if (s.entry p).any (fun e => decide (e.seg = g)) then (s.col p).height else (s.col p).creep } }) ∧
    (∀ v, ((s.seg g).inFlight = none → exec (.segmentLineByte g v) s = .next { s with
        segs := s.segs.set g { s.seg g with idleWaitRestarted := true } }) ∧
      ((s.seg g).inFlight ≠ none → exec (.segmentLineByte g v) s = .next s)) ∧
    (let sg := s.seg g
    (sg.cycle = none ∨ sg.nextExchange ≠ none → sg.goOn = sg) ∧
      (sg.cycle ≠ none → sg.nextExchange = none → sg.startOwed = true →
        sg.goOn = { sg with cycle := some { reached := 0, exchanged := [], probed := false }, startOwed := false }) ∧
      (sg.cycle ≠ none → sg.nextExchange = none → sg.startOwed = false →
        sg.goOn = { sg with cycle := none, overrun := false }))

/-- The next exchange of a cycle: a POLL of the lowest drop not yet reached that is not ABSENT, and after the last one a PROBE of
the first ABSENT drop after the pointer that has had no exchange. The toggle flips, and the COMMAND carries the demand of the
mapped position, 0 in STOPPED, in a PROBE and for a drop that is not ENROLLED. While an exchange is in flight, an ALLSTOP is owed
or an echo test stands, none is sent; an owed ALLSTOP goes once no exchange is in flight (R13, R26, R28, R32, R33, R198). The
model's readings in this: the drop and the pointer are decided at COMMAND, by the link states of that moment (log entry 12), a
waiting echo test holds the COMMAND back (log entry 13), and the pointer's own drop is looked at last (log entry 15). That a
COMMAND with no cycle and an ALLSTOP with none owed change nothing (log entry 6), and the fields idleWaitRestarted and line (log
entry 9), are the model's choice. -/
def Obligations.CommandAndAllstop : Prop :=
  ∀ (s : State) (g : SegId), s.power = .running →
    (∀ (reached : Nat) (done : List DropId),
      (s.seg g).cycle = some { reached := reached, exchanged := done, probed := false } →
      (s.seg g).inFlight = none → (s.seg g).allstopOwed = false → (s.seg g).echo = .none →
      let sent := fun (d : DropId) (kind : ExchangeKind) (page : Fin 4) (demand : Int) (next : Cycle) (pointer : DropId) =>
        let toggle := !(s.drop g d).toggle
        { s with
          segs := s.segs.set g { s.seg g with
            drops := (s.seg g).drops.set d { s.drop g d with toggle := toggle }
            inFlight := some { drop := d, kind := kind, toggle := toggle, page := page }
            cycle := some next
            discovery := pointer
            idleWaitRestarted := false
            line := some (withCrc ([byteOf (d.val + 1), (match kind with | .poll => 0x01 | .probe => 0x02),
              byteOf (toggle.toNat + 16 * page.val)] ++ signed16 demand)) } }
      let visits := fun d : DropId => reached ≤ d.val ∧ (s.drop g d).link ≠ .absent
      let probes := fun d : DropId => (s.drop g d).link = .absent ∧ d ∉ done
      (∀ d, visits d → (∀ x < d, ¬ visits x) → exec (.command g) s = .next
        (sent d .poll (s.drop g d).page
          (if s.phase = .stopped ∨ (s.drop g d).link ≠ .enrolled then 0
            else match s.mappedAt g d with
              | some p => (s.col p).demand
              | none => 0)
          { reached := d.val + 1, exchanged := d :: done, probed := false } (s.seg g).discovery)) ∧
      (∀ k : Fin 12, (∀ d, ¬ visits d) → probes ((s.seg g).discovery + k + 1) →
        (∀ j < k, ¬ probes ((s.seg g).discovery + j + 1)) → exec (.command g) s = .next
          (sent ((s.seg g).discovery + k + 1) .probe 3 0
            { reached := 12, exchanged := ((s.seg g).discovery + k + 1) :: done, probed := true }
            ((s.seg g).discovery + k + 1)))) ∧
    ((s.seg g).cycle = none ∨ (s.seg g).inFlight ≠ none ∨ (s.seg g).allstopOwed = true ∨ (s.seg g).echo ≠ .none →
      exec (.command g) s = .next s) ∧
    ((s.seg g).allstopOwed = true → (s.seg g).inFlight = none → exec (.allstop g) s = .next { s with
      segs := s.segs.set g { s.seg g with
        allstopOwed := false, idleWaitRestarted := false, line := some (withCrc [0, 0x03, 0]) } }) ∧
    ((s.seg g).allstopOwed = false ∨ (s.seg g).inFlight ≠ none → exec (.allstop g) s = .next s)

/-- A frame heard in the open window that is not the awaited STATUS leaves the controller listening. The awaited one from a drop
that no position names ends the exchange, moves the enrolment on as `State.enrols` says, and is a wake where it changes the link
state or has MOVING set; then the cycle goes on (R6, R12, R29, R36, R48, R51 to R53, R55, R59, R198). That a page counts only
where its COMMAND asked for it, and that the cycle's end is decided after the reply has been handed on, is the model's reading
(log entries 17 and 12). A frame comes whole with its command (log entry 11), and a rated load is stored as given (log entry 23).
-/
def Obligations.UnmappedReply : Prop :=
  ∀ (s : State) (g : SegId) (x : Exchange), s.power = .running → (s.seg g).inFlight = some x →
    (∀ frame : List Byte, (frame.length ≠ 14 ∨ crcBytes (frame.take 12) ≠ frame.drop 12 ∨
        byteAt frame 0 ≠ byteOf (x.drop.val + 1) ∨ byteAt frame 1 ≠ 0x04 ∨ (byteAt frame 2).getLsbD 0 ≠ x.toggle) →
      exec (.statusArrival g frame) s = .next s) ∧
    ∀ r : Report, r.height < 65536 → r.load < 65536 → s.mappedAt g x.drop = none →
      ∃ t u : State, exec (.statusArrival g (statusFrame x.drop x.toggle r)) s = .next t ∧ t = u.modSeg g Segment.goOn ∧
        s.enrols g x r (u.drop g x.drop) u.notices ∧
        (let moved := (u.drop g x.drop).link ≠ (s.drop g x.drop).link ∨ r.flags.moving = true
        (moved → (s.lineFreed g).wakes u) ∧ (¬ moved → (s.lineFreed g).rests u)) ∧
        (∀ g' d, ¬ (g' = g ∧ d = x.drop) → u.drop g' d = s.drop g' d) ∧
        (∀ p, { u.col p with creep := (s.col p).creep } = s.col p) ∧
        { u with segs := s.segs, cols := s.cols, notices := s.notices } = s

/-- A report from a mapped drop is stored in the column record, clamped with the range flag. In IDLE and STOPPED, where a mapped
drop can be in any link state, its enrolment moves on as `State.enrols` says and the column takes the drop's link state and
capability; nothing else of the column changes but the report, rel, and the demand 0 of STOPPED; the notices are those of the
enrolment, of a new range flag, a creep and a new drive fault; a change of link state, a creep and MOVING are wakes; and the
watches test the record at a change of link state and at the end. In every phase the RANGE, CREEP and COLUMN_FAULT notices, the
creep record and the return to fast polling follow the report. Outside IDLE a reported drive fault is the stop DRIVE_FAULT (R15,
R16, R18, R31, R36, R38, R46 to R48, R51 to R55, R59, R61, R120). That the creep test comes before the wake of MOVING, that the
watches test at the change too, that no approach check is made in STOPPED, and that the cycle's end is decided last, is the
model's choice (log entries 16, 18, 40 and 12). The pages are those of log entries 17 and 23. -/
def Obligations.MappedReport : Prop :=
  ∀ (s : State) (g : SegId) (x : Exchange) (r : Report) (p : Pos), s.hears g x r p →
    (s.col p).link = (s.drop g x.drop).link → (s.col p).cap = (s.drop g x.drop).cap →
    ∃ t u : State, exec (.statusArrival g (statusFrame x.drop x.toggle r)) s = .next t ∧ t = u.modSeg g Segment.goOn ∧
      let height := min r.height 40000
      (u.seg g).inFlight = none ∧
      ((s.drop g x.drop).link = .ready ∨ (s.drop g x.drop).link = .enrolled →
        u.drop g x.drop = { s.drop g x.drop with miss := 0 }) ∧
      (u.col p).height = some height ∧ (u.col p).load = some (min r.load 60000) ∧
      (u.col p).range = decide (40000 < r.height ∨ 60000 < r.load) ∧ (u.col p).flags = r.flags ∧
      let changed := decide ((u.drop g x.drop).link ≠ (s.drop g x.drop).link)
      let crept := !changed && s.creeps g p height
      (∀ c ∈ [Category.range, .creep, .columnFault], ∀ q,
        (t.notices.get q).waiting.get c.code = ((s.newsOf p r crept s.notices).get q).waiting.get c.code) ∧
      (crept = false → t.lastCreep = s.lastCreep) ∧
      (∀ b, crept = true → (s.col p).creep = some b → t.lastCreep = some { pos := p, baseline := b, height := height }) ∧
      (changed = true ∨ crept = true ∨ r.flags.moving = true →
        (∀ y, (t.col y).creep = none) ∧ ∀ z, (t.seg z).mode = .fast ∧
          (s.phase.isMotion = false → (t.seg z).quietTimer = .running 2000)) ∧
      (s.phase = .idle ∨ s.phase = .stopped →
        s.isTold u g x r p changed ∧
        (∃ n, s.enrols g x r (u.drop g x.drop) n ∧ u.notices = s.newsOf p r crept n) ∧
        { u.col p with creep := (s.col p).creep } = { s.col p with
          link := (u.drop g x.drop).link
          cap := (u.drop g x.drop).cap
          height := (u.col p).height
          load := (u.col p).load
          range := (u.col p).range
          flags := r.flags
          rel := (s.col p).contact.map fun k => (height : Int) - k
          demand := if s.phase = .stopped then 0 else (s.col p).demand } ∧
        (∀ y, y ≠ p → { u.col y with creep := (s.col y).creep } = s.col y) ∧
        u.watches = (({ u with watches := (if changed = true
          then (s.modCol p fun c => { c with link := (u.drop g x.drop).link }).testWatches p else s).watches } :
            State).testWatches p).watches ∧
        (s.phase = .idle → u.spread = s.spread ∧ u.stop = s.stop) ∧
        (s.phase = .stopped → ∀ c, u.stop.further.get c.code = true ↔ s.stop.further.get c.code = true ∨
          s.stop.recordCause ≠ some c ∧ (c = .driveFault ∧ r.flags.driveFault = true ∨
            c = .overload ∧ ∃ k, (u.col p).cap.rated = some k ∧ k < min r.load 60000)) ∧
        { u.stop with further := s.stop.further } = s.stop ∧
        { u with segs := s.segs, cols := s.cols, notices := s.notices, watches := s.watches, lastCreep := s.lastCreep,
                 spread := s.spread, stop := s.stop } = s) ∧
      (s.phase ≠ .idle → s.phase ≠ .stopped → r.flags.driveFault = true →
        t.phase = .stopped ∧ t.stop.record = some
          { cause := .driveFault, pos := some p, car := some (carOf p), value := none, phase := s.phase, h := s.ref.h,
            legIndex := s.plan.index, port := none })

/-- An arrival in LIFTING or LOWERING that no check stops: rel and the lag, the classification and the mark with the counts by
difference, the car's spread and the demand by the law of the phase; the notices of the report and its wakes, by
`State.newsOf` and `State.isTold` (R15, R36, R38), and LOAD_SHARE where a share flag asks for it. Then the completion test, which a leg
that has arrived may pass at this report, the watches' test, and the cycle goes on (R112, R120 to R126, R129). The order of creep test
and wake, and of the cycle's end, is the model's reading (log entries 16 and 12). -/
def Obligations.TrackedArrival : Prop :=
  ∀ (s : State) (g : SegId) (x : Exchange) (r : Report) (p : Pos) (contact maxSpeed rated : Nat), s.countsWell →
    s.follows g x r p contact maxSpeed rated → s.phase = .lifting ∨ s.phase = .lowering →
    (∀ c v k, ¬ s.breaches p r contact rated c v k) →
    ∃ t u : State, exec (.statusArrival g (statusFrame x.drop x.toggle r)) s = .next t ∧
      t = ((u.testCompletion).testWatches p).modSeg g Segment.goOn ∧
      let e := (s.ref.h : Int) + (s.col p).offset - ((min r.height 40000 : Nat) - contact)
      let along : Int := match s.ref.dir with
        | .up => e
        | .down => -e
      let correction := ((s.limit .kp : Int) * e).tdiv 16
      s.classifies u p contact (min r.height 40000) (if (s.limit .wAdv : Int) < along then .lag
        else if (s.limit .wAdv : Int) < -along then .ahead else .inPosition) ∧
      (u.col p).demand = (if s.phase = .lifting then max 0 (min (maxSpeed : Int) ((s.ref.vEff : Int) + correction))
        else max (-(maxSpeed : Int)) (min 0 (-(s.ref.vEff : Int) + correction))) ∧
      (s.phase = .lowering → ∀ y, (u.col y).share = (s.col y).share) ∧
      s.isTold u g x r p false ∧
      (let news := s.newsOf p r (s.creeps g p (min r.height 40000)) s.notices
      u.notices = news ∨ s.phase = .lifting ∧ u.notices = news.map (NoticeState.raised .loadShare)) ∧
      { u with segs := s.segs, cols := s.cols, notices := s.notices, holdCount := s.holdCount, outCount := s.outCount,
               spread := s.spread, lastCreep := s.lastCreep } = s

/-- An arrival in DWELL or HOLDING that no check stops: the same, with the classification by the magnitude of the lag. The demand is
0, but for a jog in progress in HOLDING: there it is the correction within plus or minus the smaller of v_app and the max speed,
until the lag is within W_done, where the jog ends with demand 0, and the last jog's end triggers the write of the new offsets (R120
to R124, R126, R127, R129, R139). The notices of the report and its wakes are as in a leg: in HOLDING a quiet line makes the creep
test, and a creep wakes every segment (R15, R36, R38; the order by log entries 16 and 12). -/
def Obligations.HeldArrival : Prop :=
  ∀ (s : State) (g : SegId) (x : Exchange) (r : Report) (p : Pos) (contact maxSpeed rated : Nat), s.countsWell →
    s.follows g x r p contact maxSpeed rated → s.phase = .dwell ∨ s.phase = .holding →
    (∀ c v k, ¬ s.breaches p r contact rated c v k) →
    ∃ t u : State, exec (.statusArrival g (statusFrame x.drop x.toggle r)) s = .next t ∧
      t = (u.testWatches p).modSeg g Segment.goOn ∧
      let e := (s.ref.h : Int) + (s.col p).offset - ((min r.height 40000 : Nat) - contact)
      let bound : Int := (min (s.limit .vApp) maxSpeed : Nat)
      let jogged := s.phase = .holding ∧ (s.col p).jog = true
      s.classifies u p contact (min r.height 40000) (if s.limit .wAdv < e.natAbs then .lag else .inPosition) ∧
      (¬ jogged → (u.col p).demand = 0 ∧ (u.col p).jog = (s.col p).jog ∧ u.retention = s.retention) ∧
      (jogged → s.limit .wDone < e.natAbs → (u.col p).jog = true ∧ u.retention = s.retention ∧
        (u.col p).demand = max (-bound) (min bound (((s.limit .kp : Int) * e).tdiv 16))) ∧
      (jogged → e.natAbs ≤ s.limit .wDone → (u.col p).jog = false ∧ (u.col p).demand = 0 ∧
        u.retention = if ∃ y, y ≠ p ∧ (s.col y).jog = true then s.retention else s.retention.triggered s.image) ∧
      s.isTold u g x r p false ∧
      (let news := s.newsOf p r (s.creeps g p (min r.height 40000)) s.notices
      u.notices = news ∨ u.notices = news.map (NoticeState.raised .loadShare)) ∧
      { u with segs := s.segs, cols := s.cols, notices := s.notices, holdCount := s.holdCount, outCount := s.outCount,
               spread := s.spread, lastCreep := s.lastCreep, retention := s.retention } = s

/-- A breach of a check at an arrival in a tracked phase stops the group: LAG, CAR_SPREAD, ARTICULATION, OVERLOAD, LOAD_LOST and
DRIVE_LIMIT, all made on the arrival's values. The first in that order is the stop record, with the column, the car and the value of
its check, every other one joins the further causes, every demand is 0, STOP_OUT opens and an ALLSTOP is owed on every segment (R121,
R129 to R135, R148, R149). -/
def Obligations.BreachStops : Prop :=
  ∀ (s : State) (g : SegId) (x : Exchange) (r : Report) (p : Pos) (contact maxSpeed rated : Nat),
    s.follows g x r p contact maxSpeed rated → s.phase ∈ [.lifting, .lowering, .dwell, .holding] →
    ∀ (c : StopCause) (v : Int) (k : CarId), s.breaches p r contact rated c v k →
      (∀ c' v' k', s.breaches p r contact rated c' v' k' → c.code ≤ c'.code) →
      ∃ t, exec (.statusArrival g (statusFrame x.drop x.toggle r)) s = .next t ∧ t.phase = .stopped ∧
        t.stop.record = some { cause := c, pos := some p, car := some k, value := some v, phase := s.phase, h := s.ref.h,
                               legIndex := s.plan.index, port := none } ∧
        (∀ c', t.stop.further.get c'.code = true ↔ c' ≠ c ∧ ∃ v' k', s.breaches p r contact rated c' v' k') ∧
        (∀ y, (t.col y).demand = 0) ∧ t.stop.stopOut = .opened ∧ (∀ z, (t.seg z).allstopOwed = true) ∧
        (t.col p).rel = some ((min r.height 40000 : Nat) - contact) ∧ t.ref.vEff = 0 ∧ t.holdCount = 0 ∧ t.outCount = 0 ∧
        t.retention = s.retention.triggered s.image ∧
        ∀ q, (s.notices.get q).enabled.get Category.trip.code = true →
          (t.notices.get q).waiting.get Category.trip.code = true

/-- An arrival in ALIGNED, LANDED or STOPPED without a drive fault: rel, the car's spread and demand 0. A load above the rated
load is the stop OVERLOAD, and in STOPPED it joins the further causes; a column whose rated load is absent is not checked (R120,
R128, R131, R133, R149). Where no first stop is taken, the report's notices, creep test and wakes are those of `State.newsOf` and
`State.isTold` (R15, R36, R38), and the watches test the record at the end. The order of creep test, wake and cycle's end, and
that no approach check is made in STOPPED, is the model's reading (log entries 16, 12 and 40). The pages are those of log entries
17 and 23. -/
def Obligations.RestArrival : Prop :=
  ∀ (s : State) (g : SegId) (x : Exchange) (r : Report) (p : Pos), s.hears g x r p → r.flags.driveFault = false →
    s.phase ∈ [.aligned, .landed, .stopped] →
    ∃ t u : State, exec (.statusArrival g (statusFrame x.drop x.toggle r)) s = .next t ∧
      t = (u.testWatches p).modSeg g Segment.goOn ∧
      let rel := (s.col p).contact.map fun k => ((min r.height 40000 : Nat) : Int) - k
      let load := min r.load 60000
      let overload := ∃ rated, (t.col p).cap.rated = some rated ∧ rated < load
      (t.col p).rel = rel ∧ (t.col p).contact = (s.col p).contact ∧ (t.col p).demand = 0 ∧
      (∀ n, t.spread.get (carOf p) = some n ↔ spreadIs (fun y => if y = p then rel else (s.col y).rel) (carOf p) n) ∧
      (∀ c, c ≠ carOf p → t.spread.get c = s.spread.get c) ∧
      (¬ overload ∨ s.phase = .stopped →
        let changed := decide ((u.drop g x.drop).link ≠ (s.drop g x.drop).link)
        s.isTold u g x r p changed ∧
        (∃ n, s.enrols g x r (u.drop g x.drop) n ∧
          u.notices = s.newsOf p r (!changed && s.creeps g p (min r.height 40000)) n) ∧
        (changed = false → u.watches = s.watches) ∧
        { u with segs := s.segs, cols := s.cols, notices := s.notices, watches := s.watches, lastCreep := s.lastCreep,
                 spread := s.spread, stop := s.stop } = s) ∧
      (¬ overload → t.phase = s.phase ∧ t.stop = s.stop ∧ t.retention = s.retention ∧ t.ref = s.ref ∧
        ∀ y, y ≠ p → { t.col y with creep := (s.col y).creep } = s.col y) ∧
      (overload → s.phase ≠ .stopped → t.phase = .stopped ∧ (∀ y, (t.col y).demand = 0) ∧ t.stop.stopOut = .opened ∧
        (∀ c, t.stop.further.get c = false) ∧ t.stop.record = some
          { cause := .overload, pos := some p, car := some (carOf p), value := some (load : Int), phase := s.phase,
            h := s.ref.h, legIndex := s.plan.index, port := none }) ∧
      (∀ k, overload → s.phase = .stopped → s.stop.record = some k → t.phase = .stopped ∧ t.stop =
        { s.stop with further := if k.cause = .overload then s.stop.further
                                 else s.stop.further.set StopCause.overload.code true })

/-- The load shares at an arrival in LIFTING, DWELL or HOLDING. With the four loads present and their total 4 × C or more, each column
of the car has its share of the total as a whole percent, and its share flag follows it with the hysteresis of 2 points; LOAD_SHARE
is raised exactly when a flag goes from clear to set. Otherwise, and for every other car, the flags stay (R136, R137). -/
def Obligations.LoadShares : Prop :=
  ∀ (s : State) (g : SegId) (x : Exchange) (r : Report) (p : Pos) (contact maxSpeed rated : Nat),
    s.follows g x r p contact maxSpeed rated → s.phase ∈ [.lifting, .dwell, .holding] →
    ∃ t, exec (.statusArrival g (statusFrame x.drop x.toggle r)) s = .next t ∧
      let load := fun y => if y = p then some (min r.load 60000) else (s.col y).load
      let least := s.limit .shareMin
      let most := s.limit .shareMax
      (∀ y, carOf y ≠ carOf p → (t.col y).share = (s.col y).share) ∧
      (∀ a b c d total : Nat, load (posOf (carOf p) 0) = some a → load (posOf (carOf p) 1) = some b →
        load (posOf (carOf p) 2) = some c → load (posOf (carOf p) 3) = some d → total = a + b + c + d →
        (total < 4 * s.limit .contactLoad → ∀ y, (t.col y).share = (s.col y).share) ∧
        (4 * s.limit .contactLoad ≤ total → ∀ y l share, carOf y = carOf p → load y = some l → share = l * 100 / total →
          ((s.col y).share = false → ((t.col y).share = true ↔ share < least ∨ most < share)) ∧
          ((s.col y).share = true → ((t.col y).share = false ↔ least + 2 ≤ share ∧ share + 2 ≤ most)))) ∧
      ((∃ i, load (posOf (carOf p) i) = none) → ∀ y, (t.col y).share = (s.col y).share) ∧
      ∀ q, (t.notices.get q).waiting.get Category.loadShare.code = true ↔
        (s.notices.get q).waiting.get Category.loadShare.code = true ∨
          (s.notices.get q).enabled.get Category.loadShare.code = true ∧
            ∃ y, (s.col y).share = false ∧ (t.col y).share = true

/-- An arrival in APPROACH and in RETRACTING. In APPROACH a load of C or more records the contact height, with demand 0, and the
last contact brings ALIGNED with the reference at 0; below C an upper limit or a travel beyond the limit is a stop, and otherwise
the column rises at the smaller of v_app and its max speed. An arrival in RETRACTING: a column at its lower limit, or low enough
and unloaded, is parked, and the last one brings IDLE; otherwise it goes down, and a column that is parked already stays parked
with demand 0 (R86 to R97). Where the phase stays, nothing else changes but by the notices of the report, its creep test and its
wakes (R15, R36, R38; the order by log entries 16 and 12). -/
def Obligations.ContactAndParking : Prop :=
  ∀ (s : State) (g : SegId) (x : Exchange) (r : Report) (p : Pos) (maxSpeed rated height load : Nat), s.power = .running →
    (s.seg g).inFlight = some x → s.mappedAt g x.drop = some p → (s.drop g x.drop).link = .enrolled →
    (s.col p).cap.maxSpeed = some maxSpeed → (s.col p).cap.rated = some rated → r.height < 65536 → r.load < 65536 →
    r.flags.driveFault = false → height = min r.height 40000 → load = min r.load 60000 →
    ∃ t u : State, exec (.statusArrival g (statusFrame x.drop x.toggle r)) s = .next t ∧
      t = (u.testWatches p).modSeg g Segment.goOn ∧
      let speed := min (s.limit .vApp) maxSpeed
      let stops := fun (cause : StopCause) (value : Int) => t.phase = .stopped ∧ (t.col p).demand = 0 ∧ t.stop.record = some
        { cause := cause, pos := some p, car := some (carOf p), value := some value, phase := s.phase, h := s.ref.h,
          legIndex := s.plan.index, port := none }
      let others := fun test : Column → Prop => ∀ y, y ≠ p → s.validPos y = true → test (s.col y)
      (s.phase = .approach ∨ s.phase = .retracting → rated < load → stops .overload load) ∧
      (s.phase = .approach → load ≤ rated →
        let travel : Int := (height : Int) - (s.starts.get p).getD height
        ((s.col p).contact = none → s.limit .contactLoad ≤ load →
          (t.col p).contact = some height ∧ (t.col p).rel = some 0 ∧ (t.col p).demand = 0 ∧ (t.col p).mark = false ∧
          (others (fun c => c.contact.isSome = true) → t.phase = .aligned ∧ t.ref.h = 0 ∧ t.ref.fine = 0 ∧
            t.plan.index = 0 ∧ (t.col p).cls = .none ∧ (t.col p).lag = none) ∧
          (¬ others (fun c => c.contact.isSome = true) → t.phase = .approach ∧ (t.col p).cls = .inPosition ∧
            (t.col p).lag = some 0)) ∧
        ((s.col p).contact = none → load < s.limit .contactLoad →
          (r.flags.upperLimit = true → stops .driveLimit height) ∧
          (r.flags.upperLimit = false → (s.limit .travel : Int) < travel → stops .noContact travel) ∧
          (r.flags.upperLimit = false → travel ≤ s.limit .travel → t.phase = .approach ∧ (t.col p).demand = speed ∧
            (t.col p).contact = none ∧ t.starts.get p = some ((s.starts.get p).getD height))) ∧
        (∀ k, (s.col p).contact = some k → t.phase = .approach ∧ (t.col p).demand = 0 ∧ (t.col p).contact = some k)) ∧
      (∀ k, s.phase = .retracting → load ≤ rated → (s.col p).contact = some k → (s.col p).parked = false →
        let low := (height : Int) ≤ (k : Int) - s.limit .retractDistance ∧ load < s.limit .releaseLoad
        (r.flags.lowerLimit = true ∨ low →
          (others (fun c => c.parked = true) → t.phase = .idle ∧ (∀ y, (t.col y).parked = false ∧
            (t.col y).contact = none ∧ (t.col y).offset = 0 ∧ (t.col y).demand = 0) ∧ t.ref.target = none) ∧
          (¬ others (fun c => c.parked = true) → t.phase = .retracting ∧ (t.col p).parked = true ∧
            (t.col p).demand = 0)) ∧
        (r.flags.lowerLimit = false → ¬ low → r.flags.upperLimit = true → stops .driveLimit height) ∧
        (r.flags.lowerLimit = false → ¬ low → r.flags.upperLimit = false →
          t.phase = .retracting ∧ (t.col p).demand = -(speed : Int) ∧ (t.col p).parked = false)) ∧
      (s.phase = .retracting → load ≤ rated → (s.col p).parked = true →
        t.phase = .retracting ∧ (t.col p).demand = 0 ∧ (t.col p).parked = true) ∧
      (s.phase = .approach ∨ s.phase = .retracting → t.phase = s.phase →
        s.isTold u g x r p false ∧ u.notices = s.newsOf p r (s.creeps g p height) s.notices ∧
        (∀ y, y ≠ p → { u.col y with creep := (s.col y).creep } = s.col y) ∧
        { u with segs := s.segs, cols := s.cols, notices := s.notices, lastCreep := s.lastCreep, starts := s.starts,
                 holdCount := s.holdCount, outCount := s.outCount } = s)

/-- The window closes with no acceptable reply: a PROBE changes no drop; a missed POLL counts up to 3, takes a SETTLING or PAGING
drop to ABSENT at once and a READY or REFUSED one at the third, and an ENROLLED one at the third to LOST, with the latch and
COLUMN_LOST, and outside IDLE the stop COLUMN_LOST, which in STOPPED joins the further causes. Then the cycle goes on. The settle
timer's expiry takes a SETTLING drop to PAGING at page 0. A change of link state is a wake, and the watches test the mapped
position (R30, R31, R36, R37, R46, R47, R49, R54, R56, R58, R149, R183). That the watches test at the change inside the event,
that the cycle's end is decided last, and what an echo test aborted in WAITING by the stop gives way to, is the model's reading
(log entries 18, 12, 14). That a REPLY_WINDOW_CLOSE with no exchange in flight, and a SETTLE_TIMER_EXPIRY outside SETTLING or of a
stopped timer, change nothing is the model's choice (log entry 6). -/
def Obligations.MissesAndSettling : Prop :=
  ∀ (s : State) (g : SegId) (d : DropId), s.power = .running →
    ((s.seg g).inFlight = none → exec (.replyWindowClose g) s = .next s) ∧
    (∀ x, (s.seg g).inFlight = some x → x.drop = d →
      ∃ t u v : State, exec (.replyWindowClose g) s = .next t ∧ t = u.modSeg g Segment.goOn ∧ (v.seg g).inFlight = none ∧
        let old := s.drop g d
        let gone : Drop := { old with link := .absent, miss := 0, settle := .stopped, page := 3, cap := Capability.empty }
        let counted : Drop := { old with miss := min 3 (old.miss + 1) }
        let lost := x.kind = .poll ∧ old.link = .enrolled ∧ 2 ≤ old.miss
        let moved := (v.drop g d).link ≠ old.link
        (x.kind = .probe ∨ old.link = .absent → v.drop g d = old) ∧
        (x.kind = .poll →
          (old.link = .settling ∨ old.link = .paging → v.drop g d = gone) ∧
          (old.link = .ready ∨ old.link = .refused → v.drop g d = if 2 ≤ old.miss then gone else counted) ∧
          (old.link = .enrolled → old.miss < 2 → v.drop g d = counted) ∧
          (old.link = .lost → v.drop g d = counted)) ∧
        (lost → v.drop g d = { old with link := .lost, miss := 3, settle := .stopped, page := 3 } ∧
          v.notices = s.noticesWith .columnLost) ∧
        (¬ lost → v.notices = s.notices) ∧
        (∀ g' d', ¬ (g' = g ∧ d' = d) → v.drop g' d' = s.drop g' d') ∧
        (moved → (s.lineFreed g).wakes v) ∧ (¬ moved → (s.lineFreed g).rests v) ∧
        (∀ y, s.mappedAt g d = some y → moved →
          { v.col y with creep := (s.col y).creep, wasLost := (s.col y).wasLost } = { s.col y with
            link := (v.drop g d).link, cap := (v.drop g d).cap } ∧
          (lost → (v.col y).wasLost = true) ∧ (¬ lost → (v.col y).wasLost = (s.col y).wasLost) ∧
          v.watches = (({ v with watches := s.watches } : State).testWatches y).watches) ∧
        (∀ y, s.mappedAt g d ≠ some y ∨ ¬ moved → { v.col y with creep := (s.col y).creep } = s.col y) ∧
        (s.mappedAt g d = none ∨ ¬ moved → v.watches = s.watches) ∧
        { v with segs := s.segs, cols := s.cols, watches := s.watches, notices := s.notices } = s ∧
        (¬ lost ∨ s.phase = .idle ∨ s.mappedAt g d = none → u = v) ∧
        (∀ y, lost → s.mappedAt g d = some y →
          (s.phase = .stopped → u = { v with stop := { s.stop with
            further := if s.stop.recordCause = some .columnLost then s.stop.further
                       else s.stop.further.set StopCause.columnLost.code true } }) ∧
          (s.phase ≠ .idle → s.phase ≠ .stopped → v.takesFirstStop u (columnOffer .columnLost y none)))) ∧
    (∀ ms, (s.drop g d).link = .settling → (s.drop g d).settle = .running ms →
      ∃ t, exec (.settleTimerExpiry g d) s = .next t ∧
        t.drop g d = { s.drop g d with link := .paging, settle := .stopped, page := 0 } ∧
        (∀ g' d', ¬ (g' = g ∧ d' = d) → t.drop g' d' = s.drop g' d') ∧ s.wakes t ∧
        (∀ y, s.mappedAt g d = some y → { t.col y with creep := (s.col y).creep } = { s.col y with
          link := .paging, cap := (s.drop g d).cap } ∧
          t.watches = (({ t with watches := s.watches } : State).testWatches y).watches) ∧
        (∀ y, s.mappedAt g d ≠ some y → { t.col y with creep := (s.col y).creep } = s.col y) ∧
        (s.mappedAt g d = none → t.watches = s.watches) ∧
        { t with segs := s.segs, cols := s.cols, watches := s.watches } = s) ∧
    ((s.drop g d).link ≠ .settling ∨ (s.drop g d).settle = .stopped → exec (.settleTimerExpiry g d) s = .next s)

/-- ECHO from the holder: its checks in order; then on a free line the test runs at once with polling suspended, and otherwise it
is WAITING until the line is free, where its start is its own command (log entry 13); each pulse is classed by its largest
reflection; after the sixteenth the class held by the most pulses, the average delay and the distance are the result, ECHO_DONE is
raised and polling resumes (R39 to R43). That ECHO_TEST_RUNNING changes nothing while the line is not free is the model's choice
(log entry 6). -/
def Obligations.EchoTestRuns : Prop :=
  ∀ (s : State) (g : SegId) (cable : Fin 3), s.power = .running →
    let started := fun s : State => ({ s with
      segs := s.segs.set g { s.seg g with
        echo := .running cable []
        cycle := none
        startOwed := false
        drops := (s.seg g).drops.map fun d => if d.link = .settling then { d with settle := .stopped } else d } } : State)
    (∀ (q : PortId) (tag : Byte), s.holder = some q → s.holds q .echo tag [byteOf (g.val + 1), byteOf cable.val] →
      let barred := s.phase ≠ .idle ∧ ∃ d, (s.drop g d).link = .enrolled
      (barred → s.onlyAnswers q .echo tag (.plain .wrongPhase)) ∧
      (¬ barred → (∃ z, (s.seg z).echo ≠ .none) → s.onlyAnswers q .echo tag (.plain .busy)) ∧
      (¬ barred → (∀ z, (s.seg z).echo = .none) → s.executes q .echo tag (.plain .done) fun t =>
        ((s.seg g).inFlight = none → (s.seg g).allstopOwed = false → { t with ports := s.ports } = started s) ∧
        ((s.seg g).inFlight ≠ none ∨ (s.seg g).allstopOwed = true →
          { t with ports := s.ports } = { s with segs := s.segs.set g { s.seg g with echo := .waiting cable } }))) ∧
    (∀ (q : PortId) (tag : Byte) (args : List Byte), s.holder = some q → s.holds q .echo tag args →
      (¬ ∃ (z : SegId) (c : Fin 3), args = [byteOf (z.val + 1), byteOf c.val]) →
      s.onlyAnswers q .echo tag (.plain .badArg)) ∧
    ((s.seg g).echo = .waiting cable →
      ((s.seg g).inFlight = none → (s.seg g).allstopOwed = false → exec (.echoTestRunning g) s = .next (started s)) ∧
      ((s.seg g).inFlight ≠ none ∨ (s.seg g).allstopOwed = true → exec (.echoTestRunning g) s = .next s)) ∧
    (∀ pulses, (s.seg g).echo = .running cable pulses →
      (∀ (r : Reflection) (c : EchoClass), pulses.length < 16 →
        (r.strength = .aboveDetection → c = match r.polarity with
          | .same => .openCircuit
          | .opposite => .short) →
        (r.strength = .betweenThresholds → c = .uncertain) → (r.strength = .belowWeak → c = .matched) →
        exec (.echoPulse g r) s = .next { s with
          segs := s.segs.set g { s.seg g with echo := .running cable (pulses ++ [⟨c, r.delay⟩]) } }) ∧
      (pulses.length = 16 →
        let number := fun c : EchoClass => pulses.countP fun x => decide (x.cls = c)
        let most := fun c : EchoClass => ∀ y ∈ [EchoClass.openCircuit, .short, .uncertain, .matched], y ≠ c →
          number y < number c
        let average := (pulses.map fun x => x.delay).sum / 16
        ∃ (t : State) (res : EchoResult), exec (.echoTestEnd g) s = .next t ∧ (t.seg g).lastEcho = some res ∧
          res.cable = cable ∧ (∀ c ∈ [EchoClass.openCircuit, .short, .matched], res.cls = c ↔ most c) ∧
          ((∀ c ∈ [EchoClass.openCircuit, .short, .matched], ¬ most c) → res.cls = .uncertain) ∧
          res.counts = some { openCircuit := number .openCircuit, short := number .short,
                              uncertain := number .uncertain, matched := number .matched } ∧
          res.average = some average ∧
          (∀ factor : Nat, (res.cls = .openCircuit → factor = match cable with | 0 => 486 | 1 => 492 | 2 => 480) →
            (res.cls = .short → factor = match cable with | 0 => 500 | 1 => 505 | 2 => 494) →
            res.distance = if res.cls = .openCircuit ∨ res.cls = .short then
              (if 10000 < average * factor / 100 then .far else .decimetres (average * factor / 100)) else .missing) ∧
          t.lastEcho = some g ∧ t.notices = s.noticesWith .echoDone ∧
          t.segs = s.segs.set g { s.seg g with
            echo := .none
            lastEcho := some res
            pollTimer := .running (match (s.seg g).mode with | .fast => 5 | .quiet => 100)
            cycle := some { reached := 0, exchanged := [], probed := false }
            drops := (s.seg g).drops.map fun d => if d.link = .settling then { d with settle := .running 500 } else d } ∧
          { t with segs := s.segs, notices := s.notices, lastEcho := s.lastEcho } = s))

/-! ### The laws that every step keeps -/

/-- Every step keeps the laws of the stations: the FIFO bounds, the flow control, the bounds of a held request, the authority, the
notices and the watches (R160 to R164, R169, R175, R181, R182). -/
def Obligations.StepKeepsStationLaws : Prop :=
  ∀ s t : State, s.stationsSafe → step s = .next t → t.stationsSafe

/-- Every step keeps the laws of the stop unit, the two counts and the demand law, where every column shows its drop's link state
(R46) and the group's phases have their columns (R63): each demand fits the phase, lies within the drive's max speed and is 0 without
enrolment (R13, R124, R128, R145, R149, R150, R152). -/
def Obligations.StepKeepsStopAndDemandLaws : Prop :=
  ∀ s t : State, s.stopsSafe → s.countsWell → s.mirrored → s.groupReady → s.demandsLawful → step s = .next t →
    t.stopsSafe ∧ t.countsWell ∧ t.demandsLawful

/-- Every step from a safe state gives a safe state: all the laws of the package's Safety file together. -/
def Obligations.StepKeepsSafe : Prop :=
  ∀ s t : State, s.safe → step s = .next t → t.safe
end

