-- ==== Sys2Proof/Laws/Table.lean ====
section
/-! SUPPORT. The laws of a table: what is read after a write, a fill, a build and a map, and how a count changes. -/

namespace Sys2Proof

variable {α β : Type} {n : Nat}

@[ext] theorem Table.ext_get {t u : Table α n} (h : ∀ i, t.get i = u.get i) : t = u := by
  obtain ⟨r, hr⟩ := t
  obtain ⟨r', hr'⟩ := u
  have : r = r' := by
    apply List.ext_getElem (hr.trans hr'.symm)
    intro i h1 h2
    exact h ⟨i, hr ▸ h1⟩
  subst this
  rfl

@[simp] theorem Table.get_fill (a : α) (i : Fin n) : (Table.fill n a).get i = a := by
  simp [Table.get, Table.fill]

@[simp] theorem Table.get_build (f : Fin n → α) (i : Fin n) : (Table.build f).get i = f i := by
  simp [Table.get, Table.build]

@[simp] theorem Table.get_map (f : α → β) (t : Table α n) (i : Fin n) : (t.map f).get i = f (t.get i) := by
  simp [Table.get, Table.map]

@[simp] theorem Table.get_set_self (t : Table α n) (i : Fin n) (a : α) : (t.set i a).get i = a := by
  simp [Table.get, Table.set]

theorem Table.get_set_of_ne (t : Table α n) {i j : Fin n} (a : α) (h : j ≠ i) : (t.set i a).get j = t.get j := by
  have : i.val ≠ j.val := fun e => h (Fin.ext e.symm)
  simp [Table.get, Table.set, this]

theorem Table.get_set (t : Table α n) (i j : Fin n) (a : α) : (t.set i a).get j = if j = i then a else t.get j := by
  split
  · next h => subst h; simp
  · next h => exact t.get_set_of_ne a h

@[simp] theorem Table.get_modify_self (t : Table α n) (i : Fin n) (f : α → α) : (t.modify i f).get i = f (t.get i) := by
  simp [Table.modify]

theorem Table.get_modify_of_ne (t : Table α n) {i j : Fin n} (f : α → α) (h : j ≠ i) :
    (t.modify i f).get j = t.get j :=
  t.get_set_of_ne _ h

theorem Table.get_modify (t : Table α n) (i j : Fin n) (f : α → α) :
    (t.modify i f).get j = if j = i then f (t.get j) else t.get j := by
  split
  · next h => subst h; simp
  · next h => exact t.get_modify_of_ne f h

@[simp] theorem Table.set_get_self (t : Table α n) (i : Fin n) : t.set i (t.get i) = t := by
  ext j
  rw [Table.get_set]
  split
  · next h => rw [h]
  · rfl

/-- The rows of a table are its entries in order. -/
theorem Table.rows_eq (t : Table α n) : t.rows = List.ofFn t.get := by
  obtain ⟨r, hr⟩ := t
  subst hr
  exact List.ofFn_getElem.symm

/-- A property of every row is one of every entry. -/
theorem Table.mem_rows {t : Table α n} {a : α} : a ∈ t.rows ↔ ∃ i, t.get i = a := by
  rw [Table.rows_eq, List.mem_ofFn]

/-- The count after a write: one row leaves it and one comes in. -/
theorem Table.count_set (t : Table α n) (i : Fin n) (a : α) (f : α → Bool) :
    (t.set i a).count f + (f (t.get i)).toNat = t.count f + (f a).toNat := by
  obtain ⟨r, hr⟩ := t
  subst hr
  have hi : i.val < r.length := i.isLt
  have h := List.countP_set (p := f) (l := r) (i := i.val) (a := a) hi
  have hpos : f r[i.val] = true → 0 < r.countP f := fun e =>
    List.countP_pos_iff.mpr ⟨_, List.getElem_mem hi, e⟩
  simp only [Table.count, Table.set, Table.get, h]
  cases h1 : f r[i.val] <;> cases h2 : f a <;> simp_all

/-- A count at most the number of rows that satisfy it: a satisfied entry makes it positive. -/
theorem Table.count_pos (t : Table α n) (i : Fin n) (f : α → Bool) (h : f (t.get i) = true) : 0 < t.count f :=
  List.countP_pos_iff.mpr ⟨_, List.getElem_mem _, h⟩

theorem Table.count_congr {t : Table α n} {u : Table β n} {f : α → Bool} {g : β → Bool}
    (h : ∀ i, f (t.get i) = g (u.get i)) : t.count f = u.count g := by
  have : t.rows.map f = u.rows.map g := by
    rw [Table.rows_eq, Table.rows_eq, List.map_ofFn, List.map_ofFn]
    exact congrArg List.ofFn (funext h)
  have e : (t.rows.map f).countP id = (u.rows.map g).countP id := by rw [this]
  simpa [Table.count, List.countP_map] using e

theorem Table.count_eq_zero (t : Table α n) (f : α → Bool) (h : ∀ i, f (t.get i) = false) : t.count f = 0 := by
  rw [Table.count, List.countP_eq_zero]
  intro a ha
  obtain ⟨i, rfl⟩ := Table.mem_rows.mp ha
  simp [h i]

theorem Table.count_le (t : Table α n) (f : α → Bool) : t.count f ≤ n := by
  rw [Table.count]
  exact Nat.le_trans List.countP_le_length (Nat.le_of_eq t.size)

end Sys2Proof
end

