-- ==== Sys2Proof/Laws/State.lean ====
section
/-! SUPPORT. The fields that each named update of the state leaves alone, one lemma a field an update, so that no later proof
unfolds a record update. -/

namespace Sys2Proof.Machine

/-! `State.modPort` changes only: ports. -/

@[simp] theorem State.modPort_power (s : State) (q : PortId) (f : Port → Port) :
    (s.modPort q f).power = s.power := rfl

@[simp] theorem State.modPort_baud (s : State) (q : PortId) (f : Port → Port) :
    (s.modPort q f).baud = s.baud := rfl

@[simp] theorem State.modPort_holder (s : State) (q : PortId) (f : Port → Port) :
    (s.modPort q f).holder = s.holder := rfl

@[simp] theorem State.modPort_lapse (s : State) (q : PortId) (f : Port → Port) :
    (s.modPort q f).lapse = s.lapse := rfl

@[simp] theorem State.modPort_roster (s : State) (q : PortId) (f : Port → Port) :
    (s.modPort q f).roster = s.roster := rfl

@[simp] theorem State.modPort_segs (s : State) (q : PortId) (f : Port → Port) :
    (s.modPort q f).segs = s.segs := rfl

@[simp] theorem State.modPort_cols (s : State) (q : PortId) (f : Port → Port) :
    (s.modPort q f).cols = s.cols := rfl

@[simp] theorem State.modPort_starts (s : State) (q : PortId) (f : Port → Port) :
    (s.modPort q f).starts = s.starts := rfl

@[simp] theorem State.modPort_phase (s : State) (q : PortId) (f : Port → Port) :
    (s.modPort q f).phase = s.phase := rfl

@[simp] theorem State.modPort_pausePending (s : State) (q : PortId) (f : Port → Port) :
    (s.modPort q f).pausePending = s.pausePending := rfl

@[simp] theorem State.modPort_plan (s : State) (q : PortId) (f : Port → Port) :
    (s.modPort q f).plan = s.plan := rfl

@[simp] theorem State.modPort_ref (s : State) (q : PortId) (f : Port → Port) :
    (s.modPort q f).ref = s.ref := rfl

@[simp] theorem State.modPort_holdCount (s : State) (q : PortId) (f : Port → Port) :
    (s.modPort q f).holdCount = s.holdCount := rfl

@[simp] theorem State.modPort_outCount (s : State) (q : PortId) (f : Port → Port) :
    (s.modPort q f).outCount = s.outCount := rfl

@[simp] theorem State.modPort_spread (s : State) (q : PortId) (f : Port → Port) :
    (s.modPort q f).spread = s.spread := rfl

@[simp] theorem State.modPort_limits (s : State) (q : PortId) (f : Port → Port) :
    (s.modPort q f).limits = s.limits := rfl

@[simp] theorem State.modPort_stop (s : State) (q : PortId) (f : Port → Port) :
    (s.modPort q f).stop = s.stop := rfl

@[simp] theorem State.modPort_notices (s : State) (q : PortId) (f : Port → Port) :
    (s.modPort q f).notices = s.notices := rfl

@[simp] theorem State.modPort_watches (s : State) (q : PortId) (f : Port → Port) :
    (s.modPort q f).watches = s.watches := rfl

@[simp] theorem State.modPort_lastCreep (s : State) (q : PortId) (f : Port → Port) :
    (s.modPort q f).lastCreep = s.lastCreep := rfl

@[simp] theorem State.modPort_lastEcho (s : State) (q : PortId) (f : Port → Port) :
    (s.modPort q f).lastEcho = s.lastEcho := rfl

@[simp] theorem State.modPort_retention (s : State) (q : PortId) (f : Port → Port) :
    (s.modPort q f).retention = s.retention := rfl

@[simp] theorem State.modPort_pending (s : State) (q : PortId) (f : Port → Port) :
    (s.modPort q f).pending = s.pending := rfl

@[simp] theorem State.modPort_fresh (s : State) (q : PortId) (f : Port → Port) :
    (s.modPort q f).fresh = s.fresh := rfl

/-! `State.modSeg` changes only: segs. -/

@[simp] theorem State.modSeg_power (s : State) (g : SegId) (f : Segment → Segment) :
    (s.modSeg g f).power = s.power := rfl

@[simp] theorem State.modSeg_baud (s : State) (g : SegId) (f : Segment → Segment) :
    (s.modSeg g f).baud = s.baud := rfl

@[simp] theorem State.modSeg_ports (s : State) (g : SegId) (f : Segment → Segment) :
    (s.modSeg g f).ports = s.ports := rfl

@[simp] theorem State.modSeg_holder (s : State) (g : SegId) (f : Segment → Segment) :
    (s.modSeg g f).holder = s.holder := rfl

@[simp] theorem State.modSeg_lapse (s : State) (g : SegId) (f : Segment → Segment) :
    (s.modSeg g f).lapse = s.lapse := rfl

@[simp] theorem State.modSeg_roster (s : State) (g : SegId) (f : Segment → Segment) :
    (s.modSeg g f).roster = s.roster := rfl

@[simp] theorem State.modSeg_cols (s : State) (g : SegId) (f : Segment → Segment) :
    (s.modSeg g f).cols = s.cols := rfl

@[simp] theorem State.modSeg_starts (s : State) (g : SegId) (f : Segment → Segment) :
    (s.modSeg g f).starts = s.starts := rfl

@[simp] theorem State.modSeg_phase (s : State) (g : SegId) (f : Segment → Segment) :
    (s.modSeg g f).phase = s.phase := rfl

@[simp] theorem State.modSeg_pausePending (s : State) (g : SegId) (f : Segment → Segment) :
    (s.modSeg g f).pausePending = s.pausePending := rfl

@[simp] theorem State.modSeg_plan (s : State) (g : SegId) (f : Segment → Segment) :
    (s.modSeg g f).plan = s.plan := rfl

@[simp] theorem State.modSeg_ref (s : State) (g : SegId) (f : Segment → Segment) :
    (s.modSeg g f).ref = s.ref := rfl

@[simp] theorem State.modSeg_holdCount (s : State) (g : SegId) (f : Segment → Segment) :
    (s.modSeg g f).holdCount = s.holdCount := rfl

@[simp] theorem State.modSeg_outCount (s : State) (g : SegId) (f : Segment → Segment) :
    (s.modSeg g f).outCount = s.outCount := rfl

@[simp] theorem State.modSeg_spread (s : State) (g : SegId) (f : Segment → Segment) :
    (s.modSeg g f).spread = s.spread := rfl

@[simp] theorem State.modSeg_limits (s : State) (g : SegId) (f : Segment → Segment) :
    (s.modSeg g f).limits = s.limits := rfl

@[simp] theorem State.modSeg_stop (s : State) (g : SegId) (f : Segment → Segment) :
    (s.modSeg g f).stop = s.stop := rfl

@[simp] theorem State.modSeg_notices (s : State) (g : SegId) (f : Segment → Segment) :
    (s.modSeg g f).notices = s.notices := rfl

@[simp] theorem State.modSeg_watches (s : State) (g : SegId) (f : Segment → Segment) :
    (s.modSeg g f).watches = s.watches := rfl

@[simp] theorem State.modSeg_lastCreep (s : State) (g : SegId) (f : Segment → Segment) :
    (s.modSeg g f).lastCreep = s.lastCreep := rfl

@[simp] theorem State.modSeg_lastEcho (s : State) (g : SegId) (f : Segment → Segment) :
    (s.modSeg g f).lastEcho = s.lastEcho := rfl

@[simp] theorem State.modSeg_retention (s : State) (g : SegId) (f : Segment → Segment) :
    (s.modSeg g f).retention = s.retention := rfl

@[simp] theorem State.modSeg_pending (s : State) (g : SegId) (f : Segment → Segment) :
    (s.modSeg g f).pending = s.pending := rfl

@[simp] theorem State.modSeg_fresh (s : State) (g : SegId) (f : Segment → Segment) :
    (s.modSeg g f).fresh = s.fresh := rfl

/-! `State.mapSegs` changes only: segs. -/

@[simp] theorem State.mapSegs_power (s : State) (f : Segment → Segment) :
    (s.mapSegs f).power = s.power := rfl

@[simp] theorem State.mapSegs_baud (s : State) (f : Segment → Segment) :
    (s.mapSegs f).baud = s.baud := rfl

@[simp] theorem State.mapSegs_ports (s : State) (f : Segment → Segment) :
    (s.mapSegs f).ports = s.ports := rfl

@[simp] theorem State.mapSegs_holder (s : State) (f : Segment → Segment) :
    (s.mapSegs f).holder = s.holder := rfl

@[simp] theorem State.mapSegs_lapse (s : State) (f : Segment → Segment) :
    (s.mapSegs f).lapse = s.lapse := rfl

@[simp] theorem State.mapSegs_roster (s : State) (f : Segment → Segment) :
    (s.mapSegs f).roster = s.roster := rfl

@[simp] theorem State.mapSegs_cols (s : State) (f : Segment → Segment) :
    (s.mapSegs f).cols = s.cols := rfl

@[simp] theorem State.mapSegs_starts (s : State) (f : Segment → Segment) :
    (s.mapSegs f).starts = s.starts := rfl

@[simp] theorem State.mapSegs_phase (s : State) (f : Segment → Segment) :
    (s.mapSegs f).phase = s.phase := rfl

@[simp] theorem State.mapSegs_pausePending (s : State) (f : Segment → Segment) :
    (s.mapSegs f).pausePending = s.pausePending := rfl

@[simp] theorem State.mapSegs_plan (s : State) (f : Segment → Segment) :
    (s.mapSegs f).plan = s.plan := rfl

@[simp] theorem State.mapSegs_ref (s : State) (f : Segment → Segment) :
    (s.mapSegs f).ref = s.ref := rfl

@[simp] theorem State.mapSegs_holdCount (s : State) (f : Segment → Segment) :
    (s.mapSegs f).holdCount = s.holdCount := rfl

@[simp] theorem State.mapSegs_outCount (s : State) (f : Segment → Segment) :
    (s.mapSegs f).outCount = s.outCount := rfl

@[simp] theorem State.mapSegs_spread (s : State) (f : Segment → Segment) :
    (s.mapSegs f).spread = s.spread := rfl

@[simp] theorem State.mapSegs_limits (s : State) (f : Segment → Segment) :
    (s.mapSegs f).limits = s.limits := rfl

@[simp] theorem State.mapSegs_stop (s : State) (f : Segment → Segment) :
    (s.mapSegs f).stop = s.stop := rfl

@[simp] theorem State.mapSegs_notices (s : State) (f : Segment → Segment) :
    (s.mapSegs f).notices = s.notices := rfl

@[simp] theorem State.mapSegs_watches (s : State) (f : Segment → Segment) :
    (s.mapSegs f).watches = s.watches := rfl

@[simp] theorem State.mapSegs_lastCreep (s : State) (f : Segment → Segment) :
    (s.mapSegs f).lastCreep = s.lastCreep := rfl

@[simp] theorem State.mapSegs_lastEcho (s : State) (f : Segment → Segment) :
    (s.mapSegs f).lastEcho = s.lastEcho := rfl

@[simp] theorem State.mapSegs_retention (s : State) (f : Segment → Segment) :
    (s.mapSegs f).retention = s.retention := rfl

@[simp] theorem State.mapSegs_pending (s : State) (f : Segment → Segment) :
    (s.mapSegs f).pending = s.pending := rfl

@[simp] theorem State.mapSegs_fresh (s : State) (f : Segment → Segment) :
    (s.mapSegs f).fresh = s.fresh := rfl

/-! `State.modDrop` changes only: segs. -/

@[simp] theorem State.modDrop_power (s : State) (g : SegId) (d : DropId) (f : Drop → Drop) :
    (s.modDrop g d f).power = s.power := rfl

@[simp] theorem State.modDrop_baud (s : State) (g : SegId) (d : DropId) (f : Drop → Drop) :
    (s.modDrop g d f).baud = s.baud := rfl

@[simp] theorem State.modDrop_ports (s : State) (g : SegId) (d : DropId) (f : Drop → Drop) :
    (s.modDrop g d f).ports = s.ports := rfl

@[simp] theorem State.modDrop_holder (s : State) (g : SegId) (d : DropId) (f : Drop → Drop) :
    (s.modDrop g d f).holder = s.holder := rfl

@[simp] theorem State.modDrop_lapse (s : State) (g : SegId) (d : DropId) (f : Drop → Drop) :
    (s.modDrop g d f).lapse = s.lapse := rfl

@[simp] theorem State.modDrop_roster (s : State) (g : SegId) (d : DropId) (f : Drop → Drop) :
    (s.modDrop g d f).roster = s.roster := rfl

@[simp] theorem State.modDrop_cols (s : State) (g : SegId) (d : DropId) (f : Drop → Drop) :
    (s.modDrop g d f).cols = s.cols := rfl

@[simp] theorem State.modDrop_starts (s : State) (g : SegId) (d : DropId) (f : Drop → Drop) :
    (s.modDrop g d f).starts = s.starts := rfl

@[simp] theorem State.modDrop_phase (s : State) (g : SegId) (d : DropId) (f : Drop → Drop) :
    (s.modDrop g d f).phase = s.phase := rfl

@[simp] theorem State.modDrop_pausePending (s : State) (g : SegId) (d : DropId) (f : Drop → Drop) :
    (s.modDrop g d f).pausePending = s.pausePending := rfl

@[simp] theorem State.modDrop_plan (s : State) (g : SegId) (d : DropId) (f : Drop → Drop) :
    (s.modDrop g d f).plan = s.plan := rfl

@[simp] theorem State.modDrop_ref (s : State) (g : SegId) (d : DropId) (f : Drop → Drop) :
    (s.modDrop g d f).ref = s.ref := rfl

@[simp] theorem State.modDrop_holdCount (s : State) (g : SegId) (d : DropId) (f : Drop → Drop) :
    (s.modDrop g d f).holdCount = s.holdCount := rfl

@[simp] theorem State.modDrop_outCount (s : State) (g : SegId) (d : DropId) (f : Drop → Drop) :
    (s.modDrop g d f).outCount = s.outCount := rfl

@[simp] theorem State.modDrop_spread (s : State) (g : SegId) (d : DropId) (f : Drop → Drop) :
    (s.modDrop g d f).spread = s.spread := rfl

@[simp] theorem State.modDrop_limits (s : State) (g : SegId) (d : DropId) (f : Drop → Drop) :
    (s.modDrop g d f).limits = s.limits := rfl

@[simp] theorem State.modDrop_stop (s : State) (g : SegId) (d : DropId) (f : Drop → Drop) :
    (s.modDrop g d f).stop = s.stop := rfl

@[simp] theorem State.modDrop_notices (s : State) (g : SegId) (d : DropId) (f : Drop → Drop) :
    (s.modDrop g d f).notices = s.notices := rfl

@[simp] theorem State.modDrop_watches (s : State) (g : SegId) (d : DropId) (f : Drop → Drop) :
    (s.modDrop g d f).watches = s.watches := rfl

@[simp] theorem State.modDrop_lastCreep (s : State) (g : SegId) (d : DropId) (f : Drop → Drop) :
    (s.modDrop g d f).lastCreep = s.lastCreep := rfl

@[simp] theorem State.modDrop_lastEcho (s : State) (g : SegId) (d : DropId) (f : Drop → Drop) :
    (s.modDrop g d f).lastEcho = s.lastEcho := rfl

@[simp] theorem State.modDrop_retention (s : State) (g : SegId) (d : DropId) (f : Drop → Drop) :
    (s.modDrop g d f).retention = s.retention := rfl

@[simp] theorem State.modDrop_pending (s : State) (g : SegId) (d : DropId) (f : Drop → Drop) :
    (s.modDrop g d f).pending = s.pending := rfl

@[simp] theorem State.modDrop_fresh (s : State) (g : SegId) (d : DropId) (f : Drop → Drop) :
    (s.modDrop g d f).fresh = s.fresh := rfl

/-! `State.modCol` changes only: cols. -/

@[simp] theorem State.modCol_power (s : State) (p : Pos) (f : Column → Column) :
    (s.modCol p f).power = s.power := rfl

@[simp] theorem State.modCol_baud (s : State) (p : Pos) (f : Column → Column) :
    (s.modCol p f).baud = s.baud := rfl

@[simp] theorem State.modCol_ports (s : State) (p : Pos) (f : Column → Column) :
    (s.modCol p f).ports = s.ports := rfl

@[simp] theorem State.modCol_holder (s : State) (p : Pos) (f : Column → Column) :
    (s.modCol p f).holder = s.holder := rfl

@[simp] theorem State.modCol_lapse (s : State) (p : Pos) (f : Column → Column) :
    (s.modCol p f).lapse = s.lapse := rfl

@[simp] theorem State.modCol_roster (s : State) (p : Pos) (f : Column → Column) :
    (s.modCol p f).roster = s.roster := rfl

@[simp] theorem State.modCol_segs (s : State) (p : Pos) (f : Column → Column) :
    (s.modCol p f).segs = s.segs := rfl

@[simp] theorem State.modCol_starts (s : State) (p : Pos) (f : Column → Column) :
    (s.modCol p f).starts = s.starts := rfl

@[simp] theorem State.modCol_phase (s : State) (p : Pos) (f : Column → Column) :
    (s.modCol p f).phase = s.phase := rfl

@[simp] theorem State.modCol_pausePending (s : State) (p : Pos) (f : Column → Column) :
    (s.modCol p f).pausePending = s.pausePending := rfl

@[simp] theorem State.modCol_plan (s : State) (p : Pos) (f : Column → Column) :
    (s.modCol p f).plan = s.plan := rfl

@[simp] theorem State.modCol_ref (s : State) (p : Pos) (f : Column → Column) :
    (s.modCol p f).ref = s.ref := rfl

@[simp] theorem State.modCol_holdCount (s : State) (p : Pos) (f : Column → Column) :
    (s.modCol p f).holdCount = s.holdCount := rfl

@[simp] theorem State.modCol_outCount (s : State) (p : Pos) (f : Column → Column) :
    (s.modCol p f).outCount = s.outCount := rfl

@[simp] theorem State.modCol_spread (s : State) (p : Pos) (f : Column → Column) :
    (s.modCol p f).spread = s.spread := rfl

@[simp] theorem State.modCol_limits (s : State) (p : Pos) (f : Column → Column) :
    (s.modCol p f).limits = s.limits := rfl

@[simp] theorem State.modCol_stop (s : State) (p : Pos) (f : Column → Column) :
    (s.modCol p f).stop = s.stop := rfl

@[simp] theorem State.modCol_notices (s : State) (p : Pos) (f : Column → Column) :
    (s.modCol p f).notices = s.notices := rfl

@[simp] theorem State.modCol_watches (s : State) (p : Pos) (f : Column → Column) :
    (s.modCol p f).watches = s.watches := rfl

@[simp] theorem State.modCol_lastCreep (s : State) (p : Pos) (f : Column → Column) :
    (s.modCol p f).lastCreep = s.lastCreep := rfl

@[simp] theorem State.modCol_lastEcho (s : State) (p : Pos) (f : Column → Column) :
    (s.modCol p f).lastEcho = s.lastEcho := rfl

@[simp] theorem State.modCol_retention (s : State) (p : Pos) (f : Column → Column) :
    (s.modCol p f).retention = s.retention := rfl

@[simp] theorem State.modCol_pending (s : State) (p : Pos) (f : Column → Column) :
    (s.modCol p f).pending = s.pending := rfl

@[simp] theorem State.modCol_fresh (s : State) (p : Pos) (f : Column → Column) :
    (s.modCol p f).fresh = s.fresh := rfl

/-! `State.mapCols` changes only: cols. -/

@[simp] theorem State.mapCols_power (s : State) (f : Column → Column) :
    (s.mapCols f).power = s.power := rfl

@[simp] theorem State.mapCols_baud (s : State) (f : Column → Column) :
    (s.mapCols f).baud = s.baud := rfl

@[simp] theorem State.mapCols_ports (s : State) (f : Column → Column) :
    (s.mapCols f).ports = s.ports := rfl

@[simp] theorem State.mapCols_holder (s : State) (f : Column → Column) :
    (s.mapCols f).holder = s.holder := rfl

@[simp] theorem State.mapCols_lapse (s : State) (f : Column → Column) :
    (s.mapCols f).lapse = s.lapse := rfl

@[simp] theorem State.mapCols_roster (s : State) (f : Column → Column) :
    (s.mapCols f).roster = s.roster := rfl

@[simp] theorem State.mapCols_segs (s : State) (f : Column → Column) :
    (s.mapCols f).segs = s.segs := rfl

@[simp] theorem State.mapCols_starts (s : State) (f : Column → Column) :
    (s.mapCols f).starts = s.starts := rfl

@[simp] theorem State.mapCols_phase (s : State) (f : Column → Column) :
    (s.mapCols f).phase = s.phase := rfl

@[simp] theorem State.mapCols_pausePending (s : State) (f : Column → Column) :
    (s.mapCols f).pausePending = s.pausePending := rfl

@[simp] theorem State.mapCols_plan (s : State) (f : Column → Column) :
    (s.mapCols f).plan = s.plan := rfl

@[simp] theorem State.mapCols_ref (s : State) (f : Column → Column) :
    (s.mapCols f).ref = s.ref := rfl

@[simp] theorem State.mapCols_holdCount (s : State) (f : Column → Column) :
    (s.mapCols f).holdCount = s.holdCount := rfl

@[simp] theorem State.mapCols_outCount (s : State) (f : Column → Column) :
    (s.mapCols f).outCount = s.outCount := rfl

@[simp] theorem State.mapCols_spread (s : State) (f : Column → Column) :
    (s.mapCols f).spread = s.spread := rfl

@[simp] theorem State.mapCols_limits (s : State) (f : Column → Column) :
    (s.mapCols f).limits = s.limits := rfl

@[simp] theorem State.mapCols_stop (s : State) (f : Column → Column) :
    (s.mapCols f).stop = s.stop := rfl

@[simp] theorem State.mapCols_notices (s : State) (f : Column → Column) :
    (s.mapCols f).notices = s.notices := rfl

@[simp] theorem State.mapCols_watches (s : State) (f : Column → Column) :
    (s.mapCols f).watches = s.watches := rfl

@[simp] theorem State.mapCols_lastCreep (s : State) (f : Column → Column) :
    (s.mapCols f).lastCreep = s.lastCreep := rfl

@[simp] theorem State.mapCols_lastEcho (s : State) (f : Column → Column) :
    (s.mapCols f).lastEcho = s.lastEcho := rfl

@[simp] theorem State.mapCols_retention (s : State) (f : Column → Column) :
    (s.mapCols f).retention = s.retention := rfl

@[simp] theorem State.mapCols_pending (s : State) (f : Column → Column) :
    (s.mapCols f).pending = s.pending := rfl

@[simp] theorem State.mapCols_fresh (s : State) (f : Column → Column) :
    (s.mapCols f).fresh = s.fresh := rfl

/-! `State.modNotices` changes only: notices. -/

@[simp] theorem State.modNotices_power (s : State) (q : PortId) (f : NoticeState → NoticeState) :
    (s.modNotices q f).power = s.power := rfl

@[simp] theorem State.modNotices_baud (s : State) (q : PortId) (f : NoticeState → NoticeState) :
    (s.modNotices q f).baud = s.baud := rfl

@[simp] theorem State.modNotices_ports (s : State) (q : PortId) (f : NoticeState → NoticeState) :
    (s.modNotices q f).ports = s.ports := rfl

@[simp] theorem State.modNotices_holder (s : State) (q : PortId) (f : NoticeState → NoticeState) :
    (s.modNotices q f).holder = s.holder := rfl

@[simp] theorem State.modNotices_lapse (s : State) (q : PortId) (f : NoticeState → NoticeState) :
    (s.modNotices q f).lapse = s.lapse := rfl

@[simp] theorem State.modNotices_roster (s : State) (q : PortId) (f : NoticeState → NoticeState) :
    (s.modNotices q f).roster = s.roster := rfl

@[simp] theorem State.modNotices_segs (s : State) (q : PortId) (f : NoticeState → NoticeState) :
    (s.modNotices q f).segs = s.segs := rfl

@[simp] theorem State.modNotices_cols (s : State) (q : PortId) (f : NoticeState → NoticeState) :
    (s.modNotices q f).cols = s.cols := rfl

@[simp] theorem State.modNotices_starts (s : State) (q : PortId) (f : NoticeState → NoticeState) :
    (s.modNotices q f).starts = s.starts := rfl

@[simp] theorem State.modNotices_phase (s : State) (q : PortId) (f : NoticeState → NoticeState) :
    (s.modNotices q f).phase = s.phase := rfl

@[simp] theorem State.modNotices_pausePending (s : State) (q : PortId) (f : NoticeState → NoticeState) :
    (s.modNotices q f).pausePending = s.pausePending := rfl

@[simp] theorem State.modNotices_plan (s : State) (q : PortId) (f : NoticeState → NoticeState) :
    (s.modNotices q f).plan = s.plan := rfl

@[simp] theorem State.modNotices_ref (s : State) (q : PortId) (f : NoticeState → NoticeState) :
    (s.modNotices q f).ref = s.ref := rfl

@[simp] theorem State.modNotices_holdCount (s : State) (q : PortId) (f : NoticeState → NoticeState) :
    (s.modNotices q f).holdCount = s.holdCount := rfl

@[simp] theorem State.modNotices_outCount (s : State) (q : PortId) (f : NoticeState → NoticeState) :
    (s.modNotices q f).outCount = s.outCount := rfl

@[simp] theorem State.modNotices_spread (s : State) (q : PortId) (f : NoticeState → NoticeState) :
    (s.modNotices q f).spread = s.spread := rfl

@[simp] theorem State.modNotices_limits (s : State) (q : PortId) (f : NoticeState → NoticeState) :
    (s.modNotices q f).limits = s.limits := rfl

@[simp] theorem State.modNotices_stop (s : State) (q : PortId) (f : NoticeState → NoticeState) :
    (s.modNotices q f).stop = s.stop := rfl

@[simp] theorem State.modNotices_watches (s : State) (q : PortId) (f : NoticeState → NoticeState) :
    (s.modNotices q f).watches = s.watches := rfl

@[simp] theorem State.modNotices_lastCreep (s : State) (q : PortId) (f : NoticeState → NoticeState) :
    (s.modNotices q f).lastCreep = s.lastCreep := rfl

@[simp] theorem State.modNotices_lastEcho (s : State) (q : PortId) (f : NoticeState → NoticeState) :
    (s.modNotices q f).lastEcho = s.lastEcho := rfl

@[simp] theorem State.modNotices_retention (s : State) (q : PortId) (f : NoticeState → NoticeState) :
    (s.modNotices q f).retention = s.retention := rfl

@[simp] theorem State.modNotices_pending (s : State) (q : PortId) (f : NoticeState → NoticeState) :
    (s.modNotices q f).pending = s.pending := rfl

@[simp] theorem State.modNotices_fresh (s : State) (q : PortId) (f : NoticeState → NoticeState) :
    (s.modNotices q f).fresh = s.fresh := rfl

/-! `State.modWatch` changes only: watches. -/

@[simp] theorem State.modWatch_power (s : State) (q : PortId) (f : WatchState → WatchState) :
    (s.modWatch q f).power = s.power := rfl

@[simp] theorem State.modWatch_baud (s : State) (q : PortId) (f : WatchState → WatchState) :
    (s.modWatch q f).baud = s.baud := rfl

@[simp] theorem State.modWatch_ports (s : State) (q : PortId) (f : WatchState → WatchState) :
    (s.modWatch q f).ports = s.ports := rfl

@[simp] theorem State.modWatch_holder (s : State) (q : PortId) (f : WatchState → WatchState) :
    (s.modWatch q f).holder = s.holder := rfl

@[simp] theorem State.modWatch_lapse (s : State) (q : PortId) (f : WatchState → WatchState) :
    (s.modWatch q f).lapse = s.lapse := rfl

@[simp] theorem State.modWatch_roster (s : State) (q : PortId) (f : WatchState → WatchState) :
    (s.modWatch q f).roster = s.roster := rfl

@[simp] theorem State.modWatch_segs (s : State) (q : PortId) (f : WatchState → WatchState) :
    (s.modWatch q f).segs = s.segs := rfl

@[simp] theorem State.modWatch_cols (s : State) (q : PortId) (f : WatchState → WatchState) :
    (s.modWatch q f).cols = s.cols := rfl

@[simp] theorem State.modWatch_starts (s : State) (q : PortId) (f : WatchState → WatchState) :
    (s.modWatch q f).starts = s.starts := rfl

@[simp] theorem State.modWatch_phase (s : State) (q : PortId) (f : WatchState → WatchState) :
    (s.modWatch q f).phase = s.phase := rfl

@[simp] theorem State.modWatch_pausePending (s : State) (q : PortId) (f : WatchState → WatchState) :
    (s.modWatch q f).pausePending = s.pausePending := rfl

@[simp] theorem State.modWatch_plan (s : State) (q : PortId) (f : WatchState → WatchState) :
    (s.modWatch q f).plan = s.plan := rfl

@[simp] theorem State.modWatch_ref (s : State) (q : PortId) (f : WatchState → WatchState) :
    (s.modWatch q f).ref = s.ref := rfl

@[simp] theorem State.modWatch_holdCount (s : State) (q : PortId) (f : WatchState → WatchState) :
    (s.modWatch q f).holdCount = s.holdCount := rfl

@[simp] theorem State.modWatch_outCount (s : State) (q : PortId) (f : WatchState → WatchState) :
    (s.modWatch q f).outCount = s.outCount := rfl

@[simp] theorem State.modWatch_spread (s : State) (q : PortId) (f : WatchState → WatchState) :
    (s.modWatch q f).spread = s.spread := rfl

@[simp] theorem State.modWatch_limits (s : State) (q : PortId) (f : WatchState → WatchState) :
    (s.modWatch q f).limits = s.limits := rfl

@[simp] theorem State.modWatch_stop (s : State) (q : PortId) (f : WatchState → WatchState) :
    (s.modWatch q f).stop = s.stop := rfl

@[simp] theorem State.modWatch_notices (s : State) (q : PortId) (f : WatchState → WatchState) :
    (s.modWatch q f).notices = s.notices := rfl

@[simp] theorem State.modWatch_lastCreep (s : State) (q : PortId) (f : WatchState → WatchState) :
    (s.modWatch q f).lastCreep = s.lastCreep := rfl

@[simp] theorem State.modWatch_lastEcho (s : State) (q : PortId) (f : WatchState → WatchState) :
    (s.modWatch q f).lastEcho = s.lastEcho := rfl

@[simp] theorem State.modWatch_retention (s : State) (q : PortId) (f : WatchState → WatchState) :
    (s.modWatch q f).retention = s.retention := rfl

@[simp] theorem State.modWatch_pending (s : State) (q : PortId) (f : WatchState → WatchState) :
    (s.modWatch q f).pending = s.pending := rfl

@[simp] theorem State.modWatch_fresh (s : State) (q : PortId) (f : WatchState → WatchState) :
    (s.modWatch q f).fresh = s.fresh := rfl

/-! `State.setDemand` changes only: cols. -/

@[simp] theorem State.setDemand_power (s : State) (p : Pos) (v : Int) :
    (s.setDemand p v).power = s.power := rfl

@[simp] theorem State.setDemand_baud (s : State) (p : Pos) (v : Int) :
    (s.setDemand p v).baud = s.baud := rfl

@[simp] theorem State.setDemand_ports (s : State) (p : Pos) (v : Int) :
    (s.setDemand p v).ports = s.ports := rfl

@[simp] theorem State.setDemand_holder (s : State) (p : Pos) (v : Int) :
    (s.setDemand p v).holder = s.holder := rfl

@[simp] theorem State.setDemand_lapse (s : State) (p : Pos) (v : Int) :
    (s.setDemand p v).lapse = s.lapse := rfl

@[simp] theorem State.setDemand_roster (s : State) (p : Pos) (v : Int) :
    (s.setDemand p v).roster = s.roster := rfl

@[simp] theorem State.setDemand_segs (s : State) (p : Pos) (v : Int) :
    (s.setDemand p v).segs = s.segs := rfl

@[simp] theorem State.setDemand_starts (s : State) (p : Pos) (v : Int) :
    (s.setDemand p v).starts = s.starts := rfl

@[simp] theorem State.setDemand_phase (s : State) (p : Pos) (v : Int) :
    (s.setDemand p v).phase = s.phase := rfl

@[simp] theorem State.setDemand_pausePending (s : State) (p : Pos) (v : Int) :
    (s.setDemand p v).pausePending = s.pausePending := rfl

@[simp] theorem State.setDemand_plan (s : State) (p : Pos) (v : Int) :
    (s.setDemand p v).plan = s.plan := rfl

@[simp] theorem State.setDemand_ref (s : State) (p : Pos) (v : Int) :
    (s.setDemand p v).ref = s.ref := rfl

@[simp] theorem State.setDemand_holdCount (s : State) (p : Pos) (v : Int) :
    (s.setDemand p v).holdCount = s.holdCount := rfl

@[simp] theorem State.setDemand_outCount (s : State) (p : Pos) (v : Int) :
    (s.setDemand p v).outCount = s.outCount := rfl

@[simp] theorem State.setDemand_spread (s : State) (p : Pos) (v : Int) :
    (s.setDemand p v).spread = s.spread := rfl

@[simp] theorem State.setDemand_limits (s : State) (p : Pos) (v : Int) :
    (s.setDemand p v).limits = s.limits := rfl

@[simp] theorem State.setDemand_stop (s : State) (p : Pos) (v : Int) :
    (s.setDemand p v).stop = s.stop := rfl

@[simp] theorem State.setDemand_notices (s : State) (p : Pos) (v : Int) :
    (s.setDemand p v).notices = s.notices := rfl

@[simp] theorem State.setDemand_watches (s : State) (p : Pos) (v : Int) :
    (s.setDemand p v).watches = s.watches := rfl

@[simp] theorem State.setDemand_lastCreep (s : State) (p : Pos) (v : Int) :
    (s.setDemand p v).lastCreep = s.lastCreep := rfl

@[simp] theorem State.setDemand_lastEcho (s : State) (p : Pos) (v : Int) :
    (s.setDemand p v).lastEcho = s.lastEcho := rfl

@[simp] theorem State.setDemand_retention (s : State) (p : Pos) (v : Int) :
    (s.setDemand p v).retention = s.retention := rfl

@[simp] theorem State.setDemand_pending (s : State) (p : Pos) (v : Int) :
    (s.setDemand p v).pending = s.pending := rfl

@[simp] theorem State.setDemand_fresh (s : State) (p : Pos) (v : Int) :
    (s.setDemand p v).fresh = s.fresh := rfl

/-! `State.spendFresh` changes only: fresh. -/

@[simp] theorem State.spendFresh_power (s : State) :
    s.spendFresh.power = s.power := rfl

@[simp] theorem State.spendFresh_baud (s : State) :
    s.spendFresh.baud = s.baud := rfl

@[simp] theorem State.spendFresh_ports (s : State) :
    s.spendFresh.ports = s.ports := rfl

@[simp] theorem State.spendFresh_holder (s : State) :
    s.spendFresh.holder = s.holder := rfl

@[simp] theorem State.spendFresh_lapse (s : State) :
    s.spendFresh.lapse = s.lapse := rfl

@[simp] theorem State.spendFresh_roster (s : State) :
    s.spendFresh.roster = s.roster := rfl

@[simp] theorem State.spendFresh_segs (s : State) :
    s.spendFresh.segs = s.segs := rfl

@[simp] theorem State.spendFresh_cols (s : State) :
    s.spendFresh.cols = s.cols := rfl

@[simp] theorem State.spendFresh_starts (s : State) :
    s.spendFresh.starts = s.starts := rfl

@[simp] theorem State.spendFresh_phase (s : State) :
    s.spendFresh.phase = s.phase := rfl

@[simp] theorem State.spendFresh_pausePending (s : State) :
    s.spendFresh.pausePending = s.pausePending := rfl

@[simp] theorem State.spendFresh_plan (s : State) :
    s.spendFresh.plan = s.plan := rfl

@[simp] theorem State.spendFresh_ref (s : State) :
    s.spendFresh.ref = s.ref := rfl

@[simp] theorem State.spendFresh_holdCount (s : State) :
    s.spendFresh.holdCount = s.holdCount := rfl

@[simp] theorem State.spendFresh_outCount (s : State) :
    s.spendFresh.outCount = s.outCount := rfl

@[simp] theorem State.spendFresh_spread (s : State) :
    s.spendFresh.spread = s.spread := rfl

@[simp] theorem State.spendFresh_limits (s : State) :
    s.spendFresh.limits = s.limits := rfl

@[simp] theorem State.spendFresh_stop (s : State) :
    s.spendFresh.stop = s.stop := rfl

@[simp] theorem State.spendFresh_notices (s : State) :
    s.spendFresh.notices = s.notices := rfl

@[simp] theorem State.spendFresh_watches (s : State) :
    s.spendFresh.watches = s.watches := rfl

@[simp] theorem State.spendFresh_lastCreep (s : State) :
    s.spendFresh.lastCreep = s.lastCreep := rfl

@[simp] theorem State.spendFresh_lastEcho (s : State) :
    s.spendFresh.lastEcho = s.lastEcho := rfl

@[simp] theorem State.spendFresh_retention (s : State) :
    s.spendFresh.retention = s.retention := rfl

@[simp] theorem State.spendFresh_pending (s : State) :
    s.spendFresh.pending = s.pending := rfl

/-! `State.raise` changes only: notices. -/

@[simp] theorem State.raise_power (s : State) (c : Category) :
    (s.raise c).power = s.power := rfl

@[simp] theorem State.raise_baud (s : State) (c : Category) :
    (s.raise c).baud = s.baud := rfl

@[simp] theorem State.raise_ports (s : State) (c : Category) :
    (s.raise c).ports = s.ports := rfl

@[simp] theorem State.raise_holder (s : State) (c : Category) :
    (s.raise c).holder = s.holder := rfl

@[simp] theorem State.raise_lapse (s : State) (c : Category) :
    (s.raise c).lapse = s.lapse := rfl

@[simp] theorem State.raise_roster (s : State) (c : Category) :
    (s.raise c).roster = s.roster := rfl

@[simp] theorem State.raise_segs (s : State) (c : Category) :
    (s.raise c).segs = s.segs := rfl

@[simp] theorem State.raise_cols (s : State) (c : Category) :
    (s.raise c).cols = s.cols := rfl

@[simp] theorem State.raise_starts (s : State) (c : Category) :
    (s.raise c).starts = s.starts := rfl

@[simp] theorem State.raise_phase (s : State) (c : Category) :
    (s.raise c).phase = s.phase := rfl

@[simp] theorem State.raise_pausePending (s : State) (c : Category) :
    (s.raise c).pausePending = s.pausePending := rfl

@[simp] theorem State.raise_plan (s : State) (c : Category) :
    (s.raise c).plan = s.plan := rfl

@[simp] theorem State.raise_ref (s : State) (c : Category) :
    (s.raise c).ref = s.ref := rfl

@[simp] theorem State.raise_holdCount (s : State) (c : Category) :
    (s.raise c).holdCount = s.holdCount := rfl

@[simp] theorem State.raise_outCount (s : State) (c : Category) :
    (s.raise c).outCount = s.outCount := rfl

@[simp] theorem State.raise_spread (s : State) (c : Category) :
    (s.raise c).spread = s.spread := rfl

@[simp] theorem State.raise_limits (s : State) (c : Category) :
    (s.raise c).limits = s.limits := rfl

@[simp] theorem State.raise_stop (s : State) (c : Category) :
    (s.raise c).stop = s.stop := rfl

@[simp] theorem State.raise_watches (s : State) (c : Category) :
    (s.raise c).watches = s.watches := rfl

@[simp] theorem State.raise_lastCreep (s : State) (c : Category) :
    (s.raise c).lastCreep = s.lastCreep := rfl

@[simp] theorem State.raise_lastEcho (s : State) (c : Category) :
    (s.raise c).lastEcho = s.lastEcho := rfl

@[simp] theorem State.raise_retention (s : State) (c : Category) :
    (s.raise c).retention = s.retention := rfl

@[simp] theorem State.raise_pending (s : State) (c : Category) :
    (s.raise c).pending = s.pending := rfl

@[simp] theorem State.raise_fresh (s : State) (c : Category) :
    (s.raise c).fresh = s.fresh := rfl

/-! `State.raiseIfAny` changes only: notices. -/

@[simp] theorem State.raiseIfAny_power (s : State) (c : Option Category) :
    (s.raiseIfAny c).power = s.power := by
  unfold State.raiseIfAny
  split <;> rfl

@[simp] theorem State.raiseIfAny_baud (s : State) (c : Option Category) :
    (s.raiseIfAny c).baud = s.baud := by
  unfold State.raiseIfAny
  split <;> rfl

@[simp] theorem State.raiseIfAny_ports (s : State) (c : Option Category) :
    (s.raiseIfAny c).ports = s.ports := by
  unfold State.raiseIfAny
  split <;> rfl

@[simp] theorem State.raiseIfAny_holder (s : State) (c : Option Category) :
    (s.raiseIfAny c).holder = s.holder := by
  unfold State.raiseIfAny
  split <;> rfl

@[simp] theorem State.raiseIfAny_lapse (s : State) (c : Option Category) :
    (s.raiseIfAny c).lapse = s.lapse := by
  unfold State.raiseIfAny
  split <;> rfl

@[simp] theorem State.raiseIfAny_roster (s : State) (c : Option Category) :
    (s.raiseIfAny c).roster = s.roster := by
  unfold State.raiseIfAny
  split <;> rfl

@[simp] theorem State.raiseIfAny_segs (s : State) (c : Option Category) :
    (s.raiseIfAny c).segs = s.segs := by
  unfold State.raiseIfAny
  split <;> rfl

@[simp] theorem State.raiseIfAny_cols (s : State) (c : Option Category) :
    (s.raiseIfAny c).cols = s.cols := by
  unfold State.raiseIfAny
  split <;> rfl

@[simp] theorem State.raiseIfAny_starts (s : State) (c : Option Category) :
    (s.raiseIfAny c).starts = s.starts := by
  unfold State.raiseIfAny
  split <;> rfl

@[simp] theorem State.raiseIfAny_phase (s : State) (c : Option Category) :
    (s.raiseIfAny c).phase = s.phase := by
  unfold State.raiseIfAny
  split <;> rfl

@[simp] theorem State.raiseIfAny_pausePending (s : State) (c : Option Category) :
    (s.raiseIfAny c).pausePending = s.pausePending := by
  unfold State.raiseIfAny
  split <;> rfl

@[simp] theorem State.raiseIfAny_plan (s : State) (c : Option Category) :
    (s.raiseIfAny c).plan = s.plan := by
  unfold State.raiseIfAny
  split <;> rfl

@[simp] theorem State.raiseIfAny_ref (s : State) (c : Option Category) :
    (s.raiseIfAny c).ref = s.ref := by
  unfold State.raiseIfAny
  split <;> rfl

@[simp] theorem State.raiseIfAny_holdCount (s : State) (c : Option Category) :
    (s.raiseIfAny c).holdCount = s.holdCount := by
  unfold State.raiseIfAny
  split <;> rfl

@[simp] theorem State.raiseIfAny_outCount (s : State) (c : Option Category) :
    (s.raiseIfAny c).outCount = s.outCount := by
  unfold State.raiseIfAny
  split <;> rfl

@[simp] theorem State.raiseIfAny_spread (s : State) (c : Option Category) :
    (s.raiseIfAny c).spread = s.spread := by
  unfold State.raiseIfAny
  split <;> rfl

@[simp] theorem State.raiseIfAny_limits (s : State) (c : Option Category) :
    (s.raiseIfAny c).limits = s.limits := by
  unfold State.raiseIfAny
  split <;> rfl

@[simp] theorem State.raiseIfAny_stop (s : State) (c : Option Category) :
    (s.raiseIfAny c).stop = s.stop := by
  unfold State.raiseIfAny
  split <;> rfl

@[simp] theorem State.raiseIfAny_watches (s : State) (c : Option Category) :
    (s.raiseIfAny c).watches = s.watches := by
  unfold State.raiseIfAny
  split <;> rfl

@[simp] theorem State.raiseIfAny_lastCreep (s : State) (c : Option Category) :
    (s.raiseIfAny c).lastCreep = s.lastCreep := by
  unfold State.raiseIfAny
  split <;> rfl

@[simp] theorem State.raiseIfAny_lastEcho (s : State) (c : Option Category) :
    (s.raiseIfAny c).lastEcho = s.lastEcho := by
  unfold State.raiseIfAny
  split <;> rfl

@[simp] theorem State.raiseIfAny_retention (s : State) (c : Option Category) :
    (s.raiseIfAny c).retention = s.retention := by
  unfold State.raiseIfAny
  split <;> rfl

@[simp] theorem State.raiseIfAny_pending (s : State) (c : Option Category) :
    (s.raiseIfAny c).pending = s.pending := by
  unfold State.raiseIfAny
  split <;> rfl

@[simp] theorem State.raiseIfAny_fresh (s : State) (c : Option Category) :
    (s.raiseIfAny c).fresh = s.fresh := by
  unfold State.raiseIfAny
  split <;> rfl

/-! `State.testWatches` changes only: watches. -/

@[simp] theorem State.testWatches_power (s : State) (p : Pos) :
    (s.testWatches p).power = s.power := rfl

@[simp] theorem State.testWatches_baud (s : State) (p : Pos) :
    (s.testWatches p).baud = s.baud := rfl

@[simp] theorem State.testWatches_ports (s : State) (p : Pos) :
    (s.testWatches p).ports = s.ports := rfl

@[simp] theorem State.testWatches_holder (s : State) (p : Pos) :
    (s.testWatches p).holder = s.holder := rfl

@[simp] theorem State.testWatches_lapse (s : State) (p : Pos) :
    (s.testWatches p).lapse = s.lapse := rfl

@[simp] theorem State.testWatches_roster (s : State) (p : Pos) :
    (s.testWatches p).roster = s.roster := rfl

@[simp] theorem State.testWatches_segs (s : State) (p : Pos) :
    (s.testWatches p).segs = s.segs := rfl

@[simp] theorem State.testWatches_cols (s : State) (p : Pos) :
    (s.testWatches p).cols = s.cols := rfl

@[simp] theorem State.testWatches_starts (s : State) (p : Pos) :
    (s.testWatches p).starts = s.starts := rfl

@[simp] theorem State.testWatches_phase (s : State) (p : Pos) :
    (s.testWatches p).phase = s.phase := rfl

@[simp] theorem State.testWatches_pausePending (s : State) (p : Pos) :
    (s.testWatches p).pausePending = s.pausePending := rfl

@[simp] theorem State.testWatches_plan (s : State) (p : Pos) :
    (s.testWatches p).plan = s.plan := rfl

@[simp] theorem State.testWatches_ref (s : State) (p : Pos) :
    (s.testWatches p).ref = s.ref := rfl

@[simp] theorem State.testWatches_holdCount (s : State) (p : Pos) :
    (s.testWatches p).holdCount = s.holdCount := rfl

@[simp] theorem State.testWatches_outCount (s : State) (p : Pos) :
    (s.testWatches p).outCount = s.outCount := rfl

@[simp] theorem State.testWatches_spread (s : State) (p : Pos) :
    (s.testWatches p).spread = s.spread := rfl

@[simp] theorem State.testWatches_limits (s : State) (p : Pos) :
    (s.testWatches p).limits = s.limits := rfl

@[simp] theorem State.testWatches_stop (s : State) (p : Pos) :
    (s.testWatches p).stop = s.stop := rfl

@[simp] theorem State.testWatches_notices (s : State) (p : Pos) :
    (s.testWatches p).notices = s.notices := rfl

@[simp] theorem State.testWatches_lastCreep (s : State) (p : Pos) :
    (s.testWatches p).lastCreep = s.lastCreep := rfl

@[simp] theorem State.testWatches_lastEcho (s : State) (p : Pos) :
    (s.testWatches p).lastEcho = s.lastEcho := rfl

@[simp] theorem State.testWatches_retention (s : State) (p : Pos) :
    (s.testWatches p).retention = s.retention := rfl

@[simp] theorem State.testWatches_pending (s : State) (p : Pos) :
    (s.testWatches p).pending = s.pending := rfl

@[simp] theorem State.testWatches_fresh (s : State) (p : Pos) :
    (s.testWatches p).fresh = s.fresh := rfl

/-! `State.wake` changes only: segs, cols. -/

@[simp] theorem State.wake_power (s : State) :
    s.wake.power = s.power := by
  unfold State.wake
  split <;> rfl

@[simp] theorem State.wake_baud (s : State) :
    s.wake.baud = s.baud := by
  unfold State.wake
  split <;> rfl

@[simp] theorem State.wake_ports (s : State) :
    s.wake.ports = s.ports := by
  unfold State.wake
  split <;> rfl

@[simp] theorem State.wake_holder (s : State) :
    s.wake.holder = s.holder := by
  unfold State.wake
  split <;> rfl

@[simp] theorem State.wake_lapse (s : State) :
    s.wake.lapse = s.lapse := by
  unfold State.wake
  split <;> rfl

@[simp] theorem State.wake_roster (s : State) :
    s.wake.roster = s.roster := by
  unfold State.wake
  split <;> rfl

@[simp] theorem State.wake_starts (s : State) :
    s.wake.starts = s.starts := by
  unfold State.wake
  split <;> rfl

@[simp] theorem State.wake_phase (s : State) :
    s.wake.phase = s.phase := by
  unfold State.wake
  split <;> rfl

@[simp] theorem State.wake_pausePending (s : State) :
    s.wake.pausePending = s.pausePending := by
  unfold State.wake
  split <;> rfl

@[simp] theorem State.wake_plan (s : State) :
    s.wake.plan = s.plan := by
  unfold State.wake
  split <;> rfl

@[simp] theorem State.wake_ref (s : State) :
    s.wake.ref = s.ref := by
  unfold State.wake
  split <;> rfl

@[simp] theorem State.wake_holdCount (s : State) :
    s.wake.holdCount = s.holdCount := by
  unfold State.wake
  split <;> rfl

@[simp] theorem State.wake_outCount (s : State) :
    s.wake.outCount = s.outCount := by
  unfold State.wake
  split <;> rfl

@[simp] theorem State.wake_spread (s : State) :
    s.wake.spread = s.spread := by
  unfold State.wake
  split <;> rfl

@[simp] theorem State.wake_limits (s : State) :
    s.wake.limits = s.limits := by
  unfold State.wake
  split <;> rfl

@[simp] theorem State.wake_stop (s : State) :
    s.wake.stop = s.stop := by
  unfold State.wake
  split <;> rfl

@[simp] theorem State.wake_notices (s : State) :
    s.wake.notices = s.notices := by
  unfold State.wake
  split <;> rfl

@[simp] theorem State.wake_watches (s : State) :
    s.wake.watches = s.watches := by
  unfold State.wake
  split <;> rfl

@[simp] theorem State.wake_lastCreep (s : State) :
    s.wake.lastCreep = s.lastCreep := by
  unfold State.wake
  split <;> rfl

@[simp] theorem State.wake_lastEcho (s : State) :
    s.wake.lastEcho = s.lastEcho := by
  unfold State.wake
  split <;> rfl

@[simp] theorem State.wake_retention (s : State) :
    s.wake.retention = s.retention := by
  unfold State.wake
  split <;> rfl

@[simp] theorem State.wake_pending (s : State) :
    s.wake.pending = s.pending := by
  unfold State.wake
  split <;> rfl

@[simp] theorem State.wake_fresh (s : State) :
    s.wake.fresh = s.fresh := by
  unfold State.wake
  split <;> rfl

/-! `State.trigger` changes only: retention. -/

@[simp] theorem State.trigger_power (s : State) :
    s.trigger.power = s.power := by
  unfold State.trigger
  repeat' split
  all_goals simp

@[simp] theorem State.trigger_baud (s : State) :
    s.trigger.baud = s.baud := by
  unfold State.trigger
  repeat' split
  all_goals simp

@[simp] theorem State.trigger_ports (s : State) :
    s.trigger.ports = s.ports := by
  unfold State.trigger
  repeat' split
  all_goals simp

@[simp] theorem State.trigger_holder (s : State) :
    s.trigger.holder = s.holder := by
  unfold State.trigger
  repeat' split
  all_goals simp

@[simp] theorem State.trigger_lapse (s : State) :
    s.trigger.lapse = s.lapse := by
  unfold State.trigger
  repeat' split
  all_goals simp

@[simp] theorem State.trigger_roster (s : State) :
    s.trigger.roster = s.roster := by
  unfold State.trigger
  repeat' split
  all_goals simp

@[simp] theorem State.trigger_segs (s : State) :
    s.trigger.segs = s.segs := by
  unfold State.trigger
  repeat' split
  all_goals simp

@[simp] theorem State.trigger_cols (s : State) :
    s.trigger.cols = s.cols := by
  unfold State.trigger
  repeat' split
  all_goals simp

@[simp] theorem State.trigger_starts (s : State) :
    s.trigger.starts = s.starts := by
  unfold State.trigger
  repeat' split
  all_goals simp

@[simp] theorem State.trigger_phase (s : State) :
    s.trigger.phase = s.phase := by
  unfold State.trigger
  repeat' split
  all_goals simp

@[simp] theorem State.trigger_pausePending (s : State) :
    s.trigger.pausePending = s.pausePending := by
  unfold State.trigger
  repeat' split
  all_goals simp

@[simp] theorem State.trigger_plan (s : State) :
    s.trigger.plan = s.plan := by
  unfold State.trigger
  repeat' split
  all_goals simp

@[simp] theorem State.trigger_ref (s : State) :
    s.trigger.ref = s.ref := by
  unfold State.trigger
  repeat' split
  all_goals simp

@[simp] theorem State.trigger_holdCount (s : State) :
    s.trigger.holdCount = s.holdCount := by
  unfold State.trigger
  repeat' split
  all_goals simp

@[simp] theorem State.trigger_outCount (s : State) :
    s.trigger.outCount = s.outCount := by
  unfold State.trigger
  repeat' split
  all_goals simp

@[simp] theorem State.trigger_spread (s : State) :
    s.trigger.spread = s.spread := by
  unfold State.trigger
  repeat' split
  all_goals simp

@[simp] theorem State.trigger_limits (s : State) :
    s.trigger.limits = s.limits := by
  unfold State.trigger
  repeat' split
  all_goals simp

@[simp] theorem State.trigger_stop (s : State) :
    s.trigger.stop = s.stop := by
  unfold State.trigger
  repeat' split
  all_goals simp

@[simp] theorem State.trigger_notices (s : State) :
    s.trigger.notices = s.notices := by
  unfold State.trigger
  repeat' split
  all_goals simp

@[simp] theorem State.trigger_watches (s : State) :
    s.trigger.watches = s.watches := by
  unfold State.trigger
  repeat' split
  all_goals simp

@[simp] theorem State.trigger_lastCreep (s : State) :
    s.trigger.lastCreep = s.lastCreep := by
  unfold State.trigger
  repeat' split
  all_goals simp

@[simp] theorem State.trigger_lastEcho (s : State) :
    s.trigger.lastEcho = s.lastEcho := by
  unfold State.trigger
  repeat' split
  all_goals simp

@[simp] theorem State.trigger_pending (s : State) :
    s.trigger.pending = s.pending := by
  unfold State.trigger
  repeat' split
  all_goals simp

@[simp] theorem State.trigger_fresh (s : State) :
    s.trigger.fresh = s.fresh := by
  unfold State.trigger
  repeat' split
  all_goals simp

/-! `State.classify` changes only: cols, holdCount, outCount. -/

@[simp] theorem State.classify_power (s : State) (p : Pos) (cls : Classification) (m : Bool) (lag : Option Int) :
    (s.classify p cls m lag).power = s.power := rfl

@[simp] theorem State.classify_baud (s : State) (p : Pos) (cls : Classification) (m : Bool) (lag : Option Int) :
    (s.classify p cls m lag).baud = s.baud := rfl

@[simp] theorem State.classify_ports (s : State) (p : Pos) (cls : Classification) (m : Bool) (lag : Option Int) :
    (s.classify p cls m lag).ports = s.ports := rfl

@[simp] theorem State.classify_holder (s : State) (p : Pos) (cls : Classification) (m : Bool) (lag : Option Int) :
    (s.classify p cls m lag).holder = s.holder := rfl

@[simp] theorem State.classify_lapse (s : State) (p : Pos) (cls : Classification) (m : Bool) (lag : Option Int) :
    (s.classify p cls m lag).lapse = s.lapse := rfl

@[simp] theorem State.classify_roster (s : State) (p : Pos) (cls : Classification) (m : Bool) (lag : Option Int) :
    (s.classify p cls m lag).roster = s.roster := rfl

@[simp] theorem State.classify_segs (s : State) (p : Pos) (cls : Classification) (m : Bool) (lag : Option Int) :
    (s.classify p cls m lag).segs = s.segs := rfl

@[simp] theorem State.classify_starts (s : State) (p : Pos) (cls : Classification) (m : Bool) (lag : Option Int) :
    (s.classify p cls m lag).starts = s.starts := rfl

@[simp] theorem State.classify_phase (s : State) (p : Pos) (cls : Classification) (m : Bool) (lag : Option Int) :
    (s.classify p cls m lag).phase = s.phase := rfl

@[simp] theorem State.classify_pausePending (s : State) (p : Pos) (cls : Classification) (m : Bool) (lag : Option Int) :
    (s.classify p cls m lag).pausePending = s.pausePending := rfl

@[simp] theorem State.classify_plan (s : State) (p : Pos) (cls : Classification) (m : Bool) (lag : Option Int) :
    (s.classify p cls m lag).plan = s.plan := rfl

@[simp] theorem State.classify_ref (s : State) (p : Pos) (cls : Classification) (m : Bool) (lag : Option Int) :
    (s.classify p cls m lag).ref = s.ref := rfl

@[simp] theorem State.classify_spread (s : State) (p : Pos) (cls : Classification) (m : Bool) (lag : Option Int) :
    (s.classify p cls m lag).spread = s.spread := rfl

@[simp] theorem State.classify_limits (s : State) (p : Pos) (cls : Classification) (m : Bool) (lag : Option Int) :
    (s.classify p cls m lag).limits = s.limits := rfl

@[simp] theorem State.classify_stop (s : State) (p : Pos) (cls : Classification) (m : Bool) (lag : Option Int) :
    (s.classify p cls m lag).stop = s.stop := rfl

@[simp] theorem State.classify_notices (s : State) (p : Pos) (cls : Classification) (m : Bool) (lag : Option Int) :
    (s.classify p cls m lag).notices = s.notices := rfl

@[simp] theorem State.classify_watches (s : State) (p : Pos) (cls : Classification) (m : Bool) (lag : Option Int) :
    (s.classify p cls m lag).watches = s.watches := rfl

@[simp] theorem State.classify_lastCreep (s : State) (p : Pos) (cls : Classification) (m : Bool) (lag : Option Int) :
    (s.classify p cls m lag).lastCreep = s.lastCreep := rfl

@[simp] theorem State.classify_lastEcho (s : State) (p : Pos) (cls : Classification) (m : Bool) (lag : Option Int) :
    (s.classify p cls m lag).lastEcho = s.lastEcho := rfl

@[simp] theorem State.classify_retention (s : State) (p : Pos) (cls : Classification) (m : Bool) (lag : Option Int) :
    (s.classify p cls m lag).retention = s.retention := rfl

@[simp] theorem State.classify_pending (s : State) (p : Pos) (cls : Classification) (m : Bool) (lag : Option Int) :
    (s.classify p cls m lag).pending = s.pending := rfl

@[simp] theorem State.classify_fresh (s : State) (p : Pos) (cls : Classification) (m : Bool) (lag : Option Int) :
    (s.classify p cls m lag).fresh = s.fresh := rfl

/-! `State.untrack` changes only: cols, holdCount, outCount. -/

@[simp] theorem State.untrack_power (s : State) :
    s.untrack.power = s.power := rfl

@[simp] theorem State.untrack_baud (s : State) :
    s.untrack.baud = s.baud := rfl

@[simp] theorem State.untrack_ports (s : State) :
    s.untrack.ports = s.ports := rfl

@[simp] theorem State.untrack_holder (s : State) :
    s.untrack.holder = s.holder := rfl

@[simp] theorem State.untrack_lapse (s : State) :
    s.untrack.lapse = s.lapse := rfl

@[simp] theorem State.untrack_roster (s : State) :
    s.untrack.roster = s.roster := rfl

@[simp] theorem State.untrack_segs (s : State) :
    s.untrack.segs = s.segs := rfl

@[simp] theorem State.untrack_starts (s : State) :
    s.untrack.starts = s.starts := rfl

@[simp] theorem State.untrack_phase (s : State) :
    s.untrack.phase = s.phase := rfl

@[simp] theorem State.untrack_pausePending (s : State) :
    s.untrack.pausePending = s.pausePending := rfl

@[simp] theorem State.untrack_plan (s : State) :
    s.untrack.plan = s.plan := rfl

@[simp] theorem State.untrack_ref (s : State) :
    s.untrack.ref = s.ref := rfl

@[simp] theorem State.untrack_spread (s : State) :
    s.untrack.spread = s.spread := rfl

@[simp] theorem State.untrack_limits (s : State) :
    s.untrack.limits = s.limits := rfl

@[simp] theorem State.untrack_stop (s : State) :
    s.untrack.stop = s.stop := rfl

@[simp] theorem State.untrack_notices (s : State) :
    s.untrack.notices = s.notices := rfl

@[simp] theorem State.untrack_watches (s : State) :
    s.untrack.watches = s.watches := rfl

@[simp] theorem State.untrack_lastCreep (s : State) :
    s.untrack.lastCreep = s.lastCreep := rfl

@[simp] theorem State.untrack_lastEcho (s : State) :
    s.untrack.lastEcho = s.lastEcho := rfl

@[simp] theorem State.untrack_retention (s : State) :
    s.untrack.retention = s.retention := rfl

@[simp] theorem State.untrack_pending (s : State) :
    s.untrack.pending = s.pending := rfl

@[simp] theorem State.untrack_fresh (s : State) :
    s.untrack.fresh = s.fresh := rfl

/-! `State.discardLift` changes only: cols, spread, plan, ref. -/

@[simp] theorem State.discardLift_power (s : State) :
    s.discardLift.power = s.power := rfl

@[simp] theorem State.discardLift_baud (s : State) :
    s.discardLift.baud = s.baud := rfl

@[simp] theorem State.discardLift_ports (s : State) :
    s.discardLift.ports = s.ports := rfl

@[simp] theorem State.discardLift_holder (s : State) :
    s.discardLift.holder = s.holder := rfl

@[simp] theorem State.discardLift_lapse (s : State) :
    s.discardLift.lapse = s.lapse := rfl

@[simp] theorem State.discardLift_roster (s : State) :
    s.discardLift.roster = s.roster := rfl

@[simp] theorem State.discardLift_segs (s : State) :
    s.discardLift.segs = s.segs := rfl

@[simp] theorem State.discardLift_starts (s : State) :
    s.discardLift.starts = s.starts := rfl

@[simp] theorem State.discardLift_phase (s : State) :
    s.discardLift.phase = s.phase := rfl

@[simp] theorem State.discardLift_pausePending (s : State) :
    s.discardLift.pausePending = s.pausePending := rfl

@[simp] theorem State.discardLift_holdCount (s : State) :
    s.discardLift.holdCount = s.holdCount := rfl

@[simp] theorem State.discardLift_outCount (s : State) :
    s.discardLift.outCount = s.outCount := rfl

@[simp] theorem State.discardLift_limits (s : State) :
    s.discardLift.limits = s.limits := rfl

@[simp] theorem State.discardLift_stop (s : State) :
    s.discardLift.stop = s.stop := rfl

@[simp] theorem State.discardLift_notices (s : State) :
    s.discardLift.notices = s.notices := rfl

@[simp] theorem State.discardLift_watches (s : State) :
    s.discardLift.watches = s.watches := rfl

@[simp] theorem State.discardLift_lastCreep (s : State) :
    s.discardLift.lastCreep = s.lastCreep := rfl

@[simp] theorem State.discardLift_lastEcho (s : State) :
    s.discardLift.lastEcho = s.lastEcho := rfl

@[simp] theorem State.discardLift_retention (s : State) :
    s.discardLift.retention = s.retention := rfl

@[simp] theorem State.discardLift_pending (s : State) :
    s.discardLift.pending = s.pending := rfl

@[simp] theorem State.discardLift_fresh (s : State) :
    s.discardLift.fresh = s.fresh := rfl

/-! `State.zeroReference` changes only: plan, ref. -/

@[simp] theorem State.zeroReference_power (s : State) :
    s.zeroReference.power = s.power := rfl

@[simp] theorem State.zeroReference_baud (s : State) :
    s.zeroReference.baud = s.baud := rfl

@[simp] theorem State.zeroReference_ports (s : State) :
    s.zeroReference.ports = s.ports := rfl

@[simp] theorem State.zeroReference_holder (s : State) :
    s.zeroReference.holder = s.holder := rfl

@[simp] theorem State.zeroReference_lapse (s : State) :
    s.zeroReference.lapse = s.lapse := rfl

@[simp] theorem State.zeroReference_roster (s : State) :
    s.zeroReference.roster = s.roster := rfl

@[simp] theorem State.zeroReference_segs (s : State) :
    s.zeroReference.segs = s.segs := rfl

@[simp] theorem State.zeroReference_cols (s : State) :
    s.zeroReference.cols = s.cols := rfl

@[simp] theorem State.zeroReference_starts (s : State) :
    s.zeroReference.starts = s.starts := rfl

@[simp] theorem State.zeroReference_phase (s : State) :
    s.zeroReference.phase = s.phase := rfl

@[simp] theorem State.zeroReference_pausePending (s : State) :
    s.zeroReference.pausePending = s.pausePending := rfl

@[simp] theorem State.zeroReference_holdCount (s : State) :
    s.zeroReference.holdCount = s.holdCount := rfl

@[simp] theorem State.zeroReference_outCount (s : State) :
    s.zeroReference.outCount = s.outCount := rfl

@[simp] theorem State.zeroReference_spread (s : State) :
    s.zeroReference.spread = s.spread := rfl

@[simp] theorem State.zeroReference_limits (s : State) :
    s.zeroReference.limits = s.limits := rfl

@[simp] theorem State.zeroReference_stop (s : State) :
    s.zeroReference.stop = s.stop := rfl

@[simp] theorem State.zeroReference_notices (s : State) :
    s.zeroReference.notices = s.notices := rfl

@[simp] theorem State.zeroReference_watches (s : State) :
    s.zeroReference.watches = s.watches := rfl

@[simp] theorem State.zeroReference_lastCreep (s : State) :
    s.zeroReference.lastCreep = s.lastCreep := rfl

@[simp] theorem State.zeroReference_lastEcho (s : State) :
    s.zeroReference.lastEcho = s.lastEcho := rfl

@[simp] theorem State.zeroReference_retention (s : State) :
    s.zeroReference.retention = s.retention := rfl

@[simp] theorem State.zeroReference_pending (s : State) :
    s.zeroReference.pending = s.pending := rfl

@[simp] theorem State.zeroReference_fresh (s : State) :
    s.zeroReference.fresh = s.fresh := rfl

/-! `State.enterRest` changes only: cols, spread, plan, ref. -/

@[simp] theorem State.enterRest_power (s : State) (ph : Phase) :
    (s.enterRest ph).power = s.power := by
  unfold State.enterRest
  split <;> rfl

@[simp] theorem State.enterRest_baud (s : State) (ph : Phase) :
    (s.enterRest ph).baud = s.baud := by
  unfold State.enterRest
  split <;> rfl

@[simp] theorem State.enterRest_ports (s : State) (ph : Phase) :
    (s.enterRest ph).ports = s.ports := by
  unfold State.enterRest
  split <;> rfl

@[simp] theorem State.enterRest_holder (s : State) (ph : Phase) :
    (s.enterRest ph).holder = s.holder := by
  unfold State.enterRest
  split <;> rfl

@[simp] theorem State.enterRest_lapse (s : State) (ph : Phase) :
    (s.enterRest ph).lapse = s.lapse := by
  unfold State.enterRest
  split <;> rfl

@[simp] theorem State.enterRest_roster (s : State) (ph : Phase) :
    (s.enterRest ph).roster = s.roster := by
  unfold State.enterRest
  split <;> rfl

@[simp] theorem State.enterRest_segs (s : State) (ph : Phase) :
    (s.enterRest ph).segs = s.segs := by
  unfold State.enterRest
  split <;> rfl

@[simp] theorem State.enterRest_starts (s : State) (ph : Phase) :
    (s.enterRest ph).starts = s.starts := by
  unfold State.enterRest
  split <;> rfl

@[simp] theorem State.enterRest_phase (s : State) (ph : Phase) :
    (s.enterRest ph).phase = s.phase := by
  unfold State.enterRest
  split <;> rfl

@[simp] theorem State.enterRest_pausePending (s : State) (ph : Phase) :
    (s.enterRest ph).pausePending = s.pausePending := by
  unfold State.enterRest
  split <;> rfl

@[simp] theorem State.enterRest_holdCount (s : State) (ph : Phase) :
    (s.enterRest ph).holdCount = s.holdCount := by
  unfold State.enterRest
  split <;> rfl

@[simp] theorem State.enterRest_outCount (s : State) (ph : Phase) :
    (s.enterRest ph).outCount = s.outCount := by
  unfold State.enterRest
  split <;> rfl

@[simp] theorem State.enterRest_limits (s : State) (ph : Phase) :
    (s.enterRest ph).limits = s.limits := by
  unfold State.enterRest
  split <;> rfl

@[simp] theorem State.enterRest_stop (s : State) (ph : Phase) :
    (s.enterRest ph).stop = s.stop := by
  unfold State.enterRest
  split <;> rfl

@[simp] theorem State.enterRest_notices (s : State) (ph : Phase) :
    (s.enterRest ph).notices = s.notices := by
  unfold State.enterRest
  split <;> rfl

@[simp] theorem State.enterRest_watches (s : State) (ph : Phase) :
    (s.enterRest ph).watches = s.watches := by
  unfold State.enterRest
  split <;> rfl

@[simp] theorem State.enterRest_lastCreep (s : State) (ph : Phase) :
    (s.enterRest ph).lastCreep = s.lastCreep := by
  unfold State.enterRest
  split <;> rfl

@[simp] theorem State.enterRest_lastEcho (s : State) (ph : Phase) :
    (s.enterRest ph).lastEcho = s.lastEcho := by
  unfold State.enterRest
  split <;> rfl

@[simp] theorem State.enterRest_retention (s : State) (ph : Phase) :
    (s.enterRest ph).retention = s.retention := by
  unfold State.enterRest
  split <;> rfl

@[simp] theorem State.enterRest_pending (s : State) (ph : Phase) :
    (s.enterRest ph).pending = s.pending := by
  unfold State.enterRest
  split <;> rfl

@[simp] theorem State.enterRest_fresh (s : State) (ph : Phase) :
    (s.enterRest ph).fresh = s.fresh := by
  unfold State.enterRest
  split <;> rfl

/-! `State.clearParked` changes only: cols. -/

@[simp] theorem State.clearParked_power (s : State) (ph : Phase) :
    (s.clearParked ph).power = s.power := by
  unfold State.clearParked
  split <;> rfl

@[simp] theorem State.clearParked_baud (s : State) (ph : Phase) :
    (s.clearParked ph).baud = s.baud := by
  unfold State.clearParked
  split <;> rfl

@[simp] theorem State.clearParked_ports (s : State) (ph : Phase) :
    (s.clearParked ph).ports = s.ports := by
  unfold State.clearParked
  split <;> rfl

@[simp] theorem State.clearParked_holder (s : State) (ph : Phase) :
    (s.clearParked ph).holder = s.holder := by
  unfold State.clearParked
  split <;> rfl

@[simp] theorem State.clearParked_lapse (s : State) (ph : Phase) :
    (s.clearParked ph).lapse = s.lapse := by
  unfold State.clearParked
  split <;> rfl

@[simp] theorem State.clearParked_roster (s : State) (ph : Phase) :
    (s.clearParked ph).roster = s.roster := by
  unfold State.clearParked
  split <;> rfl

@[simp] theorem State.clearParked_segs (s : State) (ph : Phase) :
    (s.clearParked ph).segs = s.segs := by
  unfold State.clearParked
  split <;> rfl

@[simp] theorem State.clearParked_starts (s : State) (ph : Phase) :
    (s.clearParked ph).starts = s.starts := by
  unfold State.clearParked
  split <;> rfl

@[simp] theorem State.clearParked_phase (s : State) (ph : Phase) :
    (s.clearParked ph).phase = s.phase := by
  unfold State.clearParked
  split <;> rfl

@[simp] theorem State.clearParked_pausePending (s : State) (ph : Phase) :
    (s.clearParked ph).pausePending = s.pausePending := by
  unfold State.clearParked
  split <;> rfl

@[simp] theorem State.clearParked_plan (s : State) (ph : Phase) :
    (s.clearParked ph).plan = s.plan := by
  unfold State.clearParked
  split <;> rfl

@[simp] theorem State.clearParked_ref (s : State) (ph : Phase) :
    (s.clearParked ph).ref = s.ref := by
  unfold State.clearParked
  split <;> rfl

@[simp] theorem State.clearParked_holdCount (s : State) (ph : Phase) :
    (s.clearParked ph).holdCount = s.holdCount := by
  unfold State.clearParked
  split <;> rfl

@[simp] theorem State.clearParked_outCount (s : State) (ph : Phase) :
    (s.clearParked ph).outCount = s.outCount := by
  unfold State.clearParked
  split <;> rfl

@[simp] theorem State.clearParked_spread (s : State) (ph : Phase) :
    (s.clearParked ph).spread = s.spread := by
  unfold State.clearParked
  split <;> rfl

@[simp] theorem State.clearParked_limits (s : State) (ph : Phase) :
    (s.clearParked ph).limits = s.limits := by
  unfold State.clearParked
  split <;> rfl

@[simp] theorem State.clearParked_stop (s : State) (ph : Phase) :
    (s.clearParked ph).stop = s.stop := by
  unfold State.clearParked
  split <;> rfl

@[simp] theorem State.clearParked_notices (s : State) (ph : Phase) :
    (s.clearParked ph).notices = s.notices := by
  unfold State.clearParked
  split <;> rfl

@[simp] theorem State.clearParked_watches (s : State) (ph : Phase) :
    (s.clearParked ph).watches = s.watches := by
  unfold State.clearParked
  split <;> rfl

@[simp] theorem State.clearParked_lastCreep (s : State) (ph : Phase) :
    (s.clearParked ph).lastCreep = s.lastCreep := by
  unfold State.clearParked
  split <;> rfl

@[simp] theorem State.clearParked_lastEcho (s : State) (ph : Phase) :
    (s.clearParked ph).lastEcho = s.lastEcho := by
  unfold State.clearParked
  split <;> rfl

@[simp] theorem State.clearParked_retention (s : State) (ph : Phase) :
    (s.clearParked ph).retention = s.retention := by
  unfold State.clearParked
  split <;> rfl

@[simp] theorem State.clearParked_pending (s : State) (ph : Phase) :
    (s.clearParked ph).pending = s.pending := by
  unfold State.clearParked
  split <;> rfl

@[simp] theorem State.clearParked_fresh (s : State) (ph : Phase) :
    (s.clearParked ph).fresh = s.fresh := by
  unfold State.clearParked
  split <;> rfl

/-! `State.setStarts` changes only: starts. -/

@[simp] theorem State.setStarts_power (s : State) (ph : Phase) :
    (s.setStarts ph).power = s.power := by
  unfold State.setStarts
  repeat' split
  all_goals simp

@[simp] theorem State.setStarts_baud (s : State) (ph : Phase) :
    (s.setStarts ph).baud = s.baud := by
  unfold State.setStarts
  repeat' split
  all_goals simp

@[simp] theorem State.setStarts_ports (s : State) (ph : Phase) :
    (s.setStarts ph).ports = s.ports := by
  unfold State.setStarts
  repeat' split
  all_goals simp

@[simp] theorem State.setStarts_holder (s : State) (ph : Phase) :
    (s.setStarts ph).holder = s.holder := by
  unfold State.setStarts
  repeat' split
  all_goals simp

@[simp] theorem State.setStarts_lapse (s : State) (ph : Phase) :
    (s.setStarts ph).lapse = s.lapse := by
  unfold State.setStarts
  repeat' split
  all_goals simp

@[simp] theorem State.setStarts_roster (s : State) (ph : Phase) :
    (s.setStarts ph).roster = s.roster := by
  unfold State.setStarts
  repeat' split
  all_goals simp

@[simp] theorem State.setStarts_segs (s : State) (ph : Phase) :
    (s.setStarts ph).segs = s.segs := by
  unfold State.setStarts
  repeat' split
  all_goals simp

@[simp] theorem State.setStarts_cols (s : State) (ph : Phase) :
    (s.setStarts ph).cols = s.cols := by
  unfold State.setStarts
  repeat' split
  all_goals simp

@[simp] theorem State.setStarts_phase (s : State) (ph : Phase) :
    (s.setStarts ph).phase = s.phase := by
  unfold State.setStarts
  repeat' split
  all_goals simp

@[simp] theorem State.setStarts_pausePending (s : State) (ph : Phase) :
    (s.setStarts ph).pausePending = s.pausePending := by
  unfold State.setStarts
  repeat' split
  all_goals simp

@[simp] theorem State.setStarts_plan (s : State) (ph : Phase) :
    (s.setStarts ph).plan = s.plan := by
  unfold State.setStarts
  repeat' split
  all_goals simp

@[simp] theorem State.setStarts_ref (s : State) (ph : Phase) :
    (s.setStarts ph).ref = s.ref := by
  unfold State.setStarts
  repeat' split
  all_goals simp

@[simp] theorem State.setStarts_holdCount (s : State) (ph : Phase) :
    (s.setStarts ph).holdCount = s.holdCount := by
  unfold State.setStarts
  repeat' split
  all_goals simp

@[simp] theorem State.setStarts_outCount (s : State) (ph : Phase) :
    (s.setStarts ph).outCount = s.outCount := by
  unfold State.setStarts
  repeat' split
  all_goals simp

@[simp] theorem State.setStarts_spread (s : State) (ph : Phase) :
    (s.setStarts ph).spread = s.spread := by
  unfold State.setStarts
  repeat' split
  all_goals simp

@[simp] theorem State.setStarts_limits (s : State) (ph : Phase) :
    (s.setStarts ph).limits = s.limits := by
  unfold State.setStarts
  repeat' split
  all_goals simp

@[simp] theorem State.setStarts_stop (s : State) (ph : Phase) :
    (s.setStarts ph).stop = s.stop := by
  unfold State.setStarts
  repeat' split
  all_goals simp

@[simp] theorem State.setStarts_notices (s : State) (ph : Phase) :
    (s.setStarts ph).notices = s.notices := by
  unfold State.setStarts
  repeat' split
  all_goals simp

@[simp] theorem State.setStarts_watches (s : State) (ph : Phase) :
    (s.setStarts ph).watches = s.watches := by
  unfold State.setStarts
  repeat' split
  all_goals simp

@[simp] theorem State.setStarts_lastCreep (s : State) (ph : Phase) :
    (s.setStarts ph).lastCreep = s.lastCreep := by
  unfold State.setStarts
  repeat' split
  all_goals simp

@[simp] theorem State.setStarts_lastEcho (s : State) (ph : Phase) :
    (s.setStarts ph).lastEcho = s.lastEcho := by
  unfold State.setStarts
  repeat' split
  all_goals simp

@[simp] theorem State.setStarts_retention (s : State) (ph : Phase) :
    (s.setStarts ph).retention = s.retention := by
  unfold State.setStarts
  repeat' split
  all_goals simp

@[simp] theorem State.setStarts_pending (s : State) (ph : Phase) :
    (s.setStarts ph).pending = s.pending := by
  unfold State.setStarts
  repeat' split
  all_goals simp

@[simp] theorem State.setStarts_fresh (s : State) (ph : Phase) :
    (s.setStarts ph).fresh = s.fresh := by
  unfold State.setStarts
  repeat' split
  all_goals simp

/-! `State.haltMotion` changes only: cols, pausePending, ref. -/

@[simp] theorem State.haltMotion_power (s : State) (ph : Phase) :
    (s.haltMotion ph).power = s.power := rfl

@[simp] theorem State.haltMotion_baud (s : State) (ph : Phase) :
    (s.haltMotion ph).baud = s.baud := rfl

@[simp] theorem State.haltMotion_ports (s : State) (ph : Phase) :
    (s.haltMotion ph).ports = s.ports := rfl

@[simp] theorem State.haltMotion_holder (s : State) (ph : Phase) :
    (s.haltMotion ph).holder = s.holder := rfl

@[simp] theorem State.haltMotion_lapse (s : State) (ph : Phase) :
    (s.haltMotion ph).lapse = s.lapse := rfl

@[simp] theorem State.haltMotion_roster (s : State) (ph : Phase) :
    (s.haltMotion ph).roster = s.roster := rfl

@[simp] theorem State.haltMotion_segs (s : State) (ph : Phase) :
    (s.haltMotion ph).segs = s.segs := rfl

@[simp] theorem State.haltMotion_starts (s : State) (ph : Phase) :
    (s.haltMotion ph).starts = s.starts := rfl

@[simp] theorem State.haltMotion_phase (s : State) (ph : Phase) :
    (s.haltMotion ph).phase = s.phase := rfl

@[simp] theorem State.haltMotion_plan (s : State) (ph : Phase) :
    (s.haltMotion ph).plan = s.plan := rfl

@[simp] theorem State.haltMotion_holdCount (s : State) (ph : Phase) :
    (s.haltMotion ph).holdCount = s.holdCount := rfl

@[simp] theorem State.haltMotion_outCount (s : State) (ph : Phase) :
    (s.haltMotion ph).outCount = s.outCount := rfl

@[simp] theorem State.haltMotion_spread (s : State) (ph : Phase) :
    (s.haltMotion ph).spread = s.spread := rfl

@[simp] theorem State.haltMotion_limits (s : State) (ph : Phase) :
    (s.haltMotion ph).limits = s.limits := rfl

@[simp] theorem State.haltMotion_stop (s : State) (ph : Phase) :
    (s.haltMotion ph).stop = s.stop := rfl

@[simp] theorem State.haltMotion_notices (s : State) (ph : Phase) :
    (s.haltMotion ph).notices = s.notices := rfl

@[simp] theorem State.haltMotion_watches (s : State) (ph : Phase) :
    (s.haltMotion ph).watches = s.watches := rfl

@[simp] theorem State.haltMotion_lastCreep (s : State) (ph : Phase) :
    (s.haltMotion ph).lastCreep = s.lastCreep := rfl

@[simp] theorem State.haltMotion_lastEcho (s : State) (ph : Phase) :
    (s.haltMotion ph).lastEcho = s.lastEcho := rfl

@[simp] theorem State.haltMotion_retention (s : State) (ph : Phase) :
    (s.haltMotion ph).retention = s.retention := rfl

@[simp] theorem State.haltMotion_pending (s : State) (ph : Phase) :
    (s.haltMotion ph).pending = s.pending := rfl

@[simp] theorem State.haltMotion_fresh (s : State) (ph : Phase) :
    (s.haltMotion ph).fresh = s.fresh := rfl

/-! `State.applyPolling` changes only: segs, cols. -/

@[simp] theorem State.applyPolling_power (s : State) :
    s.applyPolling.power = s.power := by
  unfold State.applyPolling
  split <;> simp

@[simp] theorem State.applyPolling_baud (s : State) :
    s.applyPolling.baud = s.baud := by
  unfold State.applyPolling
  split <;> simp

@[simp] theorem State.applyPolling_ports (s : State) :
    s.applyPolling.ports = s.ports := by
  unfold State.applyPolling
  split <;> simp

@[simp] theorem State.applyPolling_holder (s : State) :
    s.applyPolling.holder = s.holder := by
  unfold State.applyPolling
  split <;> simp

@[simp] theorem State.applyPolling_lapse (s : State) :
    s.applyPolling.lapse = s.lapse := by
  unfold State.applyPolling
  split <;> simp

@[simp] theorem State.applyPolling_roster (s : State) :
    s.applyPolling.roster = s.roster := by
  unfold State.applyPolling
  split <;> simp

@[simp] theorem State.applyPolling_starts (s : State) :
    s.applyPolling.starts = s.starts := by
  unfold State.applyPolling
  split <;> simp

@[simp] theorem State.applyPolling_phase (s : State) :
    s.applyPolling.phase = s.phase := by
  unfold State.applyPolling
  split <;> simp

@[simp] theorem State.applyPolling_pausePending (s : State) :
    s.applyPolling.pausePending = s.pausePending := by
  unfold State.applyPolling
  split <;> simp

@[simp] theorem State.applyPolling_plan (s : State) :
    s.applyPolling.plan = s.plan := by
  unfold State.applyPolling
  split <;> simp

@[simp] theorem State.applyPolling_ref (s : State) :
    s.applyPolling.ref = s.ref := by
  unfold State.applyPolling
  split <;> simp

@[simp] theorem State.applyPolling_holdCount (s : State) :
    s.applyPolling.holdCount = s.holdCount := by
  unfold State.applyPolling
  split <;> simp

@[simp] theorem State.applyPolling_outCount (s : State) :
    s.applyPolling.outCount = s.outCount := by
  unfold State.applyPolling
  split <;> simp

@[simp] theorem State.applyPolling_spread (s : State) :
    s.applyPolling.spread = s.spread := by
  unfold State.applyPolling
  split <;> simp

@[simp] theorem State.applyPolling_limits (s : State) :
    s.applyPolling.limits = s.limits := by
  unfold State.applyPolling
  split <;> simp

@[simp] theorem State.applyPolling_stop (s : State) :
    s.applyPolling.stop = s.stop := by
  unfold State.applyPolling
  split <;> simp

@[simp] theorem State.applyPolling_notices (s : State) :
    s.applyPolling.notices = s.notices := by
  unfold State.applyPolling
  split <;> simp

@[simp] theorem State.applyPolling_watches (s : State) :
    s.applyPolling.watches = s.watches := by
  unfold State.applyPolling
  split <;> simp

@[simp] theorem State.applyPolling_lastCreep (s : State) :
    s.applyPolling.lastCreep = s.lastCreep := by
  unfold State.applyPolling
  split <;> simp

@[simp] theorem State.applyPolling_lastEcho (s : State) :
    s.applyPolling.lastEcho = s.lastEcho := by
  unfold State.applyPolling
  split <;> simp

@[simp] theorem State.applyPolling_retention (s : State) :
    s.applyPolling.retention = s.retention := by
  unfold State.applyPolling
  split <;> simp

@[simp] theorem State.applyPolling_pending (s : State) :
    s.applyPolling.pending = s.pending := by
  unfold State.applyPolling
  split <;> simp

@[simp] theorem State.applyPolling_fresh (s : State) :
    s.applyPolling.fresh = s.fresh := by
  unfold State.applyPolling
  split <;> simp

/-! `State.raiseEchoDone` changes only: notices, lastEcho. -/

@[simp] theorem State.raiseEchoDone_power (s : State) (g : SegId) :
    (s.raiseEchoDone g).power = s.power := rfl

@[simp] theorem State.raiseEchoDone_baud (s : State) (g : SegId) :
    (s.raiseEchoDone g).baud = s.baud := rfl

@[simp] theorem State.raiseEchoDone_ports (s : State) (g : SegId) :
    (s.raiseEchoDone g).ports = s.ports := rfl

@[simp] theorem State.raiseEchoDone_holder (s : State) (g : SegId) :
    (s.raiseEchoDone g).holder = s.holder := rfl

@[simp] theorem State.raiseEchoDone_lapse (s : State) (g : SegId) :
    (s.raiseEchoDone g).lapse = s.lapse := rfl

@[simp] theorem State.raiseEchoDone_roster (s : State) (g : SegId) :
    (s.raiseEchoDone g).roster = s.roster := rfl

@[simp] theorem State.raiseEchoDone_segs (s : State) (g : SegId) :
    (s.raiseEchoDone g).segs = s.segs := rfl

@[simp] theorem State.raiseEchoDone_cols (s : State) (g : SegId) :
    (s.raiseEchoDone g).cols = s.cols := rfl

@[simp] theorem State.raiseEchoDone_starts (s : State) (g : SegId) :
    (s.raiseEchoDone g).starts = s.starts := rfl

@[simp] theorem State.raiseEchoDone_phase (s : State) (g : SegId) :
    (s.raiseEchoDone g).phase = s.phase := rfl

@[simp] theorem State.raiseEchoDone_pausePending (s : State) (g : SegId) :
    (s.raiseEchoDone g).pausePending = s.pausePending := rfl

@[simp] theorem State.raiseEchoDone_plan (s : State) (g : SegId) :
    (s.raiseEchoDone g).plan = s.plan := rfl

@[simp] theorem State.raiseEchoDone_ref (s : State) (g : SegId) :
    (s.raiseEchoDone g).ref = s.ref := rfl

@[simp] theorem State.raiseEchoDone_holdCount (s : State) (g : SegId) :
    (s.raiseEchoDone g).holdCount = s.holdCount := rfl

@[simp] theorem State.raiseEchoDone_outCount (s : State) (g : SegId) :
    (s.raiseEchoDone g).outCount = s.outCount := rfl

@[simp] theorem State.raiseEchoDone_spread (s : State) (g : SegId) :
    (s.raiseEchoDone g).spread = s.spread := rfl

@[simp] theorem State.raiseEchoDone_limits (s : State) (g : SegId) :
    (s.raiseEchoDone g).limits = s.limits := rfl

@[simp] theorem State.raiseEchoDone_stop (s : State) (g : SegId) :
    (s.raiseEchoDone g).stop = s.stop := rfl

@[simp] theorem State.raiseEchoDone_watches (s : State) (g : SegId) :
    (s.raiseEchoDone g).watches = s.watches := rfl

@[simp] theorem State.raiseEchoDone_lastCreep (s : State) (g : SegId) :
    (s.raiseEchoDone g).lastCreep = s.lastCreep := rfl

@[simp] theorem State.raiseEchoDone_retention (s : State) (g : SegId) :
    (s.raiseEchoDone g).retention = s.retention := rfl

@[simp] theorem State.raiseEchoDone_pending (s : State) (g : SegId) :
    (s.raiseEchoDone g).pending = s.pending := rfl

@[simp] theorem State.raiseEchoDone_fresh (s : State) (g : SegId) :
    (s.raiseEchoDone g).fresh = s.fresh := rfl

/-! `State.abortEcho` changes only: notices, lastEcho, segs. -/

@[simp] theorem State.abortEcho_power (s : State) (g : SegId) :
    (s.abortEcho g).power = s.power := by
  unfold State.abortEcho
  split <;> rfl

@[simp] theorem State.abortEcho_baud (s : State) (g : SegId) :
    (s.abortEcho g).baud = s.baud := by
  unfold State.abortEcho
  split <;> rfl

@[simp] theorem State.abortEcho_ports (s : State) (g : SegId) :
    (s.abortEcho g).ports = s.ports := by
  unfold State.abortEcho
  split <;> rfl

@[simp] theorem State.abortEcho_holder (s : State) (g : SegId) :
    (s.abortEcho g).holder = s.holder := by
  unfold State.abortEcho
  split <;> rfl

@[simp] theorem State.abortEcho_lapse (s : State) (g : SegId) :
    (s.abortEcho g).lapse = s.lapse := by
  unfold State.abortEcho
  split <;> rfl

@[simp] theorem State.abortEcho_roster (s : State) (g : SegId) :
    (s.abortEcho g).roster = s.roster := by
  unfold State.abortEcho
  split <;> rfl

@[simp] theorem State.abortEcho_cols (s : State) (g : SegId) :
    (s.abortEcho g).cols = s.cols := by
  unfold State.abortEcho
  split <;> rfl

@[simp] theorem State.abortEcho_starts (s : State) (g : SegId) :
    (s.abortEcho g).starts = s.starts := by
  unfold State.abortEcho
  split <;> rfl

@[simp] theorem State.abortEcho_phase (s : State) (g : SegId) :
    (s.abortEcho g).phase = s.phase := by
  unfold State.abortEcho
  split <;> rfl

@[simp] theorem State.abortEcho_pausePending (s : State) (g : SegId) :
    (s.abortEcho g).pausePending = s.pausePending := by
  unfold State.abortEcho
  split <;> rfl

@[simp] theorem State.abortEcho_plan (s : State) (g : SegId) :
    (s.abortEcho g).plan = s.plan := by
  unfold State.abortEcho
  split <;> rfl

@[simp] theorem State.abortEcho_ref (s : State) (g : SegId) :
    (s.abortEcho g).ref = s.ref := by
  unfold State.abortEcho
  split <;> rfl

@[simp] theorem State.abortEcho_holdCount (s : State) (g : SegId) :
    (s.abortEcho g).holdCount = s.holdCount := by
  unfold State.abortEcho
  split <;> rfl

@[simp] theorem State.abortEcho_outCount (s : State) (g : SegId) :
    (s.abortEcho g).outCount = s.outCount := by
  unfold State.abortEcho
  split <;> rfl

@[simp] theorem State.abortEcho_spread (s : State) (g : SegId) :
    (s.abortEcho g).spread = s.spread := by
  unfold State.abortEcho
  split <;> rfl

@[simp] theorem State.abortEcho_limits (s : State) (g : SegId) :
    (s.abortEcho g).limits = s.limits := by
  unfold State.abortEcho
  split <;> rfl

@[simp] theorem State.abortEcho_stop (s : State) (g : SegId) :
    (s.abortEcho g).stop = s.stop := by
  unfold State.abortEcho
  split <;> rfl

@[simp] theorem State.abortEcho_watches (s : State) (g : SegId) :
    (s.abortEcho g).watches = s.watches := by
  unfold State.abortEcho
  split <;> rfl

@[simp] theorem State.abortEcho_lastCreep (s : State) (g : SegId) :
    (s.abortEcho g).lastCreep = s.lastCreep := by
  unfold State.abortEcho
  split <;> rfl

@[simp] theorem State.abortEcho_retention (s : State) (g : SegId) :
    (s.abortEcho g).retention = s.retention := by
  unfold State.abortEcho
  split <;> rfl

@[simp] theorem State.abortEcho_pending (s : State) (g : SegId) :
    (s.abortEcho g).pending = s.pending := by
  unfold State.abortEcho
  split <;> rfl

@[simp] theorem State.abortEcho_fresh (s : State) (g : SegId) :
    (s.abortEcho g).fresh = s.fresh := by
  unfold State.abortEcho
  split <;> rfl

/-! `State.furtherCause` changes only: stop. -/

@[simp] theorem State.furtherCause_power (s : State) (c : StopCause) :
    (s.furtherCause c).power = s.power := by
  unfold State.furtherCause
  split <;> rfl

@[simp] theorem State.furtherCause_baud (s : State) (c : StopCause) :
    (s.furtherCause c).baud = s.baud := by
  unfold State.furtherCause
  split <;> rfl

@[simp] theorem State.furtherCause_ports (s : State) (c : StopCause) :
    (s.furtherCause c).ports = s.ports := by
  unfold State.furtherCause
  split <;> rfl

@[simp] theorem State.furtherCause_holder (s : State) (c : StopCause) :
    (s.furtherCause c).holder = s.holder := by
  unfold State.furtherCause
  split <;> rfl

@[simp] theorem State.furtherCause_lapse (s : State) (c : StopCause) :
    (s.furtherCause c).lapse = s.lapse := by
  unfold State.furtherCause
  split <;> rfl

@[simp] theorem State.furtherCause_roster (s : State) (c : StopCause) :
    (s.furtherCause c).roster = s.roster := by
  unfold State.furtherCause
  split <;> rfl

@[simp] theorem State.furtherCause_segs (s : State) (c : StopCause) :
    (s.furtherCause c).segs = s.segs := by
  unfold State.furtherCause
  split <;> rfl

@[simp] theorem State.furtherCause_cols (s : State) (c : StopCause) :
    (s.furtherCause c).cols = s.cols := by
  unfold State.furtherCause
  split <;> rfl

@[simp] theorem State.furtherCause_starts (s : State) (c : StopCause) :
    (s.furtherCause c).starts = s.starts := by
  unfold State.furtherCause
  split <;> rfl

@[simp] theorem State.furtherCause_phase (s : State) (c : StopCause) :
    (s.furtherCause c).phase = s.phase := by
  unfold State.furtherCause
  split <;> rfl

@[simp] theorem State.furtherCause_pausePending (s : State) (c : StopCause) :
    (s.furtherCause c).pausePending = s.pausePending := by
  unfold State.furtherCause
  split <;> rfl

@[simp] theorem State.furtherCause_plan (s : State) (c : StopCause) :
    (s.furtherCause c).plan = s.plan := by
  unfold State.furtherCause
  split <;> rfl

@[simp] theorem State.furtherCause_ref (s : State) (c : StopCause) :
    (s.furtherCause c).ref = s.ref := by
  unfold State.furtherCause
  split <;> rfl

@[simp] theorem State.furtherCause_holdCount (s : State) (c : StopCause) :
    (s.furtherCause c).holdCount = s.holdCount := by
  unfold State.furtherCause
  split <;> rfl

@[simp] theorem State.furtherCause_outCount (s : State) (c : StopCause) :
    (s.furtherCause c).outCount = s.outCount := by
  unfold State.furtherCause
  split <;> rfl

@[simp] theorem State.furtherCause_spread (s : State) (c : StopCause) :
    (s.furtherCause c).spread = s.spread := by
  unfold State.furtherCause
  split <;> rfl

@[simp] theorem State.furtherCause_limits (s : State) (c : StopCause) :
    (s.furtherCause c).limits = s.limits := by
  unfold State.furtherCause
  split <;> rfl

@[simp] theorem State.furtherCause_notices (s : State) (c : StopCause) :
    (s.furtherCause c).notices = s.notices := by
  unfold State.furtherCause
  split <;> rfl

@[simp] theorem State.furtherCause_watches (s : State) (c : StopCause) :
    (s.furtherCause c).watches = s.watches := by
  unfold State.furtherCause
  split <;> rfl

@[simp] theorem State.furtherCause_lastCreep (s : State) (c : StopCause) :
    (s.furtherCause c).lastCreep = s.lastCreep := by
  unfold State.furtherCause
  split <;> rfl

@[simp] theorem State.furtherCause_lastEcho (s : State) (c : StopCause) :
    (s.furtherCause c).lastEcho = s.lastEcho := by
  unfold State.furtherCause
  split <;> rfl

@[simp] theorem State.furtherCause_retention (s : State) (c : StopCause) :
    (s.furtherCause c).retention = s.retention := by
  unfold State.furtherCause
  split <;> rfl

@[simp] theorem State.furtherCause_pending (s : State) (c : StopCause) :
    (s.furtherCause c).pending = s.pending := by
  unfold State.furtherCause
  split <;> rfl

@[simp] theorem State.furtherCause_fresh (s : State) (c : StopCause) :
    (s.furtherCause c).fresh = s.fresh := by
  unfold State.furtherCause
  split <;> rfl

/-! `State.mirror` changes only: cols. -/

@[simp] theorem State.mirror_power (s : State) (g : SegId) (d : DropId) :
    (s.mirror g d).power = s.power := by
  unfold State.mirror
  split <;> rfl

@[simp] theorem State.mirror_baud (s : State) (g : SegId) (d : DropId) :
    (s.mirror g d).baud = s.baud := by
  unfold State.mirror
  split <;> rfl

@[simp] theorem State.mirror_ports (s : State) (g : SegId) (d : DropId) :
    (s.mirror g d).ports = s.ports := by
  unfold State.mirror
  split <;> rfl

@[simp] theorem State.mirror_holder (s : State) (g : SegId) (d : DropId) :
    (s.mirror g d).holder = s.holder := by
  unfold State.mirror
  split <;> rfl

@[simp] theorem State.mirror_lapse (s : State) (g : SegId) (d : DropId) :
    (s.mirror g d).lapse = s.lapse := by
  unfold State.mirror
  split <;> rfl

@[simp] theorem State.mirror_roster (s : State) (g : SegId) (d : DropId) :
    (s.mirror g d).roster = s.roster := by
  unfold State.mirror
  split <;> rfl

@[simp] theorem State.mirror_segs (s : State) (g : SegId) (d : DropId) :
    (s.mirror g d).segs = s.segs := by
  unfold State.mirror
  split <;> rfl

@[simp] theorem State.mirror_starts (s : State) (g : SegId) (d : DropId) :
    (s.mirror g d).starts = s.starts := by
  unfold State.mirror
  split <;> rfl

@[simp] theorem State.mirror_phase (s : State) (g : SegId) (d : DropId) :
    (s.mirror g d).phase = s.phase := by
  unfold State.mirror
  split <;> rfl

@[simp] theorem State.mirror_pausePending (s : State) (g : SegId) (d : DropId) :
    (s.mirror g d).pausePending = s.pausePending := by
  unfold State.mirror
  split <;> rfl

@[simp] theorem State.mirror_plan (s : State) (g : SegId) (d : DropId) :
    (s.mirror g d).plan = s.plan := by
  unfold State.mirror
  split <;> rfl

@[simp] theorem State.mirror_ref (s : State) (g : SegId) (d : DropId) :
    (s.mirror g d).ref = s.ref := by
  unfold State.mirror
  split <;> rfl

@[simp] theorem State.mirror_holdCount (s : State) (g : SegId) (d : DropId) :
    (s.mirror g d).holdCount = s.holdCount := by
  unfold State.mirror
  split <;> rfl

@[simp] theorem State.mirror_outCount (s : State) (g : SegId) (d : DropId) :
    (s.mirror g d).outCount = s.outCount := by
  unfold State.mirror
  split <;> rfl

@[simp] theorem State.mirror_spread (s : State) (g : SegId) (d : DropId) :
    (s.mirror g d).spread = s.spread := by
  unfold State.mirror
  split <;> rfl

@[simp] theorem State.mirror_limits (s : State) (g : SegId) (d : DropId) :
    (s.mirror g d).limits = s.limits := by
  unfold State.mirror
  split <;> rfl

@[simp] theorem State.mirror_stop (s : State) (g : SegId) (d : DropId) :
    (s.mirror g d).stop = s.stop := by
  unfold State.mirror
  split <;> rfl

@[simp] theorem State.mirror_notices (s : State) (g : SegId) (d : DropId) :
    (s.mirror g d).notices = s.notices := by
  unfold State.mirror
  split <;> rfl

@[simp] theorem State.mirror_watches (s : State) (g : SegId) (d : DropId) :
    (s.mirror g d).watches = s.watches := by
  unfold State.mirror
  split <;> rfl

@[simp] theorem State.mirror_lastCreep (s : State) (g : SegId) (d : DropId) :
    (s.mirror g d).lastCreep = s.lastCreep := by
  unfold State.mirror
  split <;> rfl

@[simp] theorem State.mirror_lastEcho (s : State) (g : SegId) (d : DropId) :
    (s.mirror g d).lastEcho = s.lastEcho := by
  unfold State.mirror
  split <;> rfl

@[simp] theorem State.mirror_retention (s : State) (g : SegId) (d : DropId) :
    (s.mirror g d).retention = s.retention := by
  unfold State.mirror
  split <;> rfl

@[simp] theorem State.mirror_pending (s : State) (g : SegId) (d : DropId) :
    (s.mirror g d).pending = s.pending := by
  unfold State.mirror
  split <;> rfl

@[simp] theorem State.mirror_fresh (s : State) (g : SegId) (d : DropId) :
    (s.mirror g d).fresh = s.fresh := by
  unfold State.mirror
  split <;> rfl

/-! `State.testMapped` changes only: watches. -/

@[simp] theorem State.testMapped_power (s : State) (g : SegId) (d : DropId) :
    (s.testMapped g d).power = s.power := by
  unfold State.testMapped
  split <;> rfl

@[simp] theorem State.testMapped_baud (s : State) (g : SegId) (d : DropId) :
    (s.testMapped g d).baud = s.baud := by
  unfold State.testMapped
  split <;> rfl

@[simp] theorem State.testMapped_ports (s : State) (g : SegId) (d : DropId) :
    (s.testMapped g d).ports = s.ports := by
  unfold State.testMapped
  split <;> rfl

@[simp] theorem State.testMapped_holder (s : State) (g : SegId) (d : DropId) :
    (s.testMapped g d).holder = s.holder := by
  unfold State.testMapped
  split <;> rfl

@[simp] theorem State.testMapped_lapse (s : State) (g : SegId) (d : DropId) :
    (s.testMapped g d).lapse = s.lapse := by
  unfold State.testMapped
  split <;> rfl

@[simp] theorem State.testMapped_roster (s : State) (g : SegId) (d : DropId) :
    (s.testMapped g d).roster = s.roster := by
  unfold State.testMapped
  split <;> rfl

@[simp] theorem State.testMapped_segs (s : State) (g : SegId) (d : DropId) :
    (s.testMapped g d).segs = s.segs := by
  unfold State.testMapped
  split <;> rfl

@[simp] theorem State.testMapped_cols (s : State) (g : SegId) (d : DropId) :
    (s.testMapped g d).cols = s.cols := by
  unfold State.testMapped
  split <;> rfl

@[simp] theorem State.testMapped_starts (s : State) (g : SegId) (d : DropId) :
    (s.testMapped g d).starts = s.starts := by
  unfold State.testMapped
  split <;> rfl

@[simp] theorem State.testMapped_phase (s : State) (g : SegId) (d : DropId) :
    (s.testMapped g d).phase = s.phase := by
  unfold State.testMapped
  split <;> rfl

@[simp] theorem State.testMapped_pausePending (s : State) (g : SegId) (d : DropId) :
    (s.testMapped g d).pausePending = s.pausePending := by
  unfold State.testMapped
  split <;> rfl

@[simp] theorem State.testMapped_plan (s : State) (g : SegId) (d : DropId) :
    (s.testMapped g d).plan = s.plan := by
  unfold State.testMapped
  split <;> rfl

@[simp] theorem State.testMapped_ref (s : State) (g : SegId) (d : DropId) :
    (s.testMapped g d).ref = s.ref := by
  unfold State.testMapped
  split <;> rfl

@[simp] theorem State.testMapped_holdCount (s : State) (g : SegId) (d : DropId) :
    (s.testMapped g d).holdCount = s.holdCount := by
  unfold State.testMapped
  split <;> rfl

@[simp] theorem State.testMapped_outCount (s : State) (g : SegId) (d : DropId) :
    (s.testMapped g d).outCount = s.outCount := by
  unfold State.testMapped
  split <;> rfl

@[simp] theorem State.testMapped_spread (s : State) (g : SegId) (d : DropId) :
    (s.testMapped g d).spread = s.spread := by
  unfold State.testMapped
  split <;> rfl

@[simp] theorem State.testMapped_limits (s : State) (g : SegId) (d : DropId) :
    (s.testMapped g d).limits = s.limits := by
  unfold State.testMapped
  split <;> rfl

@[simp] theorem State.testMapped_stop (s : State) (g : SegId) (d : DropId) :
    (s.testMapped g d).stop = s.stop := by
  unfold State.testMapped
  split <;> rfl

@[simp] theorem State.testMapped_notices (s : State) (g : SegId) (d : DropId) :
    (s.testMapped g d).notices = s.notices := by
  unfold State.testMapped
  split <;> rfl

@[simp] theorem State.testMapped_lastCreep (s : State) (g : SegId) (d : DropId) :
    (s.testMapped g d).lastCreep = s.lastCreep := by
  unfold State.testMapped
  split <;> rfl

@[simp] theorem State.testMapped_lastEcho (s : State) (g : SegId) (d : DropId) :
    (s.testMapped g d).lastEcho = s.lastEcho := by
  unfold State.testMapped
  split <;> rfl

@[simp] theorem State.testMapped_retention (s : State) (g : SegId) (d : DropId) :
    (s.testMapped g d).retention = s.retention := by
  unfold State.testMapped
  split <;> rfl

@[simp] theorem State.testMapped_pending (s : State) (g : SegId) (d : DropId) :
    (s.testMapped g d).pending = s.pending := by
  unfold State.testMapped
  split <;> rfl

@[simp] theorem State.testMapped_fresh (s : State) (g : SegId) (d : DropId) :
    (s.testMapped g d).fresh = s.fresh := by
  unfold State.testMapped
  split <;> rfl

/-! `State.changePhase` changes only: cols, starts, phase, pausePending, plan, ref, holdCount, outCount, spread, notices, retention, segs. -/

@[simp] theorem State.changePhase_power (s : State) (ph : Phase) :
    (s.changePhase ph).power = s.power := by
  unfold State.changePhase
  repeat' split
  all_goals simp

@[simp] theorem State.changePhase_baud (s : State) (ph : Phase) :
    (s.changePhase ph).baud = s.baud := by
  unfold State.changePhase
  repeat' split
  all_goals simp

@[simp] theorem State.changePhase_ports (s : State) (ph : Phase) :
    (s.changePhase ph).ports = s.ports := by
  unfold State.changePhase
  repeat' split
  all_goals simp

@[simp] theorem State.changePhase_holder (s : State) (ph : Phase) :
    (s.changePhase ph).holder = s.holder := by
  unfold State.changePhase
  repeat' split
  all_goals simp

@[simp] theorem State.changePhase_lapse (s : State) (ph : Phase) :
    (s.changePhase ph).lapse = s.lapse := by
  unfold State.changePhase
  repeat' split
  all_goals simp

@[simp] theorem State.changePhase_roster (s : State) (ph : Phase) :
    (s.changePhase ph).roster = s.roster := by
  unfold State.changePhase
  repeat' split
  all_goals simp

@[simp] theorem State.changePhase_limits (s : State) (ph : Phase) :
    (s.changePhase ph).limits = s.limits := by
  unfold State.changePhase
  repeat' split
  all_goals simp

@[simp] theorem State.changePhase_stop (s : State) (ph : Phase) :
    (s.changePhase ph).stop = s.stop := by
  unfold State.changePhase
  repeat' split
  all_goals simp

@[simp] theorem State.changePhase_watches (s : State) (ph : Phase) :
    (s.changePhase ph).watches = s.watches := by
  unfold State.changePhase
  repeat' split
  all_goals simp

@[simp] theorem State.changePhase_lastCreep (s : State) (ph : Phase) :
    (s.changePhase ph).lastCreep = s.lastCreep := by
  unfold State.changePhase
  repeat' split
  all_goals simp

@[simp] theorem State.changePhase_lastEcho (s : State) (ph : Phase) :
    (s.changePhase ph).lastEcho = s.lastEcho := by
  unfold State.changePhase
  repeat' split
  all_goals simp

@[simp] theorem State.changePhase_pending (s : State) (ph : Phase) :
    (s.changePhase ph).pending = s.pending := by
  unfold State.changePhase
  repeat' split
  all_goals simp

@[simp] theorem State.changePhase_fresh (s : State) (ph : Phase) :
    (s.changePhase ph).fresh = s.fresh := by
  unfold State.changePhase
  repeat' split
  all_goals simp

/-! `State.changeLink` changes only: segs, cols, watches. -/

@[simp] theorem State.changeLink_power (s : State) (g : SegId) (d : DropId) (l : LinkState) :
    (s.changeLink g d l).power = s.power := by
  unfold State.changeLink
  split <;> simp

@[simp] theorem State.changeLink_baud (s : State) (g : SegId) (d : DropId) (l : LinkState) :
    (s.changeLink g d l).baud = s.baud := by
  unfold State.changeLink
  split <;> simp

@[simp] theorem State.changeLink_ports (s : State) (g : SegId) (d : DropId) (l : LinkState) :
    (s.changeLink g d l).ports = s.ports := by
  unfold State.changeLink
  split <;> simp

@[simp] theorem State.changeLink_holder (s : State) (g : SegId) (d : DropId) (l : LinkState) :
    (s.changeLink g d l).holder = s.holder := by
  unfold State.changeLink
  split <;> simp

@[simp] theorem State.changeLink_lapse (s : State) (g : SegId) (d : DropId) (l : LinkState) :
    (s.changeLink g d l).lapse = s.lapse := by
  unfold State.changeLink
  split <;> simp

@[simp] theorem State.changeLink_roster (s : State) (g : SegId) (d : DropId) (l : LinkState) :
    (s.changeLink g d l).roster = s.roster := by
  unfold State.changeLink
  split <;> simp

@[simp] theorem State.changeLink_starts (s : State) (g : SegId) (d : DropId) (l : LinkState) :
    (s.changeLink g d l).starts = s.starts := by
  unfold State.changeLink
  split <;> simp

@[simp] theorem State.changeLink_phase (s : State) (g : SegId) (d : DropId) (l : LinkState) :
    (s.changeLink g d l).phase = s.phase := by
  unfold State.changeLink
  split <;> simp

@[simp] theorem State.changeLink_pausePending (s : State) (g : SegId) (d : DropId) (l : LinkState) :
    (s.changeLink g d l).pausePending = s.pausePending := by
  unfold State.changeLink
  split <;> simp

@[simp] theorem State.changeLink_plan (s : State) (g : SegId) (d : DropId) (l : LinkState) :
    (s.changeLink g d l).plan = s.plan := by
  unfold State.changeLink
  split <;> simp

@[simp] theorem State.changeLink_ref (s : State) (g : SegId) (d : DropId) (l : LinkState) :
    (s.changeLink g d l).ref = s.ref := by
  unfold State.changeLink
  split <;> simp

@[simp] theorem State.changeLink_holdCount (s : State) (g : SegId) (d : DropId) (l : LinkState) :
    (s.changeLink g d l).holdCount = s.holdCount := by
  unfold State.changeLink
  split <;> simp

@[simp] theorem State.changeLink_outCount (s : State) (g : SegId) (d : DropId) (l : LinkState) :
    (s.changeLink g d l).outCount = s.outCount := by
  unfold State.changeLink
  split <;> simp

@[simp] theorem State.changeLink_spread (s : State) (g : SegId) (d : DropId) (l : LinkState) :
    (s.changeLink g d l).spread = s.spread := by
  unfold State.changeLink
  split <;> simp

@[simp] theorem State.changeLink_limits (s : State) (g : SegId) (d : DropId) (l : LinkState) :
    (s.changeLink g d l).limits = s.limits := by
  unfold State.changeLink
  split <;> simp

@[simp] theorem State.changeLink_stop (s : State) (g : SegId) (d : DropId) (l : LinkState) :
    (s.changeLink g d l).stop = s.stop := by
  unfold State.changeLink
  split <;> simp

@[simp] theorem State.changeLink_notices (s : State) (g : SegId) (d : DropId) (l : LinkState) :
    (s.changeLink g d l).notices = s.notices := by
  unfold State.changeLink
  split <;> simp

@[simp] theorem State.changeLink_lastCreep (s : State) (g : SegId) (d : DropId) (l : LinkState) :
    (s.changeLink g d l).lastCreep = s.lastCreep := by
  unfold State.changeLink
  split <;> simp

@[simp] theorem State.changeLink_lastEcho (s : State) (g : SegId) (d : DropId) (l : LinkState) :
    (s.changeLink g d l).lastEcho = s.lastEcho := by
  unfold State.changeLink
  split <;> simp

@[simp] theorem State.changeLink_retention (s : State) (g : SegId) (d : DropId) (l : LinkState) :
    (s.changeLink g d l).retention = s.retention := by
  unfold State.changeLink
  split <;> simp

@[simp] theorem State.changeLink_pending (s : State) (g : SegId) (d : DropId) (l : LinkState) :
    (s.changeLink g d l).pending = s.pending := by
  unfold State.changeLink
  split <;> simp

@[simp] theorem State.changeLink_fresh (s : State) (g : SegId) (d : DropId) (l : LinkState) :
    (s.changeLink g d l).fresh = s.fresh := by
  unfold State.changeLink
  split <;> simp

/-! `State.runStepTimer` changes only: ref. -/

@[simp] theorem State.runStepTimer_power (s : State) :
    s.runStepTimer.power = s.power := rfl

@[simp] theorem State.runStepTimer_baud (s : State) :
    s.runStepTimer.baud = s.baud := rfl

@[simp] theorem State.runStepTimer_ports (s : State) :
    s.runStepTimer.ports = s.ports := rfl

@[simp] theorem State.runStepTimer_holder (s : State) :
    s.runStepTimer.holder = s.holder := rfl

@[simp] theorem State.runStepTimer_lapse (s : State) :
    s.runStepTimer.lapse = s.lapse := rfl

@[simp] theorem State.runStepTimer_roster (s : State) :
    s.runStepTimer.roster = s.roster := rfl

@[simp] theorem State.runStepTimer_segs (s : State) :
    s.runStepTimer.segs = s.segs := rfl

@[simp] theorem State.runStepTimer_cols (s : State) :
    s.runStepTimer.cols = s.cols := rfl

@[simp] theorem State.runStepTimer_starts (s : State) :
    s.runStepTimer.starts = s.starts := rfl

@[simp] theorem State.runStepTimer_phase (s : State) :
    s.runStepTimer.phase = s.phase := rfl

@[simp] theorem State.runStepTimer_pausePending (s : State) :
    s.runStepTimer.pausePending = s.pausePending := rfl

@[simp] theorem State.runStepTimer_plan (s : State) :
    s.runStepTimer.plan = s.plan := rfl

@[simp] theorem State.runStepTimer_holdCount (s : State) :
    s.runStepTimer.holdCount = s.holdCount := rfl

@[simp] theorem State.runStepTimer_outCount (s : State) :
    s.runStepTimer.outCount = s.outCount := rfl

@[simp] theorem State.runStepTimer_spread (s : State) :
    s.runStepTimer.spread = s.spread := rfl

@[simp] theorem State.runStepTimer_limits (s : State) :
    s.runStepTimer.limits = s.limits := rfl

@[simp] theorem State.runStepTimer_stop (s : State) :
    s.runStepTimer.stop = s.stop := rfl

@[simp] theorem State.runStepTimer_notices (s : State) :
    s.runStepTimer.notices = s.notices := rfl

@[simp] theorem State.runStepTimer_watches (s : State) :
    s.runStepTimer.watches = s.watches := rfl

@[simp] theorem State.runStepTimer_lastCreep (s : State) :
    s.runStepTimer.lastCreep = s.lastCreep := rfl

@[simp] theorem State.runStepTimer_lastEcho (s : State) :
    s.runStepTimer.lastEcho = s.lastEcho := rfl

@[simp] theorem State.runStepTimer_retention (s : State) :
    s.runStepTimer.retention = s.retention := rfl

@[simp] theorem State.runStepTimer_pending (s : State) :
    s.runStepTimer.pending = s.pending := rfl

@[simp] theorem State.runStepTimer_fresh (s : State) :
    s.runStepTimer.fresh = s.fresh := rfl

/-! `State.writeSpread` changes only: spread. -/

@[simp] theorem State.writeSpread_power (s : State) (c : CarId) :
    (s.writeSpread c).power = s.power := rfl

@[simp] theorem State.writeSpread_baud (s : State) (c : CarId) :
    (s.writeSpread c).baud = s.baud := rfl

@[simp] theorem State.writeSpread_ports (s : State) (c : CarId) :
    (s.writeSpread c).ports = s.ports := rfl

@[simp] theorem State.writeSpread_holder (s : State) (c : CarId) :
    (s.writeSpread c).holder = s.holder := rfl

@[simp] theorem State.writeSpread_lapse (s : State) (c : CarId) :
    (s.writeSpread c).lapse = s.lapse := rfl

@[simp] theorem State.writeSpread_roster (s : State) (c : CarId) :
    (s.writeSpread c).roster = s.roster := rfl

@[simp] theorem State.writeSpread_segs (s : State) (c : CarId) :
    (s.writeSpread c).segs = s.segs := rfl

@[simp] theorem State.writeSpread_cols (s : State) (c : CarId) :
    (s.writeSpread c).cols = s.cols := rfl

@[simp] theorem State.writeSpread_starts (s : State) (c : CarId) :
    (s.writeSpread c).starts = s.starts := rfl

@[simp] theorem State.writeSpread_phase (s : State) (c : CarId) :
    (s.writeSpread c).phase = s.phase := rfl

@[simp] theorem State.writeSpread_pausePending (s : State) (c : CarId) :
    (s.writeSpread c).pausePending = s.pausePending := rfl

@[simp] theorem State.writeSpread_plan (s : State) (c : CarId) :
    (s.writeSpread c).plan = s.plan := rfl

@[simp] theorem State.writeSpread_ref (s : State) (c : CarId) :
    (s.writeSpread c).ref = s.ref := rfl

@[simp] theorem State.writeSpread_holdCount (s : State) (c : CarId) :
    (s.writeSpread c).holdCount = s.holdCount := rfl

@[simp] theorem State.writeSpread_outCount (s : State) (c : CarId) :
    (s.writeSpread c).outCount = s.outCount := rfl

@[simp] theorem State.writeSpread_limits (s : State) (c : CarId) :
    (s.writeSpread c).limits = s.limits := rfl

@[simp] theorem State.writeSpread_stop (s : State) (c : CarId) :
    (s.writeSpread c).stop = s.stop := rfl

@[simp] theorem State.writeSpread_notices (s : State) (c : CarId) :
    (s.writeSpread c).notices = s.notices := rfl

@[simp] theorem State.writeSpread_watches (s : State) (c : CarId) :
    (s.writeSpread c).watches = s.watches := rfl

@[simp] theorem State.writeSpread_lastCreep (s : State) (c : CarId) :
    (s.writeSpread c).lastCreep = s.lastCreep := rfl

@[simp] theorem State.writeSpread_lastEcho (s : State) (c : CarId) :
    (s.writeSpread c).lastEcho = s.lastEcho := rfl

@[simp] theorem State.writeSpread_retention (s : State) (c : CarId) :
    (s.writeSpread c).retention = s.retention := rfl

@[simp] theorem State.writeSpread_pending (s : State) (c : CarId) :
    (s.writeSpread c).pending = s.pending := rfl

@[simp] theorem State.writeSpread_fresh (s : State) (c : CarId) :
    (s.writeSpread c).fresh = s.fresh := rfl

/-! `State.setStopIn` changes only: stop. -/

@[simp] theorem State.setStopIn_power (s : State) (c : Contact) :
    (s.setStopIn c).power = s.power := rfl

@[simp] theorem State.setStopIn_baud (s : State) (c : Contact) :
    (s.setStopIn c).baud = s.baud := rfl

@[simp] theorem State.setStopIn_ports (s : State) (c : Contact) :
    (s.setStopIn c).ports = s.ports := rfl

@[simp] theorem State.setStopIn_holder (s : State) (c : Contact) :
    (s.setStopIn c).holder = s.holder := rfl

@[simp] theorem State.setStopIn_lapse (s : State) (c : Contact) :
    (s.setStopIn c).lapse = s.lapse := rfl

@[simp] theorem State.setStopIn_roster (s : State) (c : Contact) :
    (s.setStopIn c).roster = s.roster := rfl

@[simp] theorem State.setStopIn_segs (s : State) (c : Contact) :
    (s.setStopIn c).segs = s.segs := rfl

@[simp] theorem State.setStopIn_cols (s : State) (c : Contact) :
    (s.setStopIn c).cols = s.cols := rfl

@[simp] theorem State.setStopIn_starts (s : State) (c : Contact) :
    (s.setStopIn c).starts = s.starts := rfl

@[simp] theorem State.setStopIn_phase (s : State) (c : Contact) :
    (s.setStopIn c).phase = s.phase := rfl

@[simp] theorem State.setStopIn_pausePending (s : State) (c : Contact) :
    (s.setStopIn c).pausePending = s.pausePending := rfl

@[simp] theorem State.setStopIn_plan (s : State) (c : Contact) :
    (s.setStopIn c).plan = s.plan := rfl

@[simp] theorem State.setStopIn_ref (s : State) (c : Contact) :
    (s.setStopIn c).ref = s.ref := rfl

@[simp] theorem State.setStopIn_holdCount (s : State) (c : Contact) :
    (s.setStopIn c).holdCount = s.holdCount := rfl

@[simp] theorem State.setStopIn_outCount (s : State) (c : Contact) :
    (s.setStopIn c).outCount = s.outCount := rfl

@[simp] theorem State.setStopIn_spread (s : State) (c : Contact) :
    (s.setStopIn c).spread = s.spread := rfl

@[simp] theorem State.setStopIn_limits (s : State) (c : Contact) :
    (s.setStopIn c).limits = s.limits := rfl

@[simp] theorem State.setStopIn_notices (s : State) (c : Contact) :
    (s.setStopIn c).notices = s.notices := rfl

@[simp] theorem State.setStopIn_watches (s : State) (c : Contact) :
    (s.setStopIn c).watches = s.watches := rfl

@[simp] theorem State.setStopIn_lastCreep (s : State) (c : Contact) :
    (s.setStopIn c).lastCreep = s.lastCreep := rfl

@[simp] theorem State.setStopIn_lastEcho (s : State) (c : Contact) :
    (s.setStopIn c).lastEcho = s.lastEcho := rfl

@[simp] theorem State.setStopIn_retention (s : State) (c : Contact) :
    (s.setStopIn c).retention = s.retention := rfl

@[simp] theorem State.setStopIn_pending (s : State) (c : Contact) :
    (s.setStopIn c).pending = s.pending := rfl

@[simp] theorem State.setStopIn_fresh (s : State) (c : Contact) :
    (s.setStopIn c).fresh = s.fresh := rfl

/-! `State.closeStopOut` changes only: stop. -/

@[simp] theorem State.closeStopOut_power (s : State) :
    s.closeStopOut.power = s.power := rfl

@[simp] theorem State.closeStopOut_baud (s : State) :
    s.closeStopOut.baud = s.baud := rfl

@[simp] theorem State.closeStopOut_ports (s : State) :
    s.closeStopOut.ports = s.ports := rfl

@[simp] theorem State.closeStopOut_holder (s : State) :
    s.closeStopOut.holder = s.holder := rfl

@[simp] theorem State.closeStopOut_lapse (s : State) :
    s.closeStopOut.lapse = s.lapse := rfl

@[simp] theorem State.closeStopOut_roster (s : State) :
    s.closeStopOut.roster = s.roster := rfl

@[simp] theorem State.closeStopOut_segs (s : State) :
    s.closeStopOut.segs = s.segs := rfl

@[simp] theorem State.closeStopOut_cols (s : State) :
    s.closeStopOut.cols = s.cols := rfl

@[simp] theorem State.closeStopOut_starts (s : State) :
    s.closeStopOut.starts = s.starts := rfl

@[simp] theorem State.closeStopOut_phase (s : State) :
    s.closeStopOut.phase = s.phase := rfl

@[simp] theorem State.closeStopOut_pausePending (s : State) :
    s.closeStopOut.pausePending = s.pausePending := rfl

@[simp] theorem State.closeStopOut_plan (s : State) :
    s.closeStopOut.plan = s.plan := rfl

@[simp] theorem State.closeStopOut_ref (s : State) :
    s.closeStopOut.ref = s.ref := rfl

@[simp] theorem State.closeStopOut_holdCount (s : State) :
    s.closeStopOut.holdCount = s.holdCount := rfl

@[simp] theorem State.closeStopOut_outCount (s : State) :
    s.closeStopOut.outCount = s.outCount := rfl

@[simp] theorem State.closeStopOut_spread (s : State) :
    s.closeStopOut.spread = s.spread := rfl

@[simp] theorem State.closeStopOut_limits (s : State) :
    s.closeStopOut.limits = s.limits := rfl

@[simp] theorem State.closeStopOut_notices (s : State) :
    s.closeStopOut.notices = s.notices := rfl

@[simp] theorem State.closeStopOut_watches (s : State) :
    s.closeStopOut.watches = s.watches := rfl

@[simp] theorem State.closeStopOut_lastCreep (s : State) :
    s.closeStopOut.lastCreep = s.lastCreep := rfl

@[simp] theorem State.closeStopOut_lastEcho (s : State) :
    s.closeStopOut.lastEcho = s.lastEcho := rfl

@[simp] theorem State.closeStopOut_retention (s : State) :
    s.closeStopOut.retention = s.retention := rfl

@[simp] theorem State.closeStopOut_pending (s : State) :
    s.closeStopOut.pending = s.pending := rfl

@[simp] theorem State.closeStopOut_fresh (s : State) :
    s.closeStopOut.fresh = s.fresh := rfl

/-! `State.grant` changes only: holder, lapse, notices. -/

@[simp] theorem State.grant_power (s : State) (q : PortId) :
    (s.grant q).power = s.power := rfl

@[simp] theorem State.grant_baud (s : State) (q : PortId) :
    (s.grant q).baud = s.baud := rfl

@[simp] theorem State.grant_ports (s : State) (q : PortId) :
    (s.grant q).ports = s.ports := rfl

@[simp] theorem State.grant_roster (s : State) (q : PortId) :
    (s.grant q).roster = s.roster := rfl

@[simp] theorem State.grant_segs (s : State) (q : PortId) :
    (s.grant q).segs = s.segs := rfl

@[simp] theorem State.grant_cols (s : State) (q : PortId) :
    (s.grant q).cols = s.cols := rfl

@[simp] theorem State.grant_starts (s : State) (q : PortId) :
    (s.grant q).starts = s.starts := rfl

@[simp] theorem State.grant_phase (s : State) (q : PortId) :
    (s.grant q).phase = s.phase := rfl

@[simp] theorem State.grant_pausePending (s : State) (q : PortId) :
    (s.grant q).pausePending = s.pausePending := rfl

@[simp] theorem State.grant_plan (s : State) (q : PortId) :
    (s.grant q).plan = s.plan := rfl

@[simp] theorem State.grant_ref (s : State) (q : PortId) :
    (s.grant q).ref = s.ref := rfl

@[simp] theorem State.grant_holdCount (s : State) (q : PortId) :
    (s.grant q).holdCount = s.holdCount := rfl

@[simp] theorem State.grant_outCount (s : State) (q : PortId) :
    (s.grant q).outCount = s.outCount := rfl

@[simp] theorem State.grant_spread (s : State) (q : PortId) :
    (s.grant q).spread = s.spread := rfl

@[simp] theorem State.grant_limits (s : State) (q : PortId) :
    (s.grant q).limits = s.limits := rfl

@[simp] theorem State.grant_stop (s : State) (q : PortId) :
    (s.grant q).stop = s.stop := rfl

@[simp] theorem State.grant_watches (s : State) (q : PortId) :
    (s.grant q).watches = s.watches := rfl

@[simp] theorem State.grant_lastCreep (s : State) (q : PortId) :
    (s.grant q).lastCreep = s.lastCreep := rfl

@[simp] theorem State.grant_lastEcho (s : State) (q : PortId) :
    (s.grant q).lastEcho = s.lastEcho := rfl

@[simp] theorem State.grant_retention (s : State) (q : PortId) :
    (s.grant q).retention = s.retention := rfl

@[simp] theorem State.grant_pending (s : State) (q : PortId) :
    (s.grant q).pending = s.pending := rfl

@[simp] theorem State.grant_fresh (s : State) (q : PortId) :
    (s.grant q).fresh = s.fresh := rfl

/-! `State.clearHolder` changes only: holder, lapse, notices. -/

@[simp] theorem State.clearHolder_power (s : State) :
    s.clearHolder.power = s.power := rfl

@[simp] theorem State.clearHolder_baud (s : State) :
    s.clearHolder.baud = s.baud := rfl

@[simp] theorem State.clearHolder_ports (s : State) :
    s.clearHolder.ports = s.ports := rfl

@[simp] theorem State.clearHolder_roster (s : State) :
    s.clearHolder.roster = s.roster := rfl

@[simp] theorem State.clearHolder_segs (s : State) :
    s.clearHolder.segs = s.segs := rfl

@[simp] theorem State.clearHolder_cols (s : State) :
    s.clearHolder.cols = s.cols := rfl

@[simp] theorem State.clearHolder_starts (s : State) :
    s.clearHolder.starts = s.starts := rfl

@[simp] theorem State.clearHolder_phase (s : State) :
    s.clearHolder.phase = s.phase := rfl

@[simp] theorem State.clearHolder_pausePending (s : State) :
    s.clearHolder.pausePending = s.pausePending := rfl

@[simp] theorem State.clearHolder_plan (s : State) :
    s.clearHolder.plan = s.plan := rfl

@[simp] theorem State.clearHolder_ref (s : State) :
    s.clearHolder.ref = s.ref := rfl

@[simp] theorem State.clearHolder_holdCount (s : State) :
    s.clearHolder.holdCount = s.holdCount := rfl

@[simp] theorem State.clearHolder_outCount (s : State) :
    s.clearHolder.outCount = s.outCount := rfl

@[simp] theorem State.clearHolder_spread (s : State) :
    s.clearHolder.spread = s.spread := rfl

@[simp] theorem State.clearHolder_limits (s : State) :
    s.clearHolder.limits = s.limits := rfl

@[simp] theorem State.clearHolder_stop (s : State) :
    s.clearHolder.stop = s.stop := rfl

@[simp] theorem State.clearHolder_watches (s : State) :
    s.clearHolder.watches = s.watches := rfl

@[simp] theorem State.clearHolder_lastCreep (s : State) :
    s.clearHolder.lastCreep = s.lastCreep := rfl

@[simp] theorem State.clearHolder_lastEcho (s : State) :
    s.clearHolder.lastEcho = s.lastEcho := rfl

@[simp] theorem State.clearHolder_retention (s : State) :
    s.clearHolder.retention = s.retention := rfl

@[simp] theorem State.clearHolder_pending (s : State) :
    s.clearHolder.pending = s.pending := rfl

@[simp] theorem State.clearHolder_fresh (s : State) :
    s.clearHolder.fresh = s.fresh := rfl

/-! `State.reply` changes only: ports. -/

@[simp] theorem State.reply_power (s : State) (q : PortId) (c t : Byte) (a : Answer) :
    (s.reply q c t a).power = s.power := rfl

@[simp] theorem State.reply_baud (s : State) (q : PortId) (c t : Byte) (a : Answer) :
    (s.reply q c t a).baud = s.baud := rfl

@[simp] theorem State.reply_holder (s : State) (q : PortId) (c t : Byte) (a : Answer) :
    (s.reply q c t a).holder = s.holder := rfl

@[simp] theorem State.reply_lapse (s : State) (q : PortId) (c t : Byte) (a : Answer) :
    (s.reply q c t a).lapse = s.lapse := rfl

@[simp] theorem State.reply_roster (s : State) (q : PortId) (c t : Byte) (a : Answer) :
    (s.reply q c t a).roster = s.roster := rfl

@[simp] theorem State.reply_segs (s : State) (q : PortId) (c t : Byte) (a : Answer) :
    (s.reply q c t a).segs = s.segs := rfl

@[simp] theorem State.reply_cols (s : State) (q : PortId) (c t : Byte) (a : Answer) :
    (s.reply q c t a).cols = s.cols := rfl

@[simp] theorem State.reply_starts (s : State) (q : PortId) (c t : Byte) (a : Answer) :
    (s.reply q c t a).starts = s.starts := rfl

@[simp] theorem State.reply_phase (s : State) (q : PortId) (c t : Byte) (a : Answer) :
    (s.reply q c t a).phase = s.phase := rfl

@[simp] theorem State.reply_pausePending (s : State) (q : PortId) (c t : Byte) (a : Answer) :
    (s.reply q c t a).pausePending = s.pausePending := rfl

@[simp] theorem State.reply_plan (s : State) (q : PortId) (c t : Byte) (a : Answer) :
    (s.reply q c t a).plan = s.plan := rfl

@[simp] theorem State.reply_ref (s : State) (q : PortId) (c t : Byte) (a : Answer) :
    (s.reply q c t a).ref = s.ref := rfl

@[simp] theorem State.reply_holdCount (s : State) (q : PortId) (c t : Byte) (a : Answer) :
    (s.reply q c t a).holdCount = s.holdCount := rfl

@[simp] theorem State.reply_outCount (s : State) (q : PortId) (c t : Byte) (a : Answer) :
    (s.reply q c t a).outCount = s.outCount := rfl

@[simp] theorem State.reply_spread (s : State) (q : PortId) (c t : Byte) (a : Answer) :
    (s.reply q c t a).spread = s.spread := rfl

@[simp] theorem State.reply_limits (s : State) (q : PortId) (c t : Byte) (a : Answer) :
    (s.reply q c t a).limits = s.limits := rfl

@[simp] theorem State.reply_stop (s : State) (q : PortId) (c t : Byte) (a : Answer) :
    (s.reply q c t a).stop = s.stop := rfl

@[simp] theorem State.reply_notices (s : State) (q : PortId) (c t : Byte) (a : Answer) :
    (s.reply q c t a).notices = s.notices := rfl

@[simp] theorem State.reply_watches (s : State) (q : PortId) (c t : Byte) (a : Answer) :
    (s.reply q c t a).watches = s.watches := rfl

@[simp] theorem State.reply_lastCreep (s : State) (q : PortId) (c t : Byte) (a : Answer) :
    (s.reply q c t a).lastCreep = s.lastCreep := rfl

@[simp] theorem State.reply_lastEcho (s : State) (q : PortId) (c t : Byte) (a : Answer) :
    (s.reply q c t a).lastEcho = s.lastEcho := rfl

@[simp] theorem State.reply_retention (s : State) (q : PortId) (c t : Byte) (a : Answer) :
    (s.reply q c t a).retention = s.retention := rfl

@[simp] theorem State.reply_pending (s : State) (q : PortId) (c t : Byte) (a : Answer) :
    (s.reply q c t a).pending = s.pending := rfl

@[simp] theorem State.reply_fresh (s : State) (q : PortId) (c t : Byte) (a : Answer) :
    (s.reply q c t a).fresh = s.fresh := rfl

/-! `State.clearLatches` changes only: cols. -/

@[simp] theorem State.clearLatches_power (s : State) :
    s.clearLatches.power = s.power := rfl

@[simp] theorem State.clearLatches_baud (s : State) :
    s.clearLatches.baud = s.baud := rfl

@[simp] theorem State.clearLatches_ports (s : State) :
    s.clearLatches.ports = s.ports := rfl

@[simp] theorem State.clearLatches_holder (s : State) :
    s.clearLatches.holder = s.holder := rfl

@[simp] theorem State.clearLatches_lapse (s : State) :
    s.clearLatches.lapse = s.lapse := rfl

@[simp] theorem State.clearLatches_roster (s : State) :
    s.clearLatches.roster = s.roster := rfl

@[simp] theorem State.clearLatches_segs (s : State) :
    s.clearLatches.segs = s.segs := rfl

@[simp] theorem State.clearLatches_starts (s : State) :
    s.clearLatches.starts = s.starts := rfl

@[simp] theorem State.clearLatches_phase (s : State) :
    s.clearLatches.phase = s.phase := rfl

@[simp] theorem State.clearLatches_pausePending (s : State) :
    s.clearLatches.pausePending = s.pausePending := rfl

@[simp] theorem State.clearLatches_plan (s : State) :
    s.clearLatches.plan = s.plan := rfl

@[simp] theorem State.clearLatches_ref (s : State) :
    s.clearLatches.ref = s.ref := rfl

@[simp] theorem State.clearLatches_holdCount (s : State) :
    s.clearLatches.holdCount = s.holdCount := rfl

@[simp] theorem State.clearLatches_outCount (s : State) :
    s.clearLatches.outCount = s.outCount := rfl

@[simp] theorem State.clearLatches_spread (s : State) :
    s.clearLatches.spread = s.spread := rfl

@[simp] theorem State.clearLatches_limits (s : State) :
    s.clearLatches.limits = s.limits := rfl

@[simp] theorem State.clearLatches_stop (s : State) :
    s.clearLatches.stop = s.stop := rfl

@[simp] theorem State.clearLatches_notices (s : State) :
    s.clearLatches.notices = s.notices := rfl

@[simp] theorem State.clearLatches_watches (s : State) :
    s.clearLatches.watches = s.watches := rfl

@[simp] theorem State.clearLatches_lastCreep (s : State) :
    s.clearLatches.lastCreep = s.lastCreep := rfl

@[simp] theorem State.clearLatches_lastEcho (s : State) :
    s.clearLatches.lastEcho = s.lastEcho := rfl

@[simp] theorem State.clearLatches_retention (s : State) :
    s.clearLatches.retention = s.retention := rfl

@[simp] theorem State.clearLatches_pending (s : State) :
    s.clearLatches.pending = s.pending := rfl

@[simp] theorem State.clearLatches_fresh (s : State) :
    s.clearLatches.fresh = s.fresh := rfl

end Sys2Proof.Machine
end

