-- ==== Sys2Proof/Laws/Access.lean ====
section
/-! SUPPORT. What an accessor reads after each named update: a port, a segment, a drop, a column, a roster view and a limit. -/

namespace Sys2Proof.Machine

/-! ### Ports, notices and watches -/

theorem State.port_modPort (s : State) (q q' : PortId) (f : Port → Port) :
    (s.modPort q f).port q' = if q' = q then f (s.port q') else s.port q' :=
  s.ports.get_modify q q' f

@[simp] theorem State.port_modPort_self (s : State) (q : PortId) (f : Port → Port) :
    (s.modPort q f).port q = f (s.port q) :=
  s.ports.get_modify_self q f

theorem State.port_modPort_of_ne (s : State) {q q' : PortId} (f : Port → Port) (h : q' ≠ q) :
    (s.modPort q f).port q' = s.port q' :=
  s.ports.get_modify_of_ne f h

theorem State.notices_modNotices (s : State) (q q' : PortId) (f : NoticeState → NoticeState) :
    (s.modNotices q f).notices.get q' = if q' = q then f (s.notices.get q') else s.notices.get q' :=
  s.notices.get_modify q q' f

theorem State.watches_modWatch (s : State) (q q' : PortId) (f : WatchState → WatchState) :
    (s.modWatch q f).watches.get q' = if q' = q then f (s.watches.get q') else s.watches.get q' :=
  s.watches.get_modify q q' f

@[simp] theorem State.notices_raise (s : State) (c : Category) (q : PortId) :
    (s.raise c).notices.get q = (s.notices.get q).raised c :=
  Table.get_map _ _ _

@[simp] theorem State.watches_testWatches (s : State) (p : Pos) (q : PortId) :
    (s.testWatches p).watches.get q = (s.watches.get q).tested p (s.col p) :=
  Table.get_map _ _ _

/-! ### Segments and drops -/

theorem State.seg_modSeg (s : State) (g g' : SegId) (f : Segment → Segment) :
    (s.modSeg g f).seg g' = if g' = g then f (s.seg g') else s.seg g' :=
  s.segs.get_modify g g' f

@[simp] theorem State.seg_modSeg_self (s : State) (g : SegId) (f : Segment → Segment) :
    (s.modSeg g f).seg g = f (s.seg g) :=
  s.segs.get_modify_self g f

theorem State.seg_modSeg_of_ne (s : State) {g g' : SegId} (f : Segment → Segment) (h : g' ≠ g) :
    (s.modSeg g f).seg g' = s.seg g' :=
  s.segs.get_modify_of_ne f h

@[simp] theorem State.seg_mapSegs (s : State) (f : Segment → Segment) (g : SegId) :
    (s.mapSegs f).seg g = f (s.seg g) :=
  Table.get_map f s.segs g

theorem State.drop_modDrop (s : State) (g g' : SegId) (d d' : DropId) (f : Drop → Drop) :
    (s.modDrop g d f).drop g' d' = if g' = g ∧ d' = d then f (s.drop g' d') else s.drop g' d' := by
  unfold State.modDrop State.drop
  rw [State.seg_modSeg]
  by_cases h : g' = g
  · simp only [h, true_and, if_true]
    exact Table.get_modify _ _ _ _
  · simp [h]

@[simp] theorem State.drop_modDrop_self (s : State) (g : SegId) (d : DropId) (f : Drop → Drop) :
    (s.modDrop g d f).drop g d = f (s.drop g d) := by
  simp [State.drop_modDrop]

/-- An update of a segment that keeps its drops keeps every drop of the part. -/
theorem State.drop_modSeg (s : State) (g g' : SegId) (d : DropId) (f : Segment → Segment)
    (h : (f (s.seg g)).drops = (s.seg g).drops) : (s.modSeg g f).drop g' d = s.drop g' d := by
  unfold State.drop
  rw [State.seg_modSeg]
  split
  · next e => rw [e, h]
  · rfl

/-- An update of all segments that keeps their drops keeps every drop of the part. -/
theorem State.drop_mapSegs (s : State) (g : SegId) (d : DropId) (f : Segment → Segment)
    (h : ∀ sg, (f sg).drops = sg.drops) : (s.mapSegs f).drop g d = s.drop g d := by
  simp [State.drop, h]

/-! ### Columns -/

theorem State.col_modCol (s : State) (p p' : Pos) (f : Column → Column) :
    (s.modCol p f).col p' = if p' = p then f (s.col p') else s.col p' :=
  s.cols.get_modify p p' f

@[simp] theorem State.col_modCol_self (s : State) (p : Pos) (f : Column → Column) :
    (s.modCol p f).col p = f (s.col p) :=
  s.cols.get_modify_self p f

theorem State.col_modCol_of_ne (s : State) {p p' : Pos} (f : Column → Column) (h : p' ≠ p) :
    (s.modCol p f).col p' = s.col p' :=
  s.cols.get_modify_of_ne f h

@[simp] theorem State.col_mapCols (s : State) (f : Column → Column) (p : Pos) :
    (s.mapCols f).col p = f (s.col p) :=
  Table.get_map f s.cols p

/-! ### Reads that depend on some fields alone -/

theorem State.col_congr {s t : State} (h : t.cols = s.cols) (p : Pos) : t.col p = s.col p := by
  simp [State.col, h]

theorem State.seg_congr {s t : State} (h : t.segs = s.segs) (g : SegId) : t.seg g = s.seg g := by
  simp [State.seg, h]

theorem State.drop_congr {s t : State} (h : t.segs = s.segs) (g : SegId) (d : DropId) : t.drop g d = s.drop g d := by
  simp [State.drop, State.seg, h]

theorem State.port_congr {s t : State} (h : t.ports = s.ports) (q : PortId) : t.port q = s.port q := by
  simp [State.port, h]

theorem State.entry_congr {s t : State} (h : t.roster = s.roster) (p : Pos) : t.entry p = s.entry p := by
  simp [State.entry, h]

theorem State.validPos_congr {s t : State} (h : t.roster = s.roster) : t.validPos = s.validPos := by
  funext p
  simp [State.validPos, State.entry_congr h]

theorem State.validPositions_congr {s t : State} (h : t.roster = s.roster) : t.validPositions = s.validPositions := by
  simp [State.validPositions, State.validPos_congr h]

theorem State.mappedAt_congr {s t : State} (h : t.roster = s.roster) : t.mappedAt = s.mappedAt := by
  funext g d
  simp [State.mappedAt, State.entry_congr h]

theorem State.limit_congr {s t : State} (h : t.limits = s.limits) : t.limit = s.limit := by
  funext i
  simp [State.limit, h]

theorem State.mem_validPositions {s : State} {p : Pos} : p ∈ s.validPositions ↔ s.validPos p = true := by
  simp [State.validPositions]

/-- The position that the reverse map gives has an entry that names the pair (R3). -/
theorem State.entry_of_mappedAt {s : State} {g : SegId} {d : DropId} {p : Pos} (h : s.mappedAt g d = some p) :
    ∃ e, s.entry p = some e ∧ e.seg = g ∧ e.drop = d := by
  have := List.find?_some h
  unfold entryNames at this
  split at this
  · next e he => exact ⟨e, he, by simpa using this⟩
  · cases this

theorem entryNames_iff {g : SegId} {d : DropId} {e : Option RosterEntry} :
    entryNames g d e = true ↔ ∃ x, e = some x ∧ x.seg = g ∧ x.drop = d := by
  cases e with
  | none => simp [entryNames]
  | some x => simp [entryNames]

/-- Where no position is mapped to a pair, no entry names it. -/
theorem State.mappedAt_none {s : State} {g : SegId} {d : DropId} (h : s.mappedAt g d = none) (p : Pos) :
    entryNames g d (s.entry p) = false := by
  have := List.find?_eq_none.mp h p (List.mem_finRange p)
  simpa using this

/-- In a roster that names no drop twice, the reverse map of an entry's drop is its position (R3, R5). -/
theorem State.mappedAt_of_entry {s : State} (hr : s.roster.injective = true) {p : Pos} {e : RosterEntry}
    (h : s.entry p = some e) : s.mappedAt e.seg e.drop = some p := by
  cases hm : s.mappedAt e.seg e.drop with
  | none =>
    have := State.mappedAt_none hm p
    rw [h] at this
    simp [entryNames] at this
  | some x =>
    obtain ⟨e', he', h1, h2⟩ := State.entry_of_mappedAt hm
    have := List.all_eq_true.mp hr p (List.mem_finRange p)
    have hp : s.roster.entries.get p = some e := h
    have hx : s.roster.entries.get x = some e' := he'
    simp only [hp] at this
    have := List.all_eq_true.mp this x (List.mem_finRange x)
    simp [hx, entryNames, h1, h2] at this
    rw [this]

end Sys2Proof.Machine
end

