-- ==== Sys2Proof/Laws/Frames.lean ====
section
/-! SUPPORT. What each shared operation leaves alone, said once an operation for two groups of fields: the desk (the power
state, the ports, the authority, the roster, the limits and the queue) and the course (the phase, the plan, the reference and
the stop unit). A later proof takes one field of a group with `State.<field>_of_desk` or `State.<field>_of_course`. -/

namespace Sys2Proof.Machine

/-- What the events of the columns, the lines and the phases leave alone. -/
structure Desk where
  power : PowerState
  baud : BaudRate
  ports : Table Port 4
  holder : Option PortId
  lapse : Timer
  roster : Roster
  limits : Table Nat 17
  pending : List Instr

/-- The fields of `Desk`. -/
def State.desk (s : State) : Desk :=
  { power := s.power, baud := s.baud, ports := s.ports, holder := s.holder, lapse := s.lapse, roster := s.roster, limits := s.limits, pending := s.pending }

theorem State.power_of_desk {s t : State} (h : t.desk = s.desk) : t.power = s.power :=
  congrArg Desk.power h

theorem State.baud_of_desk {s t : State} (h : t.desk = s.desk) : t.baud = s.baud :=
  congrArg Desk.baud h

theorem State.ports_of_desk {s t : State} (h : t.desk = s.desk) : t.ports = s.ports :=
  congrArg Desk.ports h

theorem State.holder_of_desk {s t : State} (h : t.desk = s.desk) : t.holder = s.holder :=
  congrArg Desk.holder h

theorem State.lapse_of_desk {s t : State} (h : t.desk = s.desk) : t.lapse = s.lapse :=
  congrArg Desk.lapse h

theorem State.roster_of_desk {s t : State} (h : t.desk = s.desk) : t.roster = s.roster :=
  congrArg Desk.roster h

theorem State.limits_of_desk {s t : State} (h : t.desk = s.desk) : t.limits = s.limits :=
  congrArg Desk.limits h

theorem State.pending_of_desk {s t : State} (h : t.desk = s.desk) : t.pending = s.pending :=
  congrArg Desk.pending h


/-- What everything but the phases, the plan, the reference and the stops leaves alone. -/
structure Course where
  phase : Phase
  pausePending : Bool
  plan : Plan
  ref : Reference
  stop : StopUnit

/-- The fields of `Course`. -/
def State.course (s : State) : Course :=
  { phase := s.phase, pausePending := s.pausePending, plan := s.plan, ref := s.ref, stop := s.stop }

theorem State.phase_of_course {s t : State} (h : t.course = s.course) : t.phase = s.phase :=
  congrArg Course.phase h

theorem State.pausePending_of_course {s t : State} (h : t.course = s.course) : t.pausePending = s.pausePending :=
  congrArg Course.pausePending h

theorem State.plan_of_course {s t : State} (h : t.course = s.course) : t.plan = s.plan :=
  congrArg Course.plan h

theorem State.ref_of_course {s t : State} (h : t.course = s.course) : t.ref = s.ref :=
  congrArg Course.ref h

theorem State.stop_of_course {s t : State} (h : t.course = s.course) : t.stop = s.stop :=
  congrArg Course.stop h


@[simp] theorem State.desk_update (s : State) (segs : Table Segment 4)
    (cols : Table Column 48)
    (starts : Table (Option Nat) 48)
    (phase : Phase)
    (pausePending : Bool)
    (plan : Plan)
    (ref : Reference)
    (holdCount : Nat)
    (outCount : Nat)
    (spread : Table (Option Nat) 12)
    (stop : StopUnit)
    (notices : Table NoticeState 4)
    (watches : Table WatchState 4)
    (lastCreep : Option CreepRecord)
    (lastEcho : Option SegId)
    (retention : Retention)
    (fresh : Nat) :
    ({ s with
        segs := segs
        cols := cols
        starts := starts
        phase := phase
        pausePending := pausePending
        plan := plan
        ref := ref
        holdCount := holdCount
        outCount := outCount
        spread := spread
        stop := stop
        notices := notices
        watches := watches
        lastCreep := lastCreep
        lastEcho := lastEcho
        retention := retention
        fresh := fresh } : State).desk = s.desk := rfl

@[simp] theorem State.course_update (s : State) (power : PowerState)
    (baud : BaudRate)
    (ports : Table Port 4)
    (holder : Option PortId)
    (lapse : Timer)
    (roster : Roster)
    (segs : Table Segment 4)
    (cols : Table Column 48)
    (starts : Table (Option Nat) 48)
    (holdCount : Nat)
    (outCount : Nat)
    (spread : Table (Option Nat) 12)
    (limits : Table Nat 17)
    (notices : Table NoticeState 4)
    (watches : Table WatchState 4)
    (lastCreep : Option CreepRecord)
    (lastEcho : Option SegId)
    (retention : Retention)
    (pending : List Instr)
    (fresh : Nat) :
    ({ s with
        power := power
        baud := baud
        ports := ports
        holder := holder
        lapse := lapse
        roster := roster
        segs := segs
        cols := cols
        starts := starts
        holdCount := holdCount
        outCount := outCount
        spread := spread
        limits := limits
        notices := notices
        watches := watches
        lastCreep := lastCreep
        lastEcho := lastEcho
        retention := retention
        pending := pending
        fresh := fresh } : State).course = s.course := rfl

/-! ### The desk -/

@[simp] theorem State.modSeg_desk (s : State) (g : SegId) (f : Segment → Segment) :
    (s.modSeg g f).desk = s.desk := rfl

@[simp] theorem State.mapSegs_desk (s : State) (f : Segment → Segment) :
    (s.mapSegs f).desk = s.desk := rfl

@[simp] theorem State.modDrop_desk (s : State) (g : SegId) (d : DropId) (f : Drop → Drop) :
    (s.modDrop g d f).desk = s.desk := rfl

@[simp] theorem State.modCol_desk (s : State) (p : Pos) (f : Column → Column) :
    (s.modCol p f).desk = s.desk := rfl

@[simp] theorem State.mapCols_desk (s : State) (f : Column → Column) :
    (s.mapCols f).desk = s.desk := rfl

@[simp] theorem State.modNotices_desk (s : State) (q : PortId) (f : NoticeState → NoticeState) :
    (s.modNotices q f).desk = s.desk := rfl

@[simp] theorem State.modWatch_desk (s : State) (q : PortId) (f : WatchState → WatchState) :
    (s.modWatch q f).desk = s.desk := rfl

@[simp] theorem State.setDemand_desk (s : State) (p : Pos) (v : Int) :
    (s.setDemand p v).desk = s.desk := rfl

@[simp] theorem State.spendFresh_desk (s : State) :
    s.spendFresh.desk = s.desk := rfl

@[simp] theorem State.raise_desk (s : State) (c : Category) :
    (s.raise c).desk = s.desk := rfl

@[simp] theorem State.raiseIfAny_desk (s : State) (c : Option Category) :
    (s.raiseIfAny c).desk = s.desk := by
  unfold State.raiseIfAny
  split <;> rfl

@[simp] theorem State.testWatches_desk (s : State) (p : Pos) :
    (s.testWatches p).desk = s.desk := rfl

@[simp] theorem State.wake_desk (s : State) :
    s.wake.desk = s.desk := by
  unfold State.wake
  split <;> rfl

@[simp] theorem State.trigger_desk (s : State) :
    s.trigger.desk = s.desk := by
  unfold State.trigger
  repeat' split
  all_goals simp

@[simp] theorem State.classify_desk (s : State) (p : Pos) (cls : Classification) (m : Bool) (lag : Option Int) :
    (s.classify p cls m lag).desk = s.desk := rfl

@[simp] theorem State.untrack_desk (s : State) :
    s.untrack.desk = s.desk := rfl

@[simp] theorem State.discardLift_desk (s : State) :
    s.discardLift.desk = s.desk := rfl

@[simp] theorem State.zeroReference_desk (s : State) :
    s.zeroReference.desk = s.desk := rfl

@[simp] theorem State.enterRest_desk (s : State) (ph : Phase) :
    (s.enterRest ph).desk = s.desk := by
  unfold State.enterRest
  split <;> rfl

@[simp] theorem State.clearParked_desk (s : State) (ph : Phase) :
    (s.clearParked ph).desk = s.desk := by
  unfold State.clearParked
  split <;> rfl

@[simp] theorem State.setStarts_desk (s : State) (ph : Phase) :
    (s.setStarts ph).desk = s.desk := by
  unfold State.setStarts
  repeat' split
  all_goals simp

@[simp] theorem State.haltMotion_desk (s : State) (ph : Phase) :
    (s.haltMotion ph).desk = s.desk := rfl

@[simp] theorem State.applyPolling_desk (s : State) :
    s.applyPolling.desk = s.desk := by
  unfold State.applyPolling
  split <;> simp

@[simp] theorem State.changePhase_desk (s : State) (ph : Phase) :
    (s.changePhase ph).desk = s.desk := by
  unfold State.changePhase
  repeat' split
  all_goals simp

@[simp] theorem State.raiseEchoDone_desk (s : State) (g : SegId) :
    (s.raiseEchoDone g).desk = s.desk := rfl

@[simp] theorem State.abortEcho_desk (s : State) (g : SegId) :
    (s.abortEcho g).desk = s.desk := by
  unfold State.abortEcho
  split <;> rfl

@[simp] theorem State.firstStop_desk (s : State) (o : Offer) :
    (s.firstStop o).desk = s.desk := by
  unfold State.firstStop
  simp

@[simp] theorem State.furtherCause_desk (s : State) (c : StopCause) :
    (s.furtherCause c).desk = s.desk := by
  unfold State.furtherCause
  split <;> rfl

@[simp] theorem State.offerStop_desk (s : State) (o : Offer) :
    (s.offerStop o).desk = s.desk := by
  unfold State.offerStop
  repeat' split
  all_goals simp

@[simp] theorem State.mirror_desk (s : State) (g : SegId) (d : DropId) :
    (s.mirror g d).desk = s.desk := by
  unfold State.mirror
  split <;> rfl

@[simp] theorem State.testMapped_desk (s : State) (g : SegId) (d : DropId) :
    (s.testMapped g d).desk = s.desk := by
  unfold State.testMapped
  split <;> rfl

@[simp] theorem State.changeLink_desk (s : State) (g : SegId) (d : DropId) (l : LinkState) :
    (s.changeLink g d l).desk = s.desk := by
  unfold State.changeLink
  split <;> simp

@[simp] theorem State.spendForLeg_desk (s : State) :
    s.spendForLeg.desk = s.desk := by
  unfold State.spendForLeg
  split <;> rfl

@[simp] theorem State.takeLeg_desk (s : State) (b : Bool) :
    (s.takeLeg b).desk = s.desk := by
  unfold State.takeLeg
  split <;> simp

@[simp] theorem State.runStepTimer_desk (s : State) :
    s.runStepTimer.desk = s.desk := rfl

@[simp] theorem State.startLeg_desk (s : State) (b : Bool) :
    (s.startLeg b).desk = s.desk := by
  unfold State.startLeg
  simp

@[simp] theorem State.startDwell_desk (s : State) :
    s.startDwell.desk = s.desk := by
  unfold State.startDwell
  simp

@[simp] theorem State.countLeg_desk (s : State) :
    s.countLeg.desk = s.desk := by
  unfold State.countLeg
  simp

@[simp] theorem State.afterDwell_desk (s : State) :
    s.afterDwell.1.desk = s.desk := by
  unfold State.afterDwell
  split <;> simp

@[simp] theorem State.finishLeg_desk (s : State) :
    s.finishLeg.1.desk = s.desk := by
  unfold State.finishLeg
  dsimp only
  repeat' split
  all_goals simp

@[simp] theorem State.completeLegs_desk (n : Nat) : ∀ s : State, (State.completeLegs n s).desk = s.desk := by
  induction n with
  | zero => intro s; rfl
  | succ n ih =>
    intro s
    unfold State.completeLegs
    (repeat' split) <;> simp [ih]

@[simp] theorem State.testCompletion_desk (s : State) : s.testCompletion.desk = s.desk :=
  State.completeLegs_desk _ s

@[simp] theorem State.stepReference_desk (s : State) :
    s.stepReference.desk = s.desk := by
  unfold State.stepReference
  split <;> rfl

@[simp] theorem State.testPause_desk (s : State) :
    s.testPause.desk = s.desk := by
  unfold State.testPause
  split <;> simp

@[simp] theorem State.afterStep_desk (s : State) :
    s.afterStep.desk = s.desk := by
  unfold State.afterStep
  split <;> simp

@[simp] theorem State.referenceStep_desk (s : State) :
    s.referenceStep.desk = s.desk := by
  unfold State.referenceStep
  repeat' split
  all_goals simp

@[simp] theorem State.dwellExpiry_desk (s : State) :
    s.dwellExpiry.desk = s.desk := by
  unfold State.dwellExpiry
  repeat' split
  all_goals simp

@[simp] theorem State.writeSpread_desk (s : State) (c : CarId) :
    (s.writeSpread c).desk = s.desk := rfl

@[simp] theorem State.offerAll_desk (os : List Offer) : ∀ s : State, (s.offerAll os).desk = s.desk := by
  induction os with
  | nil => intro s; rfl
  | cons o os ih =>
    intro s
    have := ih (s.offerStop o)
    simpa [State.offerAll] using this

@[simp] theorem State.endJog_desk (s : State) (p : Pos) :
    (s.endJog p).desk = s.desk := by
  unfold State.endJog
  dsimp only
  split <;> simp

@[simp] theorem State.trackedDemand_desk (s : State) (p : Pos) (v : Nat) (e : Int) :
    (s.trackedDemand p v e).desk = s.desk := by
  unfold State.trackedDemand
  repeat' split
  all_goals simp

@[simp] theorem State.followShare_desk (s : State) (n : Nat) (p : Pos) :
    (s.followShare n p).desk = s.desk := by
  unfold State.followShare
  dsimp only
  repeat' split
  all_goals simp

@[simp] theorem State.evaluateShares_desk (s : State) (c : CarId) : (s.evaluateShares c).desk = s.desk := by
  unfold State.evaluateShares
  (repeat' split) <;> simp [carPositions]

@[simp] theorem State.classifyAt_desk (s : State) (p : Pos) (e : Int) :
    (s.classifyAt p e).desk = s.desk := rfl

@[simp] theorem State.trackedWork_desk (s : State) (p : Pos) :
    (s.trackedWork p).desk = s.desk := by
  unfold State.trackedWork
  repeat' split
  all_goals simp

@[simp] theorem State.restWork_desk (s : State) (p : Pos) :
    (s.restWork p).desk = s.desk := by
  unfold State.restWork
  simp

@[simp] theorem State.takeStart_desk (s : State) (p : Pos) :
    (s.takeStart p).desk = s.desk := by
  unfold State.takeStart
  split <;> rfl

@[simp] theorem State.recordContact_desk (s : State) (p : Pos) :
    (s.recordContact p).desk = s.desk := rfl

@[simp] theorem State.testAllContact_desk (s : State) :
    s.testAllContact.desk = s.desk := by
  unfold State.testAllContact
  split <;> simp

@[simp] theorem State.rise_desk (s : State) (p : Pos) :
    (s.rise p).desk = s.desk := by
  unfold State.rise
  repeat' split
  all_goals simp

@[simp] theorem State.approachColumn_desk (s : State) (p : Pos) :
    (s.approachColumn p).desk = s.desk := by
  unfold State.approachColumn
  repeat' split
  all_goals simp

@[simp] theorem State.approachWork_desk (s : State) (p : Pos) :
    (s.approachWork p).desk = s.desk := by
  unfold State.approachWork
  dsimp only
  split <;> simp

@[simp] theorem State.park_desk (s : State) (p : Pos) :
    (s.park p).desk = s.desk := by
  unfold State.park
  dsimp only
  split <;> simp

@[simp] theorem State.retractColumn_desk (s : State) (p : Pos) :
    (s.retractColumn p).desk = s.desk := by
  unfold State.retractColumn
  repeat' split
  all_goals simp

@[simp] theorem State.retractWork_desk (s : State) (p : Pos) :
    (s.retractWork p).desk = s.desk := by
  unfold State.retractWork
  dsimp only
  split <;> simp

@[simp] theorem State.trackingWork_desk (s : State) (p : Pos) :
    (s.trackingWork p).desk = s.desk := by
  unfold State.trackingWork
  dsimp only
  split <;> simp

@[simp] theorem State.dropLeaves_desk (s : State) (g : SegId) (d : DropId) :
    (s.dropLeaves g d).desk = s.desk := by
  unfold State.dropLeaves
  split <;> simp

@[simp] theorem State.entryLeaves_desk (s : State) (e : Option RosterEntry) :
    (s.entryLeaves e).desk = s.desk := by
  unfold State.entryLeaves
  split <;> simp

@[simp] theorem State.emptyRecord_desk (s : State) (p : Pos) :
    (s.emptyRecord p).desk = s.desk := by
  unfold State.emptyRecord
  split <;> simp

@[simp] theorem State.loadRecord_desk (s : State) (p : Pos) (g : SegId) (d : DropId) :
    (s.loadRecord p g d).desk = s.desk := by
  unfold State.loadRecord
  split <;> simp

@[simp] theorem State.triggerIfChanged_desk (s : State) (r : Roster) :
    (s.triggerIfChanged r).desk = s.desk := by
  unfold State.triggerIfChanged
  split <;> simp

@[simp] theorem State.enrolAt_desk (s : State) (p : Pos) :
    (s.enrolAt p).desk = s.desk := by
  unfold State.enrolAt
  repeat' split
  all_goals simp

@[simp] theorem State.clearLatches_desk (s : State) :
    s.clearLatches.desk = s.desk := rfl

@[simp] theorem State.storePage_desk (s : State) (g : SegId) (d : DropId) (c : Capability) (n : Fin 4) :
    (s.storePage g d c n).desk = s.desk := by
  unfold State.storePage
  simp

@[simp] theorem State.refuseDrop_desk (s : State) (g : SegId) (d : DropId) :
    (s.refuseDrop g d).desk = s.desk := by
  unfold State.refuseDrop
  simp

@[simp] theorem State.endPaging_desk (s : State) (g : SegId) (d : DropId) :
    (s.endPaging g d).desk = s.desk := by
  unfold State.endPaging
  simp

@[simp] theorem State.takePage1_desk (s : State) (g : SegId) (d : DropId) (r : Report) :
    (s.takePage1 g d r).desk = s.desk := by
  unfold State.takePage1
  split <;> simp

@[simp] theorem State.takePage2_desk (s : State) (g : SegId) (d : DropId) (r : Report) :
    (s.takePage2 g d r).desk = s.desk := by
  unfold State.takePage2
  split <;> simp

@[simp] theorem State.takePage_desk (s : State) (g : SegId) (x : Exchange) (r : Report) :
    (s.takePage g x r).desk = s.desk := by
  unfold State.takePage
  repeat' split
  all_goals simp

@[simp] theorem State.acceptReply_desk (s : State) (g : SegId) (x : Exchange) (r : Report) :
    (s.acceptReply g x r).desk = s.desk := by
  unfold State.acceptReply
  dsimp only
  split <;> simp

@[simp] theorem State.loseDrop_desk (s : State) (g : SegId) (d : DropId) :
    (s.loseDrop g d).desk = s.desk := by
  unfold State.loseDrop
  dsimp only
  repeat' split
  all_goals simp

@[simp] theorem State.missedLink_desk (s : State) (g : SegId) (d : DropId) :
    (s.missedLink g d).desk = s.desk := by
  unfold State.missedLink
  repeat' split
  all_goals simp

@[simp] theorem State.takeMiss_desk (s : State) (g : SegId) (x : Exchange) :
    (s.takeMiss g x).desk = s.desk := by
  unfold State.takeMiss
  repeat' split
  all_goals simp

@[simp] theorem State.settleExpiry_desk (s : State) (g : SegId) (d : DropId) :
    (s.settleExpiry g d).desk = s.desk := by
  unfold State.settleExpiry
  repeat' split
  all_goals simp

@[simp] theorem State.pollExpiry_desk (s : State) (g : SegId) :
    (s.pollExpiry g).desk = s.desk := by
  unfold State.pollExpiry
  repeat' split
  all_goals simp

@[simp] theorem State.sendCommand_desk (s : State) (g : SegId) :
    (s.sendCommand g).desk = s.desk := by
  unfold State.sendCommand
  repeat' split
  all_goals simp

@[simp] theorem State.allstop_desk (s : State) (g : SegId) :
    (s.allstop g).desk = s.desk := by
  unfold State.allstop
  split <;> rfl

@[simp] theorem State.takeBaselines_desk (s : State) (g : SegId) :
    (s.takeBaselines g).desk = s.desk := rfl

@[simp] theorem State.quietExpiry_desk (s : State) (g : SegId) :
    (s.quietExpiry g).desk = s.desk := by
  unfold State.quietExpiry
  split <;> rfl

@[simp] theorem State.foundCreep_desk (s : State) (p : Pos) (b h : Nat) :
    (s.foundCreep p b h).desk = s.desk := by
  unfold State.foundCreep
  simp

@[simp] theorem State.creepTest_desk (s : State) (g : SegId) (p : Pos) :
    (s.creepTest g p).desk = s.desk := by
  unfold State.creepTest
  repeat' split
  all_goals simp

@[simp] theorem State.writeReport_desk (s : State) (p : Pos) (r : Report) :
    (s.writeReport p r).desk = s.desk := by
  unfold State.writeReport
  split <;> rfl

@[simp] theorem State.wakeIfMoving_desk (s : State) (r : Report) :
    (s.wakeIfMoving r).desk = s.desk := by
  unfold State.wakeIfMoving
  split <;> simp

@[simp] theorem State.faultCheck_desk (s : State) (p : Pos) (b : Bool) (r : Report) :
    (s.faultCheck p b r).desk = s.desk := by
  unfold State.faultCheck
  dsimp only
  repeat' split
  all_goals simp

@[simp] theorem State.handleReport_desk (s : State) (g : SegId) (p : Pos) (r : Report) :
    (s.handleReport g p r).desk = s.desk := by
  unfold State.handleReport
  simp

@[simp] theorem State.takeReply_desk (s : State) (g : SegId) (x : Exchange) (r : Report) :
    (s.takeReply g x r).desk = s.desk := by
  unfold State.takeReply
  dsimp only
  split <;> simp

@[simp] theorem State.statusArrival_desk (s : State) (g : SegId) (f : List Byte) :
    (s.statusArrival g f).desk = s.desk := by
  unfold State.statusArrival
  repeat' split
  all_goals simp

@[simp] theorem State.windowClose_desk (s : State) (g : SegId) :
    (s.windowClose g).desk = s.desk := by
  unfold State.windowClose
  split <;> simp

@[simp] theorem State.echoRunning_desk (s : State) (g : SegId) :
    (s.echoRunning g).desk = s.desk := by
  unfold State.echoRunning
  split <;> rfl

@[simp] theorem State.echoEnd_desk (s : State) (g : SegId) :
    (s.echoEnd g).desk = s.desk := by
  unfold State.echoEnd
  repeat' split
  all_goals simp

@[simp] theorem State.flagJog_desk (s : State) (p : Pos) :
    (s.flagJog p).desk = s.desk := by
  unfold State.flagJog
  split <;> rfl

theorem State.foldl_addOffset_desk (d : Int) (l : List Pos) : ∀ s : State,
    (l.foldl (State.addOffset d) s).desk = s.desk := by
  induction l with
  | nil => intro s; rfl
  | cons p l ih => intro s; exact ih (State.addOffset d s p)

theorem State.foldl_flagJog_desk (l : List Pos) : ∀ s : State, (l.foldl State.flagJog s).desk = s.desk := by
  induction l with
  | nil => intro s; rfl
  | cons p l ih => intro s; rw [List.foldl_cons, ih, State.flagJog_desk]

@[simp] theorem State.applyJog_desk (s : State) (l : List Pos) (d : Int) : (s.applyJog l d).desk = s.desk := by
  unfold State.applyJog
  dsimp only
  split <;> simp [State.foldl_addOffset_desk, State.foldl_flagJog_desk]

@[simp] theorem State.setStopIn_desk (s : State) (c : Contact) :
    (s.setStopIn c).desk = s.desk := rfl

@[simp] theorem State.stopByte_desk (s : State) (q : PortId) :
    (s.stopByte q).desk = s.desk := by
  unfold State.stopByte
  split <;> simp

@[simp] theorem State.stopInOpens_desk (s : State) :
    s.stopInOpens.desk = s.desk := by
  unfold State.stopInOpens
  split <;> simp

@[simp] theorem State.reseat_desk (s : State) :
    s.reseat.desk = s.desk := by
  unfold State.reseat
  split <;> rfl

@[simp] theorem State.acceptRearm_desk (s : State) :
    s.acceptRearm.desk = s.desk := by
  unfold State.acceptRearm
  split <;> simp

/-! ### The course -/

@[simp] theorem State.modSeg_course (s : State) (g : SegId) (f : Segment → Segment) :
    (s.modSeg g f).course = s.course := rfl

@[simp] theorem State.mapSegs_course (s : State) (f : Segment → Segment) :
    (s.mapSegs f).course = s.course := rfl

@[simp] theorem State.modDrop_course (s : State) (g : SegId) (d : DropId) (f : Drop → Drop) :
    (s.modDrop g d f).course = s.course := rfl

@[simp] theorem State.modCol_course (s : State) (p : Pos) (f : Column → Column) :
    (s.modCol p f).course = s.course := rfl

@[simp] theorem State.mapCols_course (s : State) (f : Column → Column) :
    (s.mapCols f).course = s.course := rfl

@[simp] theorem State.modNotices_course (s : State) (q : PortId) (f : NoticeState → NoticeState) :
    (s.modNotices q f).course = s.course := rfl

@[simp] theorem State.modWatch_course (s : State) (q : PortId) (f : WatchState → WatchState) :
    (s.modWatch q f).course = s.course := rfl

@[simp] theorem State.setDemand_course (s : State) (p : Pos) (v : Int) :
    (s.setDemand p v).course = s.course := rfl

@[simp] theorem State.spendFresh_course (s : State) :
    s.spendFresh.course = s.course := rfl

@[simp] theorem State.raise_course (s : State) (c : Category) :
    (s.raise c).course = s.course := rfl

@[simp] theorem State.raiseIfAny_course (s : State) (c : Option Category) :
    (s.raiseIfAny c).course = s.course := by
  unfold State.raiseIfAny
  split <;> rfl

@[simp] theorem State.testWatches_course (s : State) (p : Pos) :
    (s.testWatches p).course = s.course := rfl

@[simp] theorem State.wake_course (s : State) :
    s.wake.course = s.course := by
  unfold State.wake
  split <;> rfl

@[simp] theorem State.trigger_course (s : State) :
    s.trigger.course = s.course := by
  unfold State.trigger
  repeat' split
  all_goals simp

@[simp] theorem State.classify_course (s : State) (p : Pos) (cls : Classification) (m : Bool) (lag : Option Int) :
    (s.classify p cls m lag).course = s.course := rfl

@[simp] theorem State.untrack_course (s : State) :
    s.untrack.course = s.course := rfl

@[simp] theorem State.clearParked_course (s : State) (ph : Phase) :
    (s.clearParked ph).course = s.course := by
  unfold State.clearParked
  split <;> rfl

@[simp] theorem State.setStarts_course (s : State) (ph : Phase) :
    (s.setStarts ph).course = s.course := by
  unfold State.setStarts
  repeat' split
  all_goals simp

@[simp] theorem State.applyPolling_course (s : State) :
    s.applyPolling.course = s.course := by
  unfold State.applyPolling
  split <;> simp

@[simp] theorem State.raiseEchoDone_course (s : State) (g : SegId) :
    (s.raiseEchoDone g).course = s.course := rfl

@[simp] theorem State.abortEcho_course (s : State) (g : SegId) :
    (s.abortEcho g).course = s.course := by
  unfold State.abortEcho
  split <;> rfl

@[simp] theorem State.mirror_course (s : State) (g : SegId) (d : DropId) :
    (s.mirror g d).course = s.course := by
  unfold State.mirror
  split <;> rfl

@[simp] theorem State.testMapped_course (s : State) (g : SegId) (d : DropId) :
    (s.testMapped g d).course = s.course := by
  unfold State.testMapped
  split <;> rfl

@[simp] theorem State.changeLink_course (s : State) (g : SegId) (d : DropId) (l : LinkState) :
    (s.changeLink g d l).course = s.course := by
  unfold State.changeLink
  split <;> simp

@[simp] theorem State.spendForLeg_course (s : State) :
    s.spendForLeg.course = s.course := by
  unfold State.spendForLeg
  split <;> rfl

@[simp] theorem State.writeSpread_course (s : State) (c : CarId) :
    (s.writeSpread c).course = s.course := rfl

@[simp] theorem State.endJog_course (s : State) (p : Pos) :
    (s.endJog p).course = s.course := by
  unfold State.endJog
  dsimp only
  split <;> simp

@[simp] theorem State.trackedDemand_course (s : State) (p : Pos) (v : Nat) (e : Int) :
    (s.trackedDemand p v e).course = s.course := by
  unfold State.trackedDemand
  repeat' split
  all_goals simp

@[simp] theorem State.followShare_course (s : State) (n : Nat) (p : Pos) :
    (s.followShare n p).course = s.course := by
  unfold State.followShare
  dsimp only
  repeat' split
  all_goals simp

@[simp] theorem State.evaluateShares_course (s : State) (c : CarId) : (s.evaluateShares c).course = s.course := by
  unfold State.evaluateShares
  (repeat' split) <;> simp [carPositions]

@[simp] theorem State.classifyAt_course (s : State) (p : Pos) (e : Int) :
    (s.classifyAt p e).course = s.course := rfl

@[simp] theorem State.takeStart_course (s : State) (p : Pos) :
    (s.takeStart p).course = s.course := by
  unfold State.takeStart
  split <;> rfl

@[simp] theorem State.recordContact_course (s : State) (p : Pos) :
    (s.recordContact p).course = s.course := rfl

@[simp] theorem State.dropLeaves_course (s : State) (g : SegId) (d : DropId) :
    (s.dropLeaves g d).course = s.course := by
  unfold State.dropLeaves
  split <;> simp

@[simp] theorem State.entryLeaves_course (s : State) (e : Option RosterEntry) :
    (s.entryLeaves e).course = s.course := by
  unfold State.entryLeaves
  split <;> simp

@[simp] theorem State.emptyRecord_course (s : State) (p : Pos) :
    (s.emptyRecord p).course = s.course := by
  unfold State.emptyRecord
  split <;> simp

@[simp] theorem State.loadRecord_course (s : State) (p : Pos) (g : SegId) (d : DropId) :
    (s.loadRecord p g d).course = s.course := by
  unfold State.loadRecord
  split <;> simp

@[simp] theorem State.triggerIfChanged_course (s : State) (r : Roster) :
    (s.triggerIfChanged r).course = s.course := by
  unfold State.triggerIfChanged
  split <;> simp

@[simp] theorem State.enrolAt_course (s : State) (p : Pos) :
    (s.enrolAt p).course = s.course := by
  unfold State.enrolAt
  repeat' split
  all_goals simp

@[simp] theorem State.clearLatches_course (s : State) :
    s.clearLatches.course = s.course := rfl

@[simp] theorem State.storePage_course (s : State) (g : SegId) (d : DropId) (c : Capability) (n : Fin 4) :
    (s.storePage g d c n).course = s.course := by
  unfold State.storePage
  simp

@[simp] theorem State.refuseDrop_course (s : State) (g : SegId) (d : DropId) :
    (s.refuseDrop g d).course = s.course := by
  unfold State.refuseDrop
  simp

@[simp] theorem State.endPaging_course (s : State) (g : SegId) (d : DropId) :
    (s.endPaging g d).course = s.course := by
  unfold State.endPaging
  simp

@[simp] theorem State.takePage1_course (s : State) (g : SegId) (d : DropId) (r : Report) :
    (s.takePage1 g d r).course = s.course := by
  unfold State.takePage1
  split <;> simp

@[simp] theorem State.takePage2_course (s : State) (g : SegId) (d : DropId) (r : Report) :
    (s.takePage2 g d r).course = s.course := by
  unfold State.takePage2
  split <;> simp

@[simp] theorem State.takePage_course (s : State) (g : SegId) (x : Exchange) (r : Report) :
    (s.takePage g x r).course = s.course := by
  unfold State.takePage
  repeat' split
  all_goals simp

@[simp] theorem State.acceptReply_course (s : State) (g : SegId) (x : Exchange) (r : Report) :
    (s.acceptReply g x r).course = s.course := by
  unfold State.acceptReply
  dsimp only
  split <;> simp

@[simp] theorem State.settleExpiry_course (s : State) (g : SegId) (d : DropId) :
    (s.settleExpiry g d).course = s.course := by
  unfold State.settleExpiry
  repeat' split
  all_goals simp

@[simp] theorem State.pollExpiry_course (s : State) (g : SegId) :
    (s.pollExpiry g).course = s.course := by
  unfold State.pollExpiry
  repeat' split
  all_goals simp

@[simp] theorem State.sendCommand_course (s : State) (g : SegId) :
    (s.sendCommand g).course = s.course := by
  unfold State.sendCommand
  repeat' split
  all_goals simp

@[simp] theorem State.allstop_course (s : State) (g : SegId) :
    (s.allstop g).course = s.course := by
  unfold State.allstop
  split <;> rfl

@[simp] theorem State.takeBaselines_course (s : State) (g : SegId) :
    (s.takeBaselines g).course = s.course := rfl

@[simp] theorem State.quietExpiry_course (s : State) (g : SegId) :
    (s.quietExpiry g).course = s.course := by
  unfold State.quietExpiry
  split <;> rfl

@[simp] theorem State.foundCreep_course (s : State) (p : Pos) (b h : Nat) :
    (s.foundCreep p b h).course = s.course := by
  unfold State.foundCreep
  simp

@[simp] theorem State.creepTest_course (s : State) (g : SegId) (p : Pos) :
    (s.creepTest g p).course = s.course := by
  unfold State.creepTest
  repeat' split
  all_goals simp

@[simp] theorem State.writeReport_course (s : State) (p : Pos) (r : Report) :
    (s.writeReport p r).course = s.course := by
  unfold State.writeReport
  split <;> rfl

@[simp] theorem State.wakeIfMoving_course (s : State) (r : Report) :
    (s.wakeIfMoving r).course = s.course := by
  unfold State.wakeIfMoving
  split <;> simp

@[simp] theorem State.echoRunning_course (s : State) (g : SegId) :
    (s.echoRunning g).course = s.course := by
  unfold State.echoRunning
  split <;> rfl

@[simp] theorem State.echoEnd_course (s : State) (g : SegId) :
    (s.echoEnd g).course = s.course := by
  unfold State.echoEnd
  repeat' split
  all_goals simp

@[simp] theorem State.flagJog_course (s : State) (p : Pos) :
    (s.flagJog p).course = s.course := by
  unfold State.flagJog
  split <;> rfl

theorem State.foldl_addOffset_course (d : Int) (l : List Pos) : ∀ s : State,
    (l.foldl (State.addOffset d) s).course = s.course := by
  induction l with
  | nil => intro s; rfl
  | cons p l ih => intro s; exact ih (State.addOffset d s p)

theorem State.foldl_flagJog_course (l : List Pos) : ∀ s : State, (l.foldl State.flagJog s).course = s.course := by
  induction l with
  | nil => intro s; rfl
  | cons p l ih => intro s; rw [List.foldl_cons, ih, State.flagJog_course]

@[simp] theorem State.applyJog_course (s : State) (l : List Pos) (d : Int) : (s.applyJog l d).course = s.course := by
  unfold State.applyJog
  dsimp only
  split <;> simp [State.foldl_addOffset_course, State.foldl_flagJog_course]

end Sys2Proof.Machine
end

