-- ==== Sys2Proof/WellFormed.lean ====
section
/-! DEFINITION. Which commands have operands that the outside world can give: the memory gives as many bytes as the image
has (R199), and a delay is a count of 0 to 4,095 (R41). Every other operand is bounded by its type: a port, a segment and a
drop cannot be out of range. -/

namespace Sys2Proof

/-- The memory reading gives the whole image area when it gives anything (R188, R199). -/
def MemoryReading.wellFormed : MemoryReading → Bool
  | .noAnswer => true
  | .answered bytes => bytes.length == Config.imageSize

/-- The read-back gives as many bytes as were sent (R193, R199). -/
def WriteOutcome.wellFormed : WriteOutcome → Bool
  | .noAnswer => true
  | .notCompleted => true
  | .completed readBack => readBack.length == Config.imageSize

/-- The delay is a count of 0 to 4,095 (R41). -/
def Reflection.wellFormed (r : Reflection) : Bool :=
  decide (r.delay ≤ 4095)

/-- The operands of a command lie in their ranges. -/
def Instr.wellFormed : Instr → Bool
  | .imageReadEnd reading => reading.wellFormed
  | .writeEnd outcome => outcome.wellFormed
  | .echoPulse _ r => r.wellFormed
  | .powerOnReset _ | .resetRelease _ _ | .stationByteReceived _ _ _ | .hold _ | .go _ | .stopByte _
  | .frameAssemblerTake _ | .transmitCharacter _ | .updateFrame _ | .unknown _ | .readRoster _ | .readColumn _
  | .readCar _ | .readSegment _ | .readGroup _ | .readPlan _ | .readLimits _ | .readStop _ | .noticeNext _
  | .noticeSet _ | .watch _ | .unwatch _ | .claim _ | .yield _ | .stop _ | .map _ | .unmap _ | .link _ | .confirm _
  | .echo _ | .approach _ | .run _ | .pause _ | .setdown _ | .retract _ | .jog _ | .rearm _ | .planLeg _ | .planCut _
  | .limitSet _ | .lapseTimerExpiry | .stopInOpen | .stopInClose | .pollCycleTimerExpiry _ | .command _
  | .segmentLineByte _ _ | .statusArrival _ _ | .replyWindowClose _ | .allstop _ | .quietEntryTimerExpiry _
  | .settleTimerExpiry _ _ | .echoTestRunning _ | .echoTestEnd _ | .referenceStepTimerExpiry | .dwellTimerExpiry => true

end Sys2Proof
end

