-- ==== Sys2Proof/Laws/PerInstr.lean ====
section
/-! SUPPORT. One law of every command as syntax, a lemma a constructor: a command's operands are well formed exactly when the
bytes it carries from the memory are as many as the image has (R188, R193, R199) and its delay is a count up to 4,095 (R41). -/

namespace Sys2Proof.Laws

set_option Elab.async false

/-- A command is well formed exactly when every byte list and delay it carries is in its range. -/
def Operands.Statement (i : Instr) : Prop :=
  i.wellFormed = true ↔
    (∀ b, i = .imageReadEnd (.answered b) → b.length = 585) ∧ (∀ b, i = .writeEnd (.completed b) → b.length = 585) ∧
      ∀ g r, i = .echoPulse g r → r.delay ≤ 4095

theorem Operands.powerOnReset (stopIn : Contact) : Operands.Statement (.powerOnReset stopIn) := by
  simp [Operands.Statement, Instr.wellFormed]

theorem Operands.resetRelease (strapB strapA : Bool) : Operands.Statement (.resetRelease strapB strapA) := by
  simp [Operands.Statement, Instr.wellFormed]

theorem Operands.imageReadEnd (reading : MemoryReading) : Operands.Statement (.imageReadEnd reading) := by
  cases reading <;> simp [Operands.Statement, Instr.wellFormed, MemoryReading.wellFormed, Config.imageSize]

theorem Operands.writeEnd (outcome : WriteOutcome) : Operands.Statement (.writeEnd outcome) := by
  cases outcome <;> simp [Operands.Statement, Instr.wellFormed, WriteOutcome.wellFormed, Config.imageSize]

theorem Operands.stationByteReceived (q : PortId) (value : Byte) (faulted : Bool) : Operands.Statement (.stationByteReceived q value faulted) := by
  simp [Operands.Statement, Instr.wellFormed]

theorem Operands.hold (q : PortId) : Operands.Statement (.hold q) := by
  simp [Operands.Statement, Instr.wellFormed]

theorem Operands.go (q : PortId) : Operands.Statement (.go q) := by
  simp [Operands.Statement, Instr.wellFormed]

theorem Operands.stopByte (q : PortId) : Operands.Statement (.stopByte q) := by
  simp [Operands.Statement, Instr.wellFormed]

theorem Operands.frameAssemblerTake (q : PortId) : Operands.Statement (.frameAssemblerTake q) := by
  simp [Operands.Statement, Instr.wellFormed]

theorem Operands.transmitCharacter (q : PortId) : Operands.Statement (.transmitCharacter q) := by
  simp [Operands.Statement, Instr.wellFormed]

theorem Operands.updateFrame (q : PortId) : Operands.Statement (.updateFrame q) := by
  simp [Operands.Statement, Instr.wellFormed]

theorem Operands.unknown (q : PortId) : Operands.Statement (.unknown q) := by
  simp [Operands.Statement, Instr.wellFormed]

theorem Operands.readRoster (q : PortId) : Operands.Statement (.readRoster q) := by
  simp [Operands.Statement, Instr.wellFormed]

theorem Operands.readColumn (q : PortId) : Operands.Statement (.readColumn q) := by
  simp [Operands.Statement, Instr.wellFormed]

theorem Operands.readCar (q : PortId) : Operands.Statement (.readCar q) := by
  simp [Operands.Statement, Instr.wellFormed]

theorem Operands.readSegment (q : PortId) : Operands.Statement (.readSegment q) := by
  simp [Operands.Statement, Instr.wellFormed]

theorem Operands.readGroup (q : PortId) : Operands.Statement (.readGroup q) := by
  simp [Operands.Statement, Instr.wellFormed]

theorem Operands.readPlan (q : PortId) : Operands.Statement (.readPlan q) := by
  simp [Operands.Statement, Instr.wellFormed]

theorem Operands.readLimits (q : PortId) : Operands.Statement (.readLimits q) := by
  simp [Operands.Statement, Instr.wellFormed]

theorem Operands.readStop (q : PortId) : Operands.Statement (.readStop q) := by
  simp [Operands.Statement, Instr.wellFormed]

theorem Operands.noticeNext (q : PortId) : Operands.Statement (.noticeNext q) := by
  simp [Operands.Statement, Instr.wellFormed]

theorem Operands.noticeSet (q : PortId) : Operands.Statement (.noticeSet q) := by
  simp [Operands.Statement, Instr.wellFormed]

theorem Operands.watch (q : PortId) : Operands.Statement (.watch q) := by
  simp [Operands.Statement, Instr.wellFormed]

theorem Operands.unwatch (q : PortId) : Operands.Statement (.unwatch q) := by
  simp [Operands.Statement, Instr.wellFormed]

theorem Operands.claim (q : PortId) : Operands.Statement (.claim q) := by
  simp [Operands.Statement, Instr.wellFormed]

theorem Operands.yield (q : PortId) : Operands.Statement (.yield q) := by
  simp [Operands.Statement, Instr.wellFormed]

theorem Operands.stop (q : PortId) : Operands.Statement (.stop q) := by
  simp [Operands.Statement, Instr.wellFormed]

theorem Operands.map (q : PortId) : Operands.Statement (.map q) := by
  simp [Operands.Statement, Instr.wellFormed]

theorem Operands.unmap (q : PortId) : Operands.Statement (.unmap q) := by
  simp [Operands.Statement, Instr.wellFormed]

theorem Operands.link (q : PortId) : Operands.Statement (.link q) := by
  simp [Operands.Statement, Instr.wellFormed]

theorem Operands.confirm (q : PortId) : Operands.Statement (.confirm q) := by
  simp [Operands.Statement, Instr.wellFormed]

theorem Operands.echo (q : PortId) : Operands.Statement (.echo q) := by
  simp [Operands.Statement, Instr.wellFormed]

theorem Operands.approach (q : PortId) : Operands.Statement (.approach q) := by
  simp [Operands.Statement, Instr.wellFormed]

theorem Operands.run (q : PortId) : Operands.Statement (.run q) := by
  simp [Operands.Statement, Instr.wellFormed]

theorem Operands.pause (q : PortId) : Operands.Statement (.pause q) := by
  simp [Operands.Statement, Instr.wellFormed]

theorem Operands.setdown (q : PortId) : Operands.Statement (.setdown q) := by
  simp [Operands.Statement, Instr.wellFormed]

theorem Operands.retract (q : PortId) : Operands.Statement (.retract q) := by
  simp [Operands.Statement, Instr.wellFormed]

theorem Operands.jog (q : PortId) : Operands.Statement (.jog q) := by
  simp [Operands.Statement, Instr.wellFormed]

theorem Operands.rearm (q : PortId) : Operands.Statement (.rearm q) := by
  simp [Operands.Statement, Instr.wellFormed]

theorem Operands.planLeg (q : PortId) : Operands.Statement (.planLeg q) := by
  simp [Operands.Statement, Instr.wellFormed]

theorem Operands.planCut (q : PortId) : Operands.Statement (.planCut q) := by
  simp [Operands.Statement, Instr.wellFormed]

theorem Operands.limitSet (q : PortId) : Operands.Statement (.limitSet q) := by
  simp [Operands.Statement, Instr.wellFormed]

theorem Operands.lapseTimerExpiry : Operands.Statement .lapseTimerExpiry := by
  simp [Operands.Statement, Instr.wellFormed]

theorem Operands.stopInOpen : Operands.Statement .stopInOpen := by
  simp [Operands.Statement, Instr.wellFormed]

theorem Operands.stopInClose : Operands.Statement .stopInClose := by
  simp [Operands.Statement, Instr.wellFormed]

theorem Operands.pollCycleTimerExpiry (g : SegId) : Operands.Statement (.pollCycleTimerExpiry g) := by
  simp [Operands.Statement, Instr.wellFormed]

theorem Operands.command (g : SegId) : Operands.Statement (.command g) := by
  simp [Operands.Statement, Instr.wellFormed]

theorem Operands.segmentLineByte (g : SegId) (value : Byte) : Operands.Statement (.segmentLineByte g value) := by
  simp [Operands.Statement, Instr.wellFormed]

theorem Operands.statusArrival (g : SegId) (frame : List Byte) : Operands.Statement (.statusArrival g frame) := by
  simp [Operands.Statement, Instr.wellFormed]

theorem Operands.replyWindowClose (g : SegId) : Operands.Statement (.replyWindowClose g) := by
  simp [Operands.Statement, Instr.wellFormed]

theorem Operands.allstop (g : SegId) : Operands.Statement (.allstop g) := by
  simp [Operands.Statement, Instr.wellFormed]

theorem Operands.quietEntryTimerExpiry (g : SegId) : Operands.Statement (.quietEntryTimerExpiry g) := by
  simp [Operands.Statement, Instr.wellFormed]

theorem Operands.settleTimerExpiry (g : SegId) (d : DropId) : Operands.Statement (.settleTimerExpiry g d) := by
  simp [Operands.Statement, Instr.wellFormed]

theorem Operands.echoTestRunning (g : SegId) : Operands.Statement (.echoTestRunning g) := by
  simp [Operands.Statement, Instr.wellFormed]

theorem Operands.echoPulse (g : SegId) (r : Reflection) : Operands.Statement (.echoPulse g r) := by
  simp [Operands.Statement, Instr.wellFormed, Reflection.wellFormed]

theorem Operands.echoTestEnd (g : SegId) : Operands.Statement (.echoTestEnd g) := by
  simp [Operands.Statement, Instr.wellFormed]

theorem Operands.referenceStepTimerExpiry : Operands.Statement .referenceStepTimerExpiry := by
  simp [Operands.Statement, Instr.wellFormed]

theorem Operands.dwellTimerExpiry : Operands.Statement .dwellTimerExpiry := by
  simp [Operands.Statement, Instr.wellFormed]

end Sys2Proof.Laws
end

