-- ==== Sys2Proof/Laws/Segments.lean ====
section
/-! SUPPORT. What the poll cycle's operations make of a segment, each whole: the beginning and the end of a cycle, a return to fast
mode, a wake, and a resumed or aborted echo test (R25, R36, R37, R43, R44). -/

namespace Sys2Proof.Machine

/-- A new cycle has an exchange to make: a drop is visited, or all are ABSENT and the one after the pointer is probed (R26). -/
theorem Segment.fresh_has_exchange (sg : Segment) : ({ sg with cycle := some .fresh } : Segment).nextExchange.isSome = true := by
  simp only [Segment.nextExchange, Cycle.fresh]
  cases hv : ({ sg with cycle := some .fresh } : Segment).nextVisit 0 with
  | some d => simp only [Cycle.fresh] at hv; simp [hv]
  | none =>
    simp only [Cycle.fresh] at hv
    have ha : ∀ d : DropId, (sg.drops.get d).link = .absent := by
      simpa [Segment.nextVisit] using hv
    have hp : (({ sg with cycle := some .fresh } : Segment).nextProbe []).isSome = true := by
      simp [Segment.nextProbe, Segment.probeOrder, ha]
    simp only [Cycle.fresh] at hp
    obtain ⟨d, hd⟩ := Option.isSome_iff_exists.mp hp
    simp [hv, hd]

/-- A cycle that is to begin begins (R25). -/
theorem Segment.beginCycle_fresh (sg : Segment) : sg.beginCycle = { sg with cycle := some .fresh } := by
  simp [Segment.beginCycle, sg.fresh_has_exchange]

/-- The end of a cycle: an owed start begins the next at once, and otherwise the line has kept its period (R25). -/
theorem Segment.endCycle_whole (sg : Segment) :
    sg.endCycle = if sg.startOwed then { sg with cycle := some .fresh, startOwed := false }
      else { sg with cycle := none, startOwed := false, overrun := false } := by
  simp [Segment.endCycle, sg.fresh_has_exchange]

/-- A return to fast mode, whole (R37). -/
theorem Segment.toFast_awake (sg : Segment) : sg.toFast = sg.awake sg.quietTimer := by
  unfold Segment.toFast Segment.awake
  cases hm : sg.mode with
  | fast => cases sg; simp_all
  | quiet =>
    by_cases hc : sg.cycle = none ∧ sg.echo = .none
    · simp [Segment.beginCycle_fresh, hc.1, hc.2]
    · have : (sg.cycle.isNone && decide (sg.echo = .none)) = false := by
        simpa [Option.isNone_iff_eq_none] using hc
      simp [this, hc]

/-- A drop of a segment whose polling resumes (R43). -/
def Drop.resumed (d : Drop) : Drop :=
  if d.link = .settling then { d with settle := .running Config.settleTime } else d

/-- Polling resumes on a segment, whole (R43). -/
theorem Segment.resume_whole (sg : Segment) :
    sg.resume =
      { sg with
        echo := .none
        pollTimer := .running sg.mode.period
        drops := sg.drops.map Drop.resumed
        cycle := some .fresh } :=
  Segment.beginCycle_fresh _

/-- What a stop makes of a segment's echo test (R44). -/
def Segment.abortedEcho (sg : Segment) : Segment :=
  match sg.echo.cable with
  | none => sg
  | some cable => ({ sg with lastEcho := some (abortedResult cable) } : Segment).resume

/-- What a stop makes of a segment's echo test, whole (R43, R44). -/
theorem Segment.abortedEcho_whole (sg : Segment) : sg.abortedEcho = sg.echoAborted := by
  obtain ⟨mode⟩ := sg
  unfold Segment.abortedEcho Segment.echoAborted
  cases mode <;> split <;> simp_all [Segment.resume, Segment.beginCycle_fresh, abortedResult, PollMode.period]

theorem State.seg_abortEcho (s : State) (g g' : SegId) :
    (s.abortEcho g).seg g' = if g' = g then (s.seg g').abortedEcho else s.seg g' := by
  unfold State.abortEcho Segment.abortedEcho
  by_cases h : g' = g
  · subst h
    cases hc : (s.seg g').echo.cable with
    | none => simp
    | some c =>
      have : ∀ t : State, (t.raiseEchoDone g').seg g' = t.seg g' := fun t => State.seg_congr (by simp) g'
      simp [this]
  · cases (s.seg g).echo.cable with
    | none => simp [h]
    | some c =>
      have : ∀ t : State, (t.raiseEchoDone g).seg g' = t.seg g' := fun t => State.seg_congr (by simp) g'
      simp [this, h, State.seg_modSeg]

/-- A segment of the running part after a wake (R36, R37). -/
theorem State.seg_wake (s : State) (hp : s.power = .running) (g : SegId) :
    s.wake.seg g = (s.seg g).woken s.phase.isMotion := by
  simp [State.wake, hp, State.seg, State.mapCols, State.mapSegs]

/-- Before polling begins a wake does nothing (R24). -/
theorem State.wake_of_not_running (s : State) (hp : s.power ≠ .running) : s.wake = s := by
  unfold State.wake
  split
  · next h => exact absurd h hp
  · rfl
  · rfl

/-- A wake of a segment, whole (R36, R37). -/
theorem Segment.woken_awake (motion : Bool) (sg : Segment) :
    sg.woken motion = sg.awake (if motion then sg.quietTimer else .running Config.quietEntryTime) := by
  cases motion <;> simp [Segment.woken, Segment.toFast_awake, Segment.awake]

end Sys2Proof.Machine
end

