-- ==== Sys2Proof/Laws/Phases.lean ====
section
/-! SUPPORT. Everything that a phase change does (R64, R65), field by field, and what a leg's start adds to it (R107). -/

namespace Sys2Proof.Machine

/-- What a phase change does to one column record. -/
def Column.entering (c : Column) (running : Bool) (old new : Phase) : Column :=
  { c with
    demand := 0
    jog := false
    creep := if running then none else c.creep
    contact := if new = .idle then none else c.contact
    rel := if new = .idle then none else c.rel
    offset := if new = .idle then 0 else c.offset
    share := if new = .idle then false else c.share
    parked := if new = .idle ∨ old = .retracting ∨ new = .retracting then false else c.parked
    cls := if new.isTracked then c.cls else .none
    mark := if new.isTracked then c.mark else false
    lag := if new.isTracked then c.lag else none }

/-- The column record after a wake. -/
theorem State.col_wake (s : State) (p : Pos) :
    s.wake.col p = { s.col p with creep := if s.power = .running then none else (s.col p).creep } := by
  cases h : s.power <;> simp [State.wake, h, State.col, State.mapCols, State.mapSegs]

theorem State.col_applyPolling (s : State) (p : Pos) :
    s.applyPolling.col p = { s.col p with creep := if s.power = .running then none else (s.col p).creep } := by
  unfold State.applyPolling
  split
  · rw [State.col_wake]; rfl
  · rw [State.col_wake]

theorem State.col_untrack (s : State) (p : Pos) :
    s.untrack.col p = { s.col p with cls := .none, mark := false, lag := none } :=
  Table.get_map _ _ _

theorem State.col_haltMotion (s : State) (ph : Phase) (p : Pos) :
    (s.haltMotion ph).col p = { s.col p with demand := 0, jog := false } :=
  Table.get_map _ _ _

theorem State.col_discardLift (s : State) (p : Pos) :
    s.discardLift.col p = { s.col p with contact := none, rel := none, offset := 0, parked := false, share := false } :=
  Table.get_map _ _ _

theorem State.col_clearParked (s : State) (ph : Phase) (p : Pos) :
    (s.clearParked ph).col p =
      { s.col p with parked := if s.phase = .retracting ∨ ph = .retracting then false else (s.col p).parked } := by
  unfold State.clearParked
  split <;> simp

/-- The state of a phase change before the notice, the write and the polling. -/
def State.changed (s : State) (new : Phase) : State :=
  let s := ((s.setStarts new).clearParked new).enterRest new
  let s := { s.haltMotion new with phase := new }
  if new.isTracked then s else s.untrack

theorem State.changePhase_eq (s : State) (new : Phase) (h : s.phase ≠ new) :
    s.changePhase new = (((s.changed new).raise .phase).trigger).applyPolling := by
  unfold State.changePhase
  rw [if_neg h]
  rfl

theorem State.changed_desk (s : State) (new : Phase) : (s.changed new).desk = s.desk := by
  unfold State.changed
  dsimp only
  split <;> simp

theorem State.changed_phase (s : State) (new : Phase) : (s.changed new).phase = new := by
  unfold State.changed
  dsimp only
  split <;> simp

theorem State.col_enterRest (s : State) (new : Phase) (p : Pos) :
    (s.enterRest new).col p =
      if new = .idle then
        { s.col p with contact := none, rel := none, offset := 0, parked := false, share := false }
      else s.col p := by
  cases new <;> simp [State.enterRest, State.col_discardLift, State.col_congr (State.zeroReference_cols s) p]

theorem State.col_changed (s : State) (new : Phase) (p : Pos) :
    (s.changed new).col p = (s.col p).entering false s.phase new := by
  have h1 : ((((s.setStarts new).clearParked new).enterRest new).haltMotion new).col p =
      { (if new = .idle then
          { (s.col p) with contact := none, rel := none, offset := 0, parked := false, share := false }
        else { s.col p with
          parked := if s.phase = .retracting ∨ new = .retracting then false else (s.col p).parked } : Column) with
        demand := 0, jog := false } := by
    rw [State.col_haltMotion, State.col_enterRest, State.col_clearParked,
      State.col_congr (State.setStarts_cols s new) p, State.setStarts_phase]
  unfold State.changed
  dsimp only
  split
  · next ht =>
    have : ({ (((s.setStarts new).clearParked new).enterRest new).haltMotion new with phase := new } : State).col p =
      ((((s.setStarts new).clearParked new).enterRest new).haltMotion new).col p := rfl
    rw [this, h1]
    cases new <;> simp_all [Phase.isTracked, Column.entering]
  · next ht =>
    have : ({ (((s.setStarts new).clearParked new).enterRest new).haltMotion new with phase := new } : State).col p =
      ((((s.setStarts new).clearParked new).enterRest new).haltMotion new).col p := rfl
    rw [State.col_untrack, this, h1]
    cases new <;> simp_all [Phase.isTracked, Column.entering]

theorem State.col_changePhase (s : State) (new : Phase) (h : s.phase ≠ new) (p : Pos) :
    (s.changePhase new).col p = (s.col p).entering (decide (s.power = .running)) s.phase new := by
  rw [State.changePhase_eq s new h, State.col_applyPolling,
    State.col_congr (s := s.changed new) (by simp), State.col_changed]
  simp [State.power_of_desk (State.changed_desk s new), Column.entering]

/-! ### The other fields of a phase change -/

@[simp] theorem State.changePhase_self (s : State) : s.changePhase s.phase = s := by
  simp [State.changePhase]

@[simp] theorem State.changePhase_phase (s : State) (new : Phase) : (s.changePhase new).phase = new := by
  by_cases h : s.phase = new
  · subst h; simp
  · rw [State.changePhase_eq s new h]; simp [State.changed_phase]

theorem State.changed_ref (s : State) (new : Phase) :
    (s.changed new).ref =
      { (if new = .idle then
          { s.ref with h := 0, fine := 0, arrived := false, target := none, speed := none, setDown := false }
        else if new = .aligned then { s.ref with h := 0, fine := 0, arrived := false } else s.ref : Reference) with
        vEff := 0
        stepTimer := if new.isLeg then s.ref.stepTimer else .stopped
        dwellTimer := if new = .dwell then s.ref.dwellTimer else .stopped } := by
  unfold State.changed
  cases new <;> simp [Phase.isTracked, State.haltMotion, State.enterRest, State.discardLift, State.zeroReference]

/-- The reference after a phase change (R64, R65, R68). -/
theorem State.changePhase_ref (s : State) (new : Phase) (h : s.phase ≠ new) :
    (s.changePhase new).ref =
      { (if new = .idle then
          { s.ref with h := 0, fine := 0, arrived := false, target := none, speed := none, setDown := false }
        else if new = .aligned then { s.ref with h := 0, fine := 0, arrived := false } else s.ref : Reference) with
        vEff := 0
        stepTimer := if new.isLeg then s.ref.stepTimer else .stopped
        dwellTimer := if new = .dwell then s.ref.dwellTimer else .stopped } := by
  rw [State.changePhase_eq s new h]
  simp [State.changed_ref]

theorem State.changed_plan (s : State) (new : Phase) :
    (s.changed new).plan = if new = .idle ∨ new = .aligned then { s.plan with index := 0 } else s.plan := by
  unfold State.changed
  cases new <;> simp [Phase.isTracked, State.enterRest, State.discardLift, State.zeroReference]

/-- The plan after a phase change (R65, R68). -/
theorem State.changePhase_plan (s : State) (new : Phase) (h : s.phase ≠ new) :
    (s.changePhase new).plan = if new = .idle ∨ new = .aligned then { s.plan with index := 0 } else s.plan := by
  rw [State.changePhase_eq s new h]
  simp [State.changed_plan]

theorem State.changed_counts (s : State) (new : Phase) :
    (s.changed new).holdCount = (if new.isTracked then s.holdCount else 0) ∧
      (s.changed new).outCount = if new.isTracked then s.outCount else 0 := by
  unfold State.changed
  cases new <;> simp [Phase.isTracked, State.untrack]

/-- The two counts after a phase change (R125). -/
theorem State.changePhase_counts (s : State) (new : Phase) (h : s.phase ≠ new) :
    (s.changePhase new).holdCount = (if new.isTracked then s.holdCount else 0) ∧
      (s.changePhase new).outCount = if new.isTracked then s.outCount else 0 := by
  rw [State.changePhase_eq s new h]
  simpa using s.changed_counts new

theorem State.changed_starts (s : State) (new : Phase) :
    (s.changed new).starts = if new = .approach then .build fun p => if s.validPos p then (s.col p).height else none
      else if s.phase = .approach then .fill 48 none else s.starts := by
  unfold State.changed
  cases new <;> simp [Phase.isTracked, State.setStarts] <;> split <;> rfl

/-- The approach start heights after a phase change (R85, R86). -/
theorem State.changePhase_starts (s : State) (new : Phase) (h : s.phase ≠ new) :
    (s.changePhase new).starts = if new = .approach then .build fun p => if s.validPos p then (s.col p).height else none
      else if s.phase = .approach then .fill 48 none else s.starts := by
  rw [State.changePhase_eq s new h]
  simp [State.changed_starts]

theorem State.changed_spread (s : State) (new : Phase) :
    (s.changed new).spread = if new = .idle then .fill 12 none else s.spread := by
  unfold State.changed
  cases new <;> simp [Phase.isTracked, State.enterRest, State.discardLift]

theorem State.changePhase_spread (s : State) (new : Phase) (h : s.phase ≠ new) :
    (s.changePhase new).spread = if new = .idle then .fill 12 none else s.spread := by
  rw [State.changePhase_eq s new h]
  simp [State.changed_spread]

theorem State.changed_pause (s : State) (new : Phase) : (s.changed new).pausePending = false := by
  unfold State.changed
  dsimp only
  split <;> simp [State.haltMotion]

theorem State.changePhase_pause (s : State) (new : Phase) (h : s.phase ≠ new) :
    (s.changePhase new).pausePending = false := by
  rw [State.changePhase_eq s new h]
  simp [State.changed_pause]

theorem State.changed_notices (s : State) (new : Phase) : (s.changed new).notices = s.notices := by
  unfold State.changed
  dsimp only
  split <;> simp

/-- A phase change raises PHASE and nothing else (R64). -/
theorem State.changePhase_notices (s : State) (new : Phase) (h : s.phase ≠ new) (q : PortId) :
    (s.changePhase new).notices.get q = (s.notices.get q).raised .phase := by
  rw [State.changePhase_eq s new h, State.applyPolling_notices, State.trigger_notices, State.notices_raise,
    State.changed_notices]

theorem State.changed_segs (s : State) (new : Phase) : (s.changed new).segs = s.segs := by
  unfold State.changed
  dsimp only
  split <;> simp

theorem State.changed_stop (s : State) (new : Phase) : (s.changed new).stop = s.stop := by
  unfold State.changed
  dsimp only
  split <;> simp

theorem State.changed_retention (s : State) (new : Phase) : (s.changed new).retention = s.retention := by
  unfold State.changed
  dsimp only
  split <;> simp

/-- A trigger of the running part, whole (R192). -/
theorem State.trigger_running (s : State) (hp : s.power = .running) :
    s.trigger = { s with retention := s.retention.triggered s.image } := by
  unfold State.trigger Retention.triggered
  rw [hp]
  dsimp only
  cases h : s.retention.writing <;> simp

/-- What the trigger of a phase change writes: the state as the event has left it by then (R64, R191). -/
theorem State.changePhase_retention (s : State) (new : Phase) (h : s.phase ≠ new) (hp : s.power = .running) :
    (s.changePhase new).retention = s.retention.triggered (s.changed new).image := by
  rw [State.changePhase_eq s new h, State.trigger_running]
  · simp [State.changed_retention]
    rfl
  · exact (State.power_of_desk (State.changed_desk s new)).trans hp

/-- A wake leaves the columns as they are but for the creep baselines, and so keeps the image (R36). -/
theorem State.image_congr {s t : State} (h1 : t.roster = s.roster) (h2 : t.limits = s.limits) (h3 : t.plan = s.plan)
    (h4 : ∀ p, (t.col p).contact = (s.col p).contact) (h5 : ∀ p, (t.col p).offset = (s.col p).offset)
    (h6 : t.imagePhase = s.imagePhase) (h7 : t.phase = s.phase) : t.image = s.image := by
  have e4 : t.cols.map (fun c => c.contact) = s.cols.map fun c => c.contact :=
    Table.ext_get fun p => by simpa [State.col] using h4 p
  have e5 : t.cols.map (fun c => c.offset) = s.cols.map fun c => c.offset :=
    Table.ext_get fun p => by simpa [State.col] using h5 p
  simp [State.image, State.imageContacts, h1, h2, h3, e4, e5, h6, h7]

/-- The polling of a segment after a phase change of the running part (R34, R36, R37). -/
def Segment.polledAs (new : Phase) (sg : Segment) : Segment :=
  if new.isMotion then ({ sg with quietTimer := .stopped } : Segment).toFast
  else { sg.toFast with quietTimer := .running Config.quietEntryTime }

theorem State.seg_changePhase (s : State) (new : Phase) (h : s.phase ≠ new) (hp : s.power = .running) (g : SegId) :
    (s.changePhase new).seg g = (s.seg g).polledAs new := by
  rw [State.changePhase_eq s new h]
  have hpow : (s.changed new).power = .running := (State.power_of_desk (State.changed_desk s new)).trans hp
  have hs : (s.changed new).seg g = s.seg g := State.seg_congr (State.changed_segs s new) g
  have hw : ∀ t : State, t.power = .running → t.wake.seg g = (t.seg g).woken t.phase.isMotion := by
    intro t ht
    simp [State.wake, ht, State.seg, State.mapCols, State.mapSegs]
  unfold State.applyPolling Segment.polledAs
  simp only [State.trigger_phase, State.raise_phase, State.changed_phase]
  split
  · next hm =>
    rw [hw _ (by simp [hpow])]
    simp only [State.seg_mapSegs, State.mapSegs_phase, State.trigger_phase, State.raise_phase, State.changed_phase, hm,
      Segment.woken, if_true]
    rw [State.seg_congr (s := s.changed new) (by simp), hs]
  · next hm =>
    rw [hw _ (by simp [hpow])]
    simp only [State.trigger_phase, State.raise_phase, State.changed_phase, hm, Segment.woken]
    rw [State.seg_congr (s := s.changed new) (by simp), hs]
    rfl

/-- The polling of a segment after a phase change, whole (R34, R36, R37). -/
theorem Segment.polledAs_awake (new : Phase) (sg : Segment) :
    sg.polledAs new = sg.awake (if new.isMotion then .stopped else .running Config.quietEntryTime) := by
  unfold Segment.polledAs
  split <;> simp [Segment.toFast_awake, Segment.awake, *]

/-- A phase change of the running part, whole (R64, R65). -/
theorem State.changePhase_spec (s : State) (new : Phase) (h : s.phase ≠ new) (hp : s.power = .running) :
    s.changesPhase (s.changePhase new) new := by
  constructor
  case kept =>
    rw [State.changePhase_eq s new h]
    apply State.ext <;> simp [State.changed_stop]
    all_goals first
      | exact State.power_of_desk (State.changed_desk s new)
      | exact State.baud_of_desk (State.changed_desk s new)
      | exact State.holder_of_desk (State.changed_desk s new)
      | exact State.lapse_of_desk (State.changed_desk s new)
      | exact State.roster_of_desk (State.changed_desk s new)
      | exact State.limits_of_desk (State.changed_desk s new)
      | exact State.pending_of_desk (State.changed_desk s new)
      | (unfold State.changed; dsimp only; split <;> simp)
  case phase => simp
  case pause => exact State.changePhase_pause s new h
  case columns =>
    intro p
    rw [State.col_changePhase s new h]
    simp only [Column.entering, Column.changed, hp, decide_true, if_true]
    by_cases h1 : new = .idle <;> by_cases h2 : s.phase = .retracting <;> by_cases h3 : new = .retracting <;>
      simp [*]
  case starts => rw [State.changePhase_starts s new h]
  case plan => exact State.changePhase_plan s new h
  case reference =>
    rw [State.changePhase_ref s new h]
    unfold Reference.changed
    cases new <;> simp [Phase.isLeg]
  case counts => exact State.changePhase_counts s new h
  case spread => exact State.changePhase_spread s new h
  case notices =>
    exact Table.ext_get fun q => by rw [State.changePhase_notices s new h, State.noticesWith, Table.get_map]
  case written =>
    rw [State.changePhase_retention s new h hp]
    congr 1
    rw [State.changePhase_eq s new h]
    have hc : ∀ p, ((((s.changed new).raise .phase).trigger).applyPolling).col p =
        { (s.changed new).col p with creep := none } := by
      intro p
      rw [State.col_applyPolling, State.col_congr (s := s.changed new) (by simp)]
      simp [State.power_of_desk (State.changed_desk s new), hp]
    exact (State.image_congr (by simp) (by simp) (by simp) (fun p => by rw [hc]) (fun p => by rw [hc])
      (by simp [State.imagePhase]) (by simp)).symm
  case polling =>
    intro g
    rw [State.seg_changePhase s new h hp, Segment.polledAs_awake]

end Sys2Proof.Machine
end

