-- ==== Sys2Proof/Laws/Stops.lean ====
section
/-! SUPPORT. Everything that taking a stop does: a first stop (R148) and a further cause (R149). -/

namespace Sys2Proof.Machine

/-- The four segments after their echo tests are aborted (R44). -/
theorem State.seg_abortAll (s : State) (g : SegId) :
    ((((s.abortEcho 0).abortEcho 1).abortEcho 2).abortEcho 3).seg g = (s.seg g).abortedEcho := by
  simp only [State.seg_abortEcho]
  fin_cases g <;> simp

/-- The stop record that an offer leaves (R148). -/
def State.recordOf (s : State) (o : Offer) : StopRecord :=
  { cause := o.cause, pos := o.pos, car := o.car, value := o.value, phase := s.phase, h := s.ref.h,
    legIndex := s.plan.index, port := o.port }

/-- The first effect of a first stop: the record is written and the further-causes set is emptied. -/
def State.recorded (s : State) (o : Offer) : State :=
  { s with stop := { s.stop with record := some (s.recordOf o), further := .fill 14 false } }

@[simp] theorem State.recorded_power (s : State) (o : Offer) : (s.recorded o).power = s.power := rfl
@[simp] theorem State.recorded_baud (s : State) (o : Offer) : (s.recorded o).baud = s.baud := rfl
@[simp] theorem State.recorded_ports (s : State) (o : Offer) : (s.recorded o).ports = s.ports := rfl
@[simp] theorem State.recorded_holder (s : State) (o : Offer) : (s.recorded o).holder = s.holder := rfl
@[simp] theorem State.recorded_lapse (s : State) (o : Offer) : (s.recorded o).lapse = s.lapse := rfl
@[simp] theorem State.recorded_roster (s : State) (o : Offer) : (s.recorded o).roster = s.roster := rfl
@[simp] theorem State.recorded_segs (s : State) (o : Offer) : (s.recorded o).segs = s.segs := rfl
@[simp] theorem State.recorded_cols (s : State) (o : Offer) : (s.recorded o).cols = s.cols := rfl
@[simp] theorem State.recorded_starts (s : State) (o : Offer) : (s.recorded o).starts = s.starts := rfl
@[simp] theorem State.recorded_phase (s : State) (o : Offer) : (s.recorded o).phase = s.phase := rfl
@[simp] theorem State.recorded_pausePending (s : State) (o : Offer) : (s.recorded o).pausePending = s.pausePending := rfl
@[simp] theorem State.recorded_plan (s : State) (o : Offer) : (s.recorded o).plan = s.plan := rfl
@[simp] theorem State.recorded_ref (s : State) (o : Offer) : (s.recorded o).ref = s.ref := rfl
@[simp] theorem State.recorded_holdCount (s : State) (o : Offer) : (s.recorded o).holdCount = s.holdCount := rfl
@[simp] theorem State.recorded_outCount (s : State) (o : Offer) : (s.recorded o).outCount = s.outCount := rfl
@[simp] theorem State.recorded_spread (s : State) (o : Offer) : (s.recorded o).spread = s.spread := rfl
@[simp] theorem State.recorded_limits (s : State) (o : Offer) : (s.recorded o).limits = s.limits := rfl
@[simp] theorem State.recorded_notices (s : State) (o : Offer) : (s.recorded o).notices = s.notices := rfl
@[simp] theorem State.recorded_watches (s : State) (o : Offer) : (s.recorded o).watches = s.watches := rfl
@[simp] theorem State.recorded_lastCreep (s : State) (o : Offer) : (s.recorded o).lastCreep = s.lastCreep := rfl
@[simp] theorem State.recorded_lastEcho (s : State) (o : Offer) : (s.recorded o).lastEcho = s.lastEcho := rfl
@[simp] theorem State.recorded_retention (s : State) (o : Offer) : (s.recorded o).retention = s.retention := rfl
@[simp] theorem State.recorded_pending (s : State) (o : Offer) : (s.recorded o).pending = s.pending := rfl
@[simp] theorem State.recorded_fresh (s : State) (o : Offer) : (s.recorded o).fresh = s.fresh := rfl

@[simp] theorem State.recorded_stop (s : State) (o : Offer) :
    (s.recorded o).stop = { s.stop with record := some (s.recordOf o), further := .fill 14 false } := rfl

@[simp] theorem State.seg_recorded (s : State) (o : Offer) (g : SegId) : (s.recorded o).seg g = s.seg g := rfl

@[simp] theorem State.col_recorded (s : State) (o : Offer) (p : Pos) : (s.recorded o).col p = s.col p := rfl

@[simp] theorem State.validPos_recorded (s : State) (o : Offer) (p : Pos) : (s.recorded o).validPos p = s.validPos p := rfl

/-- The part of a first stop that comes before the abort of the echo tests. -/
def State.stopped (s : State) (o : Offer) : State :=
  let s := (s.recorded o).changePhase .stopped
  let s := s.mapSegs fun sg => { sg with allstopOwed := true }
  let s := { s with stop := { s.stop with stopOut := .opened } }
  s.raiseIfAny o.cause.notice

theorem State.firstStop_eq (s : State) (o : Offer) :
    s.firstStop o = ((((s.stopped o).abortEcho 0).abortEcho 1).abortEcho 2).abortEcho 3 :=
  rfl

/-- A second raise of a category changes nothing (R175). -/
theorem NoticeState.raised_raised (n : NoticeState) (c : Category) : (n.raised c).raised c = n.raised c := by
  unfold NoticeState.raised
  by_cases h : n.enabled.get c.code = true
  · simp only [h, if_true]
    congr 1
    exact Table.ext_get fun i => by simp only [Table.get_set]; split <;> rfl
  · simp [h]

theorem EchoTest.cable_eq_none (e : EchoTest) : e.cable = Option.none ↔ e = .none := by
  cases e <;> simp [EchoTest.cable]

/-- What the abort of one segment's echo test does to the notices and to the last echo segment (R44). -/
theorem State.abortEcho_told (s : State) (g : SegId) :
    (s.abortEcho g).notices = (if (s.seg g).echo = .none then s.notices else s.noticesWith .echoDone) ∧
      (s.abortEcho g).lastEcho = if (s.seg g).echo = .none then s.lastEcho else some g := by
  unfold State.abortEcho
  cases hc : (s.seg g).echo.cable with
  | none => simp [(EchoTest.cable_eq_none _).mp hc]
  | some c =>
    have : (s.seg g).echo ≠ .none := fun h => by simp [h, EchoTest.cable] at hc
    simp [this, State.raiseEchoDone, State.raise, State.noticesWith]

/-- The abort of the four segments' echo tests: ECHO_DONE where any stood, and the last of them in order (R44). -/
theorem State.abortAll_told (s : State) :
    ((((s.abortEcho 0).abortEcho 1).abortEcho 2).abortEcho 3).notices =
        (if ∀ g, (s.seg g).echo = .none then s.notices else s.noticesWith .echoDone) ∧
      ((∀ g, (s.seg g).echo = .none) →
        ((((s.abortEcho 0).abortEcho 1).abortEcho 2).abortEcho 3).lastEcho = s.lastEcho) ∧
      ∀ g, (s.seg g).echo ≠ .none → (∀ z, g < z → (s.seg z).echo = .none) →
        ((((s.abortEcho 0).abortEcho 1).abortEcho 2).abortEcho 3).lastEcho = some g := by
  have he : (∀ g, (s.seg g).echo = .none) ↔
      (s.seg 0).echo = .none ∧ (s.seg 1).echo = .none ∧ (s.seg 2).echo = .none ∧ (s.seg 3).echo = .none :=
    ⟨fun h => ⟨h 0, h 1, h 2, h 3⟩, fun h g => by fin_cases g; exacts [h.1, h.2.1, h.2.2.1, h.2.2.2]⟩
  have hm : ∀ t : Table NoticeState 4,
      (t.map (NoticeState.raised .echoDone)).map (NoticeState.raised .echoDone) = t.map (NoticeState.raised .echoDone) :=
    fun t => Table.ext_get fun q => by simp [NoticeState.raised_raised]
  simp only [(State.abortEcho_told _ _).1, (State.abortEcho_told _ _).2, State.seg_abortEcho, he, State.noticesWith]
  refine ⟨?_, fun h => ?_, fun g hg hz => ?_⟩
  · by_cases h0 : (s.seg 0).echo = .none <;> by_cases h1 : (s.seg 1).echo = .none <;>
      by_cases h2 : (s.seg 2).echo = .none <;> by_cases h3 : (s.seg 3).echo = .none <;> simp [h0, h1, h2, h3, hm]
  · simp [h]
  · fin_cases g
    · have h1 := hz 1 (by decide); have h2 := hz 2 (by decide); have h3 := hz 3 (by decide)
      simp_all
    · have h2 := hz 2 (by decide); have h3 := hz 3 (by decide)
      simp_all
    · have h3 := hz 3 (by decide)
      simp_all
    · simp_all

theorem State.notices_raiseIfAny (s : State) (c : Option Category) (q : PortId) :
    (s.raiseIfAny c).notices.get q = match c with
      | some c => (s.notices.get q).raised c
      | none => s.notices.get q := by
  cases c <;> simp [State.raiseIfAny]

/-! ### A first stop (R148) -/

theorem State.stopped_plan (s : State) (o : Offer) (h : s.phase ≠ .stopped) : (s.stopped o).plan = s.plan := by
  simpa [State.stopped] using State.changePhase_plan (s.recorded o) .stopped h

theorem State.stopped_spread (s : State) (o : Offer) (h : s.phase ≠ .stopped) : (s.stopped o).spread = s.spread := by
  simpa [State.stopped] using State.changePhase_spread (s.recorded o) .stopped h

theorem State.stopped_ref (s : State) (o : Offer) (h : s.phase ≠ .stopped) :
    (s.stopped o).ref = { s.ref with vEff := 0, stepTimer := .stopped, dwellTimer := .stopped } := by
  simpa [State.stopped, Phase.isLeg] using State.changePhase_ref (s.recorded o) .stopped h

theorem State.stopped_phase (s : State) (o : Offer) : (s.stopped o).phase = .stopped := by
  simp [State.stopped]

theorem State.col_stopped (s : State) (o : Offer) (h : s.phase ≠ .stopped) (p : Pos) :
    (s.stopped o).col p = (s.col p).entering (decide (s.power = .running)) s.phase .stopped := by
  have := State.col_changePhase (s.recorded o) .stopped h p
  refine Eq.trans (State.col_congr ?_ p) this
  simp [State.stopped]

theorem State.stopped_stop (s : State) (o : Offer) :
    (s.stopped o).stop =
      { s.stop with record := some (s.recordOf o), further := .fill 14 false, stopOut := .opened } := by
  simp [State.stopped]

theorem State.seg_stopped (s : State) (o : Offer) (h : s.phase ≠ .stopped) (hp : s.power = .running) (g : SegId) :
    (s.stopped o).seg g = { (s.seg g).polledAs .stopped with allstopOwed := true } := by
  have hseg : (s.stopped o).seg g =
      (((s.recorded o).changePhase .stopped).mapSegs fun sg => { sg with allstopOwed := true }).seg g :=
    State.seg_congr (by simp [State.stopped]) g
  rw [hseg, State.seg_mapSegs, State.seg_changePhase (s.recorded o) .stopped h hp g]
  rfl

theorem State.stopped_starts (s : State) (o : Offer) (h : s.phase ≠ .stopped) :
    (s.stopped o).starts = if s.phase = .approach then .fill 48 none else s.starts := by
  have e : (s.stopped o).starts = ((s.recorded o).changePhase .stopped).starts := by simp [State.stopped]
  rw [e, State.changePhase_starts (s.recorded o) .stopped h]
  rfl

theorem State.stopped_counts (s : State) (o : Offer) (h : s.phase ≠ .stopped) :
    (s.stopped o).holdCount = 0 ∧ (s.stopped o).outCount = 0 := by
  simpa [State.stopped, Phase.isTracked] using State.changePhase_counts (s.recorded o) .stopped h

theorem State.stopped_pause (s : State) (o : Offer) (h : s.phase ≠ .stopped) : (s.stopped o).pausePending = false := by
  simpa [State.stopped] using State.changePhase_pause (s.recorded o) .stopped h

theorem State.stopped_notices (s : State) (o : Offer) (h : s.phase ≠ .stopped) (q : PortId) :
    (s.stopped o).notices.get q = match o.cause.notice with
      | some c => ((s.notices.get q).raised .phase).raised c
      | none => (s.notices.get q).raised .phase := by
  have := State.changePhase_notices (s.recorded o) .stopped h q
  simp [State.stopped, State.notices_raiseIfAny, this]

/-- The write of a first stop records the state that the stop leaves (R148, R191). -/
theorem State.firstStop_retention (s : State) (o : Offer) (h : s.phase ≠ .stopped) (hp : s.power = .running) :
    (s.firstStop o).retention = s.retention.triggered (s.firstStop o).image := by
  have e : (s.firstStop o).retention = ((s.recorded o).changePhase .stopped).retention := by
    simp [State.firstStop_eq, State.stopped]
  have i : (s.firstStop o).image = ((s.recorded o).changePhase .stopped).image := by
    have hc : ∀ p, (s.firstStop o).col p = ((s.recorded o).changePhase .stopped).col p := fun p =>
      State.col_congr (by simp [State.firstStop_eq, State.stopped]) p
    refine State.image_congr ?_ ?_ ?_ (fun p => by rw [hc]) (fun p => by rw [hc]) ?_ ?_ <;>
      simp [State.firstStop_eq, State.stopped, State.imagePhase]
  rw [e, i, (State.changePhase_spec (s.recorded o) .stopped h hp).written]
  rfl

/-- A first stop, whole (R148). -/
theorem State.firstStop_spec (s : State) (o : Offer) (hp : s.power = .running) (h : s.phase ≠ .stopped) :
    s.takesFirstStop (s.firstStop o) o := by
  have hseg : ∀ g, (s.firstStop o).seg g = (s.stopped o |>.seg g).abortedEcho := fun g => by
    rw [State.firstStop_eq, State.seg_abortAll]
  have hstop : (s.firstStop o).stop = (s.stopped o).stop := by simp [State.firstStop_eq]
  have hcol : ∀ p, (s.firstStop o).col p = (s.stopped o).col p := fun p =>
    State.col_congr (by simp [State.firstStop_eq]) p
  have href : (s.firstStop o).ref = (s.stopped o).ref := by simp [State.firstStop_eq]
  have hecho : ∀ g, ((s.stopped o).seg g).echo = (s.seg g).echo := fun g => by
    rw [State.seg_stopped s o h hp, Segment.polledAs_awake]
    rfl
  constructor
  case kept =>
    apply State.ext <;> simp [State.firstStop_eq, State.stopped_plan s o h, State.stopped_spread s o h]
    all_goals simp [State.stopped]
  case phase => simp [State.firstStop_eq, State.stopped_phase]
  case record => rw [hstop, State.stopped_stop]; rfl
  case further => rw [hstop, State.stopped_stop]
  case previous => rw [hstop, State.stopped_stop]
  case stopOut => rw [hstop, State.stopped_stop]
  case stopIn => rw [hstop, State.stopped_stop]
  case demands => intro p; rw [hcol, State.col_stopped s o h]; exact ⟨rfl, rfl⟩
  case untracked => intro p; rw [hcol, State.col_stopped s o h]; exact ⟨rfl, rfl, rfl⟩
  case counts => simpa [State.firstStop_eq] using State.stopped_counts s o h
  case parked => intro p; rw [hcol, State.col_stopped s o h]; simp [Column.entering]
  case columns => intro p; rw [hcol, State.col_stopped s o h]; rfl
  case reference => rw [href, State.stopped_ref s o h]
  case halted => rw [href, State.stopped_ref s o h]; exact ⟨rfl, rfl, rfl⟩
  case pause => simpa [State.firstStop_eq] using State.stopped_pause s o h
  case starts => simpa [State.firstStop_eq] using State.stopped_starts s o h
  case creep =>
    intro p
    rw [hcol, State.col_stopped s o h]
    simp [Column.entering, hp]
  case lines =>
    intro g
    rw [hseg, State.seg_stopped s o h hp, Segment.polledAs_awake, Segment.abortedEcho_whole]
    simp only [Phase.isMotion, Segment.echoAborted]
    split <;> simp_all
  case written => exact State.firstStop_retention s o h hp
  case notices =>
    rw [State.firstStop_eq, (State.abortAll_told _).1]
    simp only [hecho]
    exact Table.ext_get fun q => by
      have hn := State.stopped_notices s o h q
      cases hc : o.cause.notice <;> rw [hc] at hn <;> split <;>
        simp [State.raiseIfAny, State.noticesWith, hn]
  case lastEcho =>
    obtain ⟨_, h1, h2⟩ := State.abortAll_told (s.stopped o)
    simp only [hecho, ← State.firstStop_eq] at h1 h2
    exact ⟨fun hg => (h1 hg).trans (by simp [State.stopped]), h2⟩

/-- A stop offered outside STOPPED, once the image has been read, is a first stop (R148). -/
theorem State.offerStop_first (s : State) (o : Offer) (hp : s.power = .running) (h : s.phase ≠ .stopped) :
    s.offerStop o = s.firstStop o := by
  simp [State.offerStop, hp, h]

/-- A stop offered in STOPPED changes the further-causes set alone (R149). -/
theorem State.offerStop_further (s : State) (o : Offer) (hp : s.power = .running) (h : s.phase = .stopped) :
    s.offerStop o = if s.stop.recordCause = some o.cause then s
      else { s with stop := { s.stop with further := s.stop.further.set o.cause.code true } } := by
  simp [State.offerStop, hp, h, State.furtherCause]

/-- Until the image has been read the stop unit takes no stop (R148). -/
theorem State.offerStop_unread (s : State) (o : Offer) (hp : s.power ≠ .running) : s.offerStop o = s := by
  cases h : s.power <;> simp_all [State.offerStop]

end Sys2Proof.Machine
end

