-- ==== Sys2Proof/Tests/Slice0.lean ====
section
/-! SUPPORT. Tests of the model: ill-formed operands, the manual's worked examples and tables one step at a time, and for every
statement of Certificates/Slice0 that has hypotheses a witness that meets them. Expected values come from the manual. -/

open Sys2Proof Sys2Proof.Machine

namespace Sys2Proof.Tests

set_option Elab.async false

/-! ### The states the tests start from -/

/-- A running part in IDLE, with nothing mapped and the safety chain closed. -/
def idle : State :=
  { State.reset with
    power := .running, stop := { StopUnit.initial with stopIn := .closed, stopOut := .closed } }

/-- A drive's capabilities. -/
def drive : Capability :=
  { serial := some 0x00417A26, stroke := some 36000, rated := some 9000, maxSpeed := some 200 }

/-- A drop in a link state that holds a whole capability record. -/
def dropIn (l : LinkState) : Drop :=
  { Drop.initial with link := l, cap := drive }

/-- A column of the train in a phase: on the reference where the group is tracked, 1,000 above the floor. -/
def columnIn (ph : Phase) (l : LinkState) : Column :=
  { Column.empty with
    link := l, cap := drive, height := some (if ph.isTracked then 1500 else 1000), load := some 2000
    contact := if ph.hasContacts ∨ ph = .stopped then some 1000 else none
    rel := if ph.hasContacts ∨ ph = .stopped then some (if ph.isTracked then 500 else 0) else none
    cls := if ph.isTracked then .inPosition else .none
    lag := if ph.isTracked then some 0 else none }

/-- The stop unit after a STOP byte from port 2 in LIFTING. -/
def stopByteTaken : StopUnit :=
  let r : StopRecord :=
    { cause := .stopByte, pos := none, car := none, value := none, phase := .lifting, h := 0, legIndex := 0, port := some 2 }
  { StopUnit.initial with stopIn := .closed, record := some r }

/-- A two-car train on S1, car 1 on drops 1 to 4 and car 2 on drops 5 to 8, articulated, in a phase, with the drops in a link
state, and one plan leg to 600. -/
def trainWith (ph : Phase) (l : LinkState) : State :=
  { idle with
    phase := ph
    roster :=
      { entries := .build fun p => if p.val < 8 then
          some { seg := 0, drop := Fin.ofNat 12 p.val, serial := some 0x00417A26 } else none
        links := (Table.fill 11 false).set 0 true
        confirmed := true }
    segs := (Table.fill 4 Segment.initial).set 0
      { Segment.initial with drops := .build fun d => if d.val < 8 then dropIn l else Drop.initial }
    cols := .build fun p => if p.val < 8 then columnIn ph l else Column.empty
    plan := { legs := (Table.fill 16 Leg.initial).set 0 { target := 600, speed := 100, dwell := 5, continues := false },
              count := 1, index := 0 }
    ref := { Reference.initial with
             h := if ph.isTracked then 500 else 0, fine := if ph.isTracked then 50000 else 0
             target := some 600, speed := some 100, dwell := 5
             dir := if ph = .lowering then .down else .up
             stepTimer := if ph.isLeg then .running 10 else .stopped
             dwellTimer := if ph = .dwell then .running 5000 else .stopped }
    stop := if ph = .stopped then stopByteTaken else idle.stop }

/-- The train in a phase, enrolled. -/
def train (ph : Phase) : State :=
  trainWith ph .enrolled

/-- A state in which port 0 holds command and a request with tag 7. -/
def asked (s : State) (r : Request) (args : List Byte) : State :=
  { s.modPort 0 (fun x => { x with held := some (r.code :: 7 :: args) }) with holder := some 0, lapse := .running 2000 }

/-- An exchange in flight on S1 with drop `d`. -/
def inExchange (s : State) (d : DropId) (kind : ExchangeKind) : State :=
  s.modSeg 0 fun sg => { sg with inFlight := some { drop := d, kind := kind, toggle := true, page := 3 } }

/-- A report with no page and no flags. -/
def report (height load : Nat) : Report :=
  { page := 3, height := height, load := load, flags := DriveFlags.clear, data := 0 }

/-- The state after a command that completes. -/
def after (c : Instr) (s : State) : State :=
  match exec c s with
  | .next t => t
  | .fault _ => s
  | .refused _ => s

/-- The bytes queued at port 0. -/
def sentBytes (s : State) : List Byte :=
  (s.port 0).tx

/-- The train satisfies every law. -/
theorem test_train_safe (ph : Phase) (h : ph = .idle ∨ ph = .approach ∨ ph = .lifting ∨ ph = .stopped) :
    (train ph).safe := by
  obtain rfl | rfl | rfl | rfl := h <;> (and_intros <;> decide +kernel)

/-! ### Ill-formed operands -/

/-- The memory gives the 585 bytes of the image or nothing (R188, R199). -/
theorem test_short_reading_is_ill_formed : (Instr.imageReadEnd (.answered [0xFF])).wellFormed = false := by decide

/-- A read-back has as many bytes as were sent (R193, R199). -/
theorem test_short_read_back_is_ill_formed : (Instr.writeEnd (.completed [])).wellFormed = false := by decide

/-- A delay is a count up to 4,095 (R41). -/
theorem test_long_delay_is_ill_formed :
    (Instr.echoPulse 0 { polarity := .same, strength := .aboveDetection, delay := 4096 }).wellFormed = false ∧
    (Instr.echoPulse 0 { polarity := .same, strength := .aboveDetection, delay := 4095 }).wellFormed = true := by decide

/-! ### Coding -/

/-- The check value of the CRC-16 of R161 (polynomial 0x1021, initial value 0xFFFF, no reflection) on the ASCII digits 1 to 9. -/
theorem test_crc_check_value : crc16 [0x31, 0x32, 0x33, 0x34, 0x35, 0x36, 0x37, 0x38, 0x39] = 0x29B1#16 := by decide +kernel

/-- Section 12.4's example: MAP(10, S2, drop 3, serial 0x00417A26) with tag 0xA7, whose tag alone is escaped before the CRC. -/
theorem test_map_frame_on_the_line :
    (stationFrame [0x20, 0xA7, 0x0A, 0x02, 0x03, 0x00, 0x41, 0x7A, 0x26]).take 12
      = [0xA5, 0x09, 0x20, 0xA6, 0x87, 0x0A, 0x02, 0x03, 0x00, 0x41, 0x7A, 0x26] := by decide +kernel

/-- An absent signed 24-bit value is 0x800000 and -1 is 0xFFFFFF (R195). -/
theorem test_signed_24 : optSigned24 none = [0x80, 0, 0] ∧ optSigned24 (some (-1)) = [0xFF, 0xFF, 0xFF] := by decide

/-! ### Start-up and retention -/

theorem test_power_on_reset :
    (after (.powerOnReset .closed) (train .lifting)).phase = .idle ∧
    (after (.powerOnReset .closed) (train .lifting)).stop.stopOut = .opened ∧
    (after (.powerOnReset .closed) (train .lifting)).stop.stopIn = .closed := by decide +kernel

/-- Straps B high and A low: 460,800 (the table of R158). -/
theorem test_reset_release : (after (.resetRelease true false) State.reset).baud = .b460800 := by decide +kernel

theorem test_image_read_end_absent :
    (after (.imageReadEnd .noAnswer) { State.reset with power := .reading }).stop.stopOut = .closed ∧
    ((after (.imageReadEnd .noAnswer) { State.reset with power := .reading }).seg 2).pollTimer = .running 5 := by
  decide +kernel

/-- A reading whose CRC is the one a write sends and whose contents decode is VALID (R188). -/
theorem reading_is_valid (m : Image) (hn : (imagePayload m).length = 583)
    (hf : ((imageBytes m).all fun x => decide (x = 0xFF)) = false) (hd : decodeImage (imageBytes m) = some m) :
    readImage (.answered (imageBytes m)) = (.valid, some m) := by
  have ht : (imageBytes m).take 583 = imagePayload m := by
    rw [imageBytes, withCrc, List.take_append_of_le_length (by omega), List.take_of_length_le (by omega)]
  have hr : (imageBytes m).drop 583 = crcBytes (imagePayload m) := by
    rw [imageBytes, withCrc, ← hn, List.drop_left]
  have hl : (imageBytes m).length = 585 := by simp [imageBytes, withCrc, hn, crcBytes, be16]
  simp only [readImage, hf, ht, hr, hl, hd, Config.imageSize]
  simp

/-- The image of an empty part in a phase. -/
def emptyImage (ph : Phase) : Image :=
  { Image.default with phase := ph }

theorem empty_image_is_valid : readImage (.answered (imageBytes (emptyImage .idle))) = (.valid, some (emptyImage .idle)) :=
  reading_is_valid _ (by decide +kernel) (by decide +kernel) (by decide +kernel)

theorem holding_image_is_valid :
    readImage (.answered (imageBytes (emptyImage .holding))) = (.valid, some (emptyImage .holding)) :=
  reading_is_valid _ (by decide +kernel) (by decide +kernel) (by decide +kernel)

/-- The part while it reads the image. -/
def reading : State :=
  { State.reset with power := .reading }

/-- An image of another phase than IDLE restores as a stop with cause POWER_RESTORED and that phase at stop (R151, R189). -/
theorem test_image_read_end_holding :
    (after (.imageReadEnd (.answered (imageBytes (emptyImage .holding)))) reading).stop.record
      = some { cause := .powerRestored, pos := none, car := none, value := none, phase := .holding, h := 0, legIndex := 0,
               port := none } := by
  have h : reading.imageReadEnd (.answered (imageBytes (emptyImage .holding)))
      = reading.endReading .valid (emptyImage .holding) := by
    simp [State.imageReadEnd, holding_image_is_valid, reading]
  simp only [after, exec, execImageReadEnd, h]
  decide +kernel

/-- A write that the memory does not complete leaves FAILED (R193). -/
theorem test_write_end :
    (after (.writeEnd .notCompleted) idle.trigger).retention.status = .failed := by decide +kernel

/-! ### Station ports -/

/-- The 48th byte of the receive FIFO owes a HOLD (R163), and the 65th is discarded with the overrun latch set (R160). -/
theorem test_station_byte_received :
    ((after (.stationByteReceived 0 1 false)
      (idle.modPort 0 fun x => { x with rx := List.replicate 47 ⟨1, false⟩ })).port 0).owed = [.hold] ∧
    ((after (.stationByteReceived 0 1 false)
      (idle.modPort 0 fun x => { x with rx := List.replicate 64 ⟨1, false⟩ })).port 0).overrun = true := by decide +kernel

theorem test_hold : ((after (.hold 1) idle).port 1).outboundPaused = true := by decide +kernel

theorem test_go :
    ((after (.go 1) (idle.modPort 1 fun x => { x with outboundPaused := true })).port 1).outboundPaused = false := by
  decide +kernel

/-- Section 8.6's example: a STOP byte from port 2 in LIFTING (R146). -/
theorem test_stop_byte :
    (after (.stopByte 2) (train .lifting)).stop.record =
      some { cause := .stopByte, pos := none, car := none, value := none, phase := .lifting, h := 500, legIndex := 0,
             port := some 2 } := by decide +kernel

/-- A byte that is not START is discarded in HUNTING, and the framing latch is set (R161). -/
theorem test_frame_assembler_take :
    ((after (.frameAssemblerTake 0) (idle.modPort 0 fun x => { x with rx := [⟨1, false⟩] })).port 0).framing = true := by
  decide +kernel

/-- An owed GO goes ahead of the transmit FIFO, even while outbound is paused (R163). -/
theorem test_transmit_character :
    ((after (.transmitCharacter 0)
      (idle.modPort 0 fun x => { x with owed := [.go], tx := [1], outboundPaused := true })).port 0).line = some 0xA8 := by
  decide +kernel

/-- The owed position after the pointer is served: the first bytes of its frame (R168, section 12.2). -/
theorem test_update_frame :
    ((sentBytes (after (.updateFrame 0) ((train .holding).modWatch 0 fun w =>
      { w with watched := Table.fill 48 true, owed := (Table.fill 48 false).set 3 true, pointer := 5 }))).take 9)
      = [0xA5, 0x07, 0x60, 0x03, 0x0C, 0x05, 0xDC, 0x07, 0xD0] := by decide +kernel

/-- Code 0x7F names no request: the reply code is 0xFF, 0x7F plus 0x80, and the result UNKNOWN is 8; RETAIN, pending from reset,
gives the attention level 1 (R165, R166, R174). -/
theorem test_unknown :
    ((sentBytes (after (.unknown 0) (idle.modPort 0 fun x => { x with held := some [0x7F, 7] }))).take 9)
      = [0xA5, 0x07, 0xFF, 0x07, 0x08, 0x00, 0xFF, 0x01, 0x00] := by decide +kernel

/-! ### Reads -/

/-- The roster entry byte of p 1: valid, with a serial, S1, drop 2 (R195). -/
theorem test_read_roster :
    ((sentBytes (after (.readRoster 0) (asked (train .holding) .readRoster [1]))).drop 9).take 5
      = [0xC2, 0x00, 0x41, 0x7A, 0x26] := by decide +kernel

/-- Link ENROLLED is 4, with the serial-present bit 7 (section 12.2). -/
theorem test_read_column :
    ((sentBytes (after (.readColumn 0) (asked (train .holding) .readColumn [1]))).drop 9).take 7
      = [0x84, 0x00, 0x41, 0x7A, 0x26, 0x8C, 0xA0] := by decide +kernel

/-- View 1 of a car begins with the height, the load and rel of A-left (R197). -/
theorem test_read_car :
    ((sentBytes (after (.readCar 0) (asked (train .holding) .readCar [1, 1]))).drop 9).take 7
      = [0x05, 0xDC, 0x07, 0xD0, 0x00, 0x01, 0xF4] := by decide +kernel

theorem test_read_segment_range :
    ((sentBytes (after (.readSegment 0) (asked idle .readSegment [5, 0]))).drop 4).take 1 = [0x03] := by decide +kernel

/-- The phase HOLDING is 6 (section 12.1). -/
theorem test_read_group :
    ((sentBytes (after (.readGroup 0) (asked (train .holding) .readGroup []))).drop 9).take 1 = [0x06] := by decide +kernel

/-- Leg 0: target 600, speed 100, dwell 5, continue clear and in the plan (section 12.2). -/
theorem test_read_plan :
    ((sentBytes (after (.readPlan 0) (asked (train .holding) .readPlan [0]))).drop 9).take 9
      = [0x02, 0x58, 0x00, 0x64, 0x00, 0x05, 0x02, 0x01, 0x00] := by decide +kernel

/-- The first limit, W_adv 20, in two bytes (R141, section 12.2). -/
theorem test_read_limits :
    ((sentBytes (after (.readLimits 0) (asked idle .readLimits []))).drop 9).take 4 = [0x00, 0x14, 0x00, 0x04] := by
  decide +kernel

/-- A stop record is present (bit 0), no previous one, STOP_IN closed and STOP_OUT open (bit 3); cause STOP_BYTE is 1. -/
theorem test_read_stop :
    ((sentBytes (after (.readStop 0) (asked (train .stopped) .readStop []))).drop 9).take 2 = [0x09, 0x01] := by decide +kernel

/-! ### Notices, watches and authority -/

/-- Level 0 goes first: STOP (1) before RETAIN (14) (R178). -/
theorem test_notice_next :
    ((sentBytes (after (.noticeNext 0) (asked (State.raise idle .stop) .noticeNext []))).drop 9).take 2 = [0x01, 0x00] := by
  decide +kernel

/-- A disabled category leaves the pending set (R176). -/
theorem test_notice_set :
    ((after (.noticeSet 0) (asked idle .noticeSet [14, 0, 1])).notices.get 0).waiting.get 14 = false := by decide +kernel

/-- The watched positions that hold a height are owed (R181). -/
theorem test_watch :
    ((after (.watch 0) (asked (train .idle) .watch [0x81, 0x01, 0, 0, 0, 0, 0, 10, 0, 50])).watches.get 0).owed.get 7 = true ∧
    ((after (.watch 0) (asked (train .idle) .watch [0x81, 0x01, 0, 0, 0, 0, 0, 10, 0, 50])).watches.get 0).owed.get 8 = false
    := by decide +kernel

theorem test_unwatch :
    ((after (.unwatch 0) (asked ((train .idle).modWatch 0 fun w => { w with watched := .fill 48 true }) .unwatch
      [])).watches.get 0).watched.get 7 = false := by decide +kernel

/-- Command is free: port 3 gets it, with the lapse timer at 2 s (R169, R170). -/
theorem test_claim :
    (after (.claim 3) (idle.modPort 3 fun x => { x with held := some [0x18, 1] })).holder = some 3 ∧
    (after (.claim 3) (idle.modPort 3 fun x => { x with held := some [0x18, 1] })).lapse = .running 2000 := by decide +kernel

/-- In a motion phase the holder's YIELD is answered WRONG_PHASE, 2 (R171). -/
theorem test_yield :
    (after (.yield 0) (asked (train .lifting) .yield [])).holder = some 0 ∧
    (after (.yield 0) (asked (train .holding) .yield [])).holder = none := by decide +kernel

theorem test_lapse_timer_expiry :
    ((after .lapseTimerExpiry (asked (train .lifting) .stop [])).stop.record.map fun r => (r.cause, r.port))
      = some (.authorityLapse, some 0) := by decide +kernel

/-! ### Stops -/

/-- STOP takes any bytes after its tag (R167). -/
theorem test_stop :
    (after (.stop 0) (asked (train .dwell) .stop [1, 2, 3])).phase = .stopped := by decide +kernel

theorem test_stop_in_open :
    ((after .stopInOpen (train .aligned)).stop.record.map fun r => r.cause) = some .stopIn := by decide +kernel

theorem test_stop_in_close :
    (after .stopInClose State.reset).stop.stopIn = .closed := by decide +kernel

/-- All contacts held and a phase at stop of LIFTING: REARM goes to HOLDING (R154). -/
theorem test_rearm :
    (after (.rearm 0) (asked (train .stopped) .rearm [])).phase = .holding ∧
    (after (.rearm 0) (asked (train .stopped) .rearm [])).stop.stopOut = .closed := by decide +kernel

/-! ### The roster -/

/-- MAP(10, S2, drop 3, serial): section 12.4's example. -/
theorem test_map :
    (after (.map 0) (asked idle .map [10, 2, 3, 0x00, 0x41, 0x7A, 0x26])).entry 10
      = some { seg := 1, drop := 2, serial := some 0x00417A26 } := by decide +kernel

theorem test_unmap :
    (after (.unmap 0) (asked (train .idle) .unmap [3])).entry 3 = none ∧
    (after (.unmap 0) (asked (train .idle) .unmap [3])).roster.confirmed = false := by decide +kernel

theorem test_link : (after (.link 0) (asked idle .link [11, 9])).roster.links.get 10 = true := by decide +kernel

/-- Every position passes, and every READY drop becomes ENROLLED (R11). -/
theorem test_confirm :
    ((after (.confirm 0) (asked (trainWith .idle .ready) .confirm [])).col 7).link = .enrolled ∧
    ((after (.confirm 0) (asked (trainWith .idle .ready) .confirm [])).drop 0 7).link = .enrolled := by decide +kernel

/-! ### The group -/

theorem test_approach :
    (after (.approach 0) (asked (train .idle) .approach [])).phase = .approach ∧
    (after (.approach 0) (asked (train .idle) .approach [])).starts.get 5 = some 1000 := by decide +kernel

/-- RUN in ALIGNED: the leg to 600 starts upward (R107). -/
theorem test_run :
    (after (.run 0) (asked (train .aligned) .run [])).phase = .lifting ∧
    (after (.run 0) (asked (train .aligned) .run [])).ref.target = some 600 := by decide +kernel

theorem test_pause :
    (after (.pause 0) (asked (train .lifting) .pause [])).pausePending = true ∧
    (after (.pause 0) (asked (train .dwell) .pause [])).phase = .holding := by decide +kernel

/-- The set-down leg goes to 0 at the set-down speed, 60 (R78, R115, R141). -/
theorem test_setdown :
    (after (.setdown 0) (asked (train .holding) .setdown [])).phase = .lowering ∧
    (after (.setdown 0) (asked (train .holding) .setdown [])).ref.speed = some 60 := by decide +kernel

theorem test_retract : (after (.retract 0) (asked (train .landed) .retract [])).phase = .retracting := by decide +kernel

/-- Section 7.7's example: a stored rel two above H, and JOG(p 5, +90) is clamped to 52 by the lag bound of 50 (R138). -/
theorem test_jog :
    ((after (.jog 0) (asked ((train .holding).modCol 5 fun c => { c with rel := some 502 }) .jog [0, 5, 0, 90])).col 5).offset
      = 52 ∧
    ((after (.jog 0) (asked ((train .holding).modCol 5 fun c => { c with rel := some 502 }) .jog [0, 5, 0, 90])).col 5).jog
      = true := by decide +kernel

/-- A target above 40,000 is clamped (R101). -/
theorem test_plan_leg :
    (after (.planLeg 0) (asked idle .planLeg [0, 0xFF, 0xFF, 0, 200, 0, 0, 1])).plan.legs.get 0
      = { target := 40000, speed := 200, dwell := 0, continues := true } ∧
    (after (.planLeg 0) (asked idle .planLeg [0, 0xFF, 0xFF, 0, 200, 0, 0, 1])).plan.count = 1 := by decide +kernel

/-- A write begun in APPROACH after a first contact holds no contact height (R88, R191). -/
theorem test_plan_leg_in_approach :
    ((after (.planLeg 0) (asked ((train .approach).modCol 3 fun c => { c with contact := some 900 }) .planLeg
      [0, 0, 9, 0, 200, 0, 0, 1])).retention.writing.map fun m => m.contacts.get 3) = some none := by decide +kernel

theorem test_plan_cut : (after (.planCut 0) (asked (train .idle) .planCut [0])).plan.count = 0 := by decide +kernel

/-- Kp at 300 is clamped to 255 (R141, R142); W_done above W_adv is refused. -/
theorem test_limit_set :
    (after (.limitSet 0) (asked idle .limitSet [5, 1, 44])).limits.get 5 = 255 ∧
    (after (.limitSet 0) (asked idle .limitSet [1, 0, 21])).limits.get 1 = 4 := by decide +kernel

/-- The example after section 6.7 at its 21st expiry: F 1,150, H 11 and v_eff 100. -/
theorem test_reference_step :
    let t := after .referenceStepTimerExpiry
      { train .lifting with ref := { (train .lifting).ref with fine := 1050, h := 10, vEff := 100 } }
    t.ref.fine = 1150 ∧ t.ref.h = 11 ∧ t.ref.vEff = 100 := by decide +kernel

theorem test_dwell_timer_expiry : (after .dwellTimerExpiry (train .dwell)).phase = .holding := by decide +kernel

/-! ### Segment lines -/

/-- A second expiry in one cycle sets the overrun flag and owes a start (R25). -/
theorem test_poll_cycle_timer_expiry :
    let t := after (.pollCycleTimerExpiry 0) (idle.modSeg 0 fun sg =>
      { sg with pollTimer := .running 5, cycle := some .fresh })
    (t.seg 0).overrun = true ∧ (t.seg 0).startOwed = true := by decide +kernel

/-- Section 2.3's example: with every visit made and the pointer at 9, drop 10 is probed with page request 3 and demand 0. -/
theorem test_command :
    ((after (.command 0) ((train .lifting).modSeg 0 fun sg =>
      { sg with cycle := some { reached := 8, exchanged := [], probed := false }, discovery := 8 })).seg 0).line
      = some (withCrc [0x0A, 0x02, 0x31, 0x00, 0x00]) := by decide +kernel

theorem test_segment_line_byte :
    ((after (.segmentLineByte 2 0x55) idle).seg 2).idleWaitRestarted = true := by decide +kernel

/-- Section 7.6's example: e 12 in LIFTING with v_eff 100 gives the mark, the class IN and the demand 124. -/
theorem test_status_arrival :
    let s := inExchange { train .lifting with ref := { (train .lifting).ref with vEff := 100 } } 6 .poll
    let t := after (.statusArrival 0 (statusFrame 6 true (report 1488 5100))) s
    (t.col 6).lag = some 12 ∧ (t.col 6).cls = .inPosition ∧ (t.col 6).mark = true ∧ (t.col 6).demand = 124 ∧
    t.outCount = 1 := by decide +kernel

/-- Section 1.4's example: a reported height of 41,250 is stored as 40,000 with the range flag. -/
theorem test_status_arrival_out_of_range :
    let t := after (.statusArrival 0 (statusFrame 5 true (report 41250 3100))) (inExchange (train .idle) 5 .poll)
    (t.col 5).height = some 40000 ∧ (t.col 5).load = some 3100 ∧ (t.col 5).range = true := by decide +kernel

/-- The third miss of an enrolled drop: LOST, and outside IDLE the stop COLUMN_LOST (R58). -/
theorem test_reply_window_close :
    let s := inExchange ((train .holding).modDrop 0 5 fun d => { d with miss := 2 }) 5 .poll
    ((after (.replyWindowClose 0) s).drop 0 5).link = .lost ∧
    ((after (.replyWindowClose 0) s).stop.record.map fun r => (r.cause, r.pos)) = some (.columnLost, some 5) := by
  decide +kernel

/-- The ALLSTOP frame: drop 0, type 3 (section 12.3). -/
theorem test_allstop :
    ((after (.allstop 1) (idle.modSeg 1 fun sg => { sg with allstopOwed := true })).seg 1).line
      = some (withCrc [0x00, 0x03, 0x00]) := by decide +kernel

theorem test_quiet_entry_timer_expiry :
    let t := after (.quietEntryTimerExpiry 0) ((train .holding).modSeg 0 fun sg => { sg with quietTimer := .running 2000 })
    (t.seg 0).pollTimer = .running 100 ∧ (t.col 3).creep = some 1500 := by decide +kernel

theorem test_settle_timer_expiry :
    ((after (.settleTimerExpiry 0 11) (idle.modDrop 0 11 fun d =>
      { d with link := .settling, settle := .running 500 })).drop 0 11).link = .paging := by decide +kernel

/-! ### The echo test -/

theorem test_echo : ((after (.echo 0) (asked idle .echo [3, 1])).seg 2).echo = .running 1 [] := by decide +kernel

theorem test_echo_waits_for_the_line :
    ((after (.echo 0) (asked (inExchange idle 0 .probe) .echo [1, 1])).seg 0).echo = .waiting 1 := by decide +kernel

theorem test_echo_test_running :
    ((after (.echoTestRunning 2) (idle.modSeg 2 fun sg => { sg with echo := .waiting 1 })).seg 2).echo = .running 1 [] := by
  decide +kernel

/-- A large reflection of the pulse's own polarity is OPEN (R41). -/
theorem test_echo_pulse :
    ((after (.echoPulse 2 { polarity := .same, strength := .aboveDetection, delay := 87 })
      (idle.modSeg 2 fun sg => { sg with echo := .running 1 [] })).seg 2).echo = .running 1 [⟨.openCircuit, 87⟩] := by
  decide +kernel

/-- Section 2.6's example: 14 OPEN and 2 UNCERTAIN with a sum of 1,395 on cable type 1: average 87, 428 dm. -/
theorem test_echo_test_end :
    ((after (.echoTestEnd 2) (idle.modSeg 2 fun sg =>
      { sg with echo := .running 1 (List.replicate 13 ⟨.openCircuit, 87⟩ ++ [⟨.openCircuit, 90⟩]
                  ++ List.replicate 2 ⟨.uncertain, 87⟩) })).seg 2).lastEcho
      = some { cable := 1, cls := .openCircuit, average := some 87, distance := .decimetres 428
               counts := some { openCircuit := 14, short := 0, uncertain := 2, matched := 0 } } := by decide +kernel

/-! ### Witnesses: for every statement with hypotheses, states and operands that meet them, clause by clause -/

/-- The ports below port 0 are none. -/
theorem no_lower_port {P : PortId → Prop} : ∀ x < (0 : PortId), P x :=
  fun x h => absurd h (Fin.not_lt_zero x)

/-- A state with a byte list in port 0's receive FIFO. -/
def withRx (s : State) (bytes : List RxByte) : State :=
  s.modPort 0 fun x => { x with rx := bytes }

theorem witness_StepTakesFrontCommand :
    ({ idle with pending := [.hold 0, .go 0] } : State).pending = .hold 0 :: [.go 0] ∧ idle.pending = [] := by decide

theorem witness_EveryCommandCompletes :
    (∀ l, Instr.hold 0 ≠ .powerOnReset l) ∧ (∀ b a, Instr.hold 0 ≠ .resetRelease b a) ∧
    (∀ r, Instr.hold 0 ≠ .imageReadEnd r) := by simp

theorem witness_ResetValuesAndStraps : State.reset.power = .inReset ∧ reading.power ≠ .inReset := by decide

theorem witness_EmptyReadingRestoresDefaults :
    reading.power = .reading ∧ (readImage .noAnswer).2 = none ∧ (readImage (.answered [0xFF])).2 = none ∧
    (readImage (.answered [0x00])).2 = none ∧ (reading.seg 0).echo = .none ∧ (reading.drop 0 0).link = .absent ∧
    (reading.seg 0).discovery = 11 ∧ (∀ d, (reading.drop 3 d).link = .absent) ∧
    (let s := reading.modSeg 3 fun sg => { sg with echo := .waiting 2 };
      s.power = .reading ∧ (s.seg 3).echo = .waiting 2 ∧ (s.seg 3).inFlight = none ∧ (s.seg 3).allstopOwed = false) := by
  decide +kernel

theorem witness_ValidReadingRestoresImage :
    reading.power = .reading ∧ reading.phase = .idle ∧
    (readImage (.answered (imageBytes (emptyImage .idle))) = (.valid, some (emptyImage .idle)) ∧
      (emptyImage .idle).phase = .idle) ∧
    (readImage (.answered (imageBytes (emptyImage .holding))) = (.valid, some (emptyImage .holding)) ∧
      (emptyImage .holding).phase ≠ .idle) ∧
    (reading.notices.get 0).enabled.get Category.retain.code = true ∧
    (reading.notices.get 0).enabled.get Category.phase.code = true :=
  ⟨by decide, by decide, ⟨empty_image_is_valid, by decide⟩, ⟨holding_image_is_valid, by decide⟩, by decide, by decide⟩

theorem witness_ReadingDecidesStatus :
    (List.replicate 585 (0xFF : Byte)).length = 585 ∧ (∀ x ∈ List.replicate 585 (0xFF : Byte), x = 0xFF) ∧
    (List.replicate 585 (0 : Byte)).length = 585 ∧ ∃ x ∈ List.replicate 585 (0 : Byte), x ≠ 0xFF :=
  ⟨List.length_replicate, fun _ h => List.eq_of_mem_replicate h, List.length_replicate, 0,
    List.mem_replicate.mpr ⟨by decide, rfl⟩, by decide⟩

theorem witness_ImageRoundTrip :
    (emptyImage .idle).consistent = true ∧ (train .lifting).image.consistent = true := by decide +kernel

theorem witness_SafeStateWritesConsistentImage :
    (train .stopped).safe ∧ (train .stopped).phase = .stopped ∧ (train .stopped).stop.record = stopByteTaken.record ∧
    (train .lifting).safe ∧ (train .lifting).phase ≠ .stopped ∧ (train .lifting).phase ≠ .approach ∧
    ((train .approach).safe ∧ (train .approach).phase = .approach) :=
  ⟨test_train_safe _ (by simp), by decide, by decide +kernel, test_train_safe _ (by simp), by decide, by decide,
    test_train_safe _ (by simp), by decide⟩

theorem witness_WriteEndOutcome : idle.trigger.retention.writing = some idle.image := by decide +kernel

theorem witness_StationByteArrives :
    (idle.power ≠ .inReset ∧ State.reset.power = .inReset) ∧
    (0xA7 : Byte) ≠ 0xA6 ∧ (0xA6 : Byte) ≠ 0xA7 ∧ (0xA6 : Byte) ≠ 0xA8 ∧ (0xA6 : Byte) ≠ 0xA9 ∧
    64 ≤ ((withRx idle (List.replicate 64 ⟨1, false⟩)).port 0).rx.length ∧
    (47 ≤ ((withRx idle (List.replicate 47 ⟨1, false⟩)).port 0).rx.length ∧
      ((withRx idle (List.replicate 47 ⟨1, false⟩)).port 0).inboundHeld = false) ∧
    ¬ 47 ≤ ((withRx idle (List.replicate 46 ⟨1, false⟩)).port 0).rx.length := by decide +kernel

/-- Port 0 in a frame with a gathered list and one byte to take. -/
def inFrame (escaped : Bool) (values : List Byte) (b : RxByte) : State :=
  idle.modPort 0 fun x => { x with rx := [b], assembler := .inFrame escaped values }

theorem witness_AssemblerTakesByte :
    ((asked idle .stop []).port 0).held = some [0x1A, 7] ∧
    (idle.power ≠ .inReset ∧ (idle.port 0).held = none ∧ ((withRx idle [⟨0xA5, false⟩]).port 0).rx = [⟨0xA5, false⟩] ∧
      ((withRx idle [⟨0xA5, true⟩]).port 0).rx = [⟨0xA5, true⟩] ∧ (idle.port 0).assembler = .hunting) ∧
    (((inFrame false [2, 1] ⟨0xA6, false⟩).port 0).assembler = .inFrame false [2, 1] ∧
      ((inFrame false [2, 1] ⟨0xA6, false⟩).port 0).held = none) ∧
    (((inFrame true [2, 1] ⟨0x84, false⟩).port 0).assembler = .inFrame true [2, 1] ∧
      ¬ (0x85 ≤ (0x84 : Byte).toNat ∧ (0x84 : Byte).toNat ≤ 0x89)) ∧
    ((([] : List Byte) ++ [1]).getD 0 0).toNat < 2 ∧ 40 < ((([] : List Byte) ++ [41]).getD 0 0).toNat ∧
    ([2, 0x01] ++ [(7 : Byte)]).length < 2 + 3 ∧
    ([2, 0x01, 7] ++ crcBytes [2, 0x01, 7]).drop 3 = crcBytes (([2, 0x01, 7] ++ crcBytes [2, 0x01, 7]).take 3) := by
  decide +kernel

theorem witness_AssemblerReadsFrame :
    let s := withRx idle ((stationFrame [0x20, 0xA7]).map (fun v => ⟨v, false⟩) ++ [⟨1, false⟩]);
    s.power ≠ .inReset ∧ (s.port 0).held = none ∧ (s.port 0).assembler = .hunting ∧ 2 ≤ [(0x20 : Byte), 0xA7].length ∧
    (List.replicate 40 (0xA5 : Byte)).length ≤ 40 ∧
    (s.port 0).rx = (stationFrame [0x20, 0xA7]).map (fun v => ⟨v, false⟩) ++ [⟨1, false⟩] := by decide +kernel

/-- Port 0 with owed out-of-band bytes, a transmit FIFO and the outbound-paused flag. -/
def outbound (owed : List OutOfBand) (tx : List Byte) (paused : Bool) : State :=
  idle.modPort 0 fun x => { x with owed := owed, tx := tx, outboundPaused := paused }

theorem witness_TransmitterOrder :
    idle.power ≠ .inReset ∧ ((outbound [.hold, .go] [1] true).port 0).owed = .hold :: [.go] ∧
    (((outbound [] [1] true).port 0).owed = [] ∧ ((outbound [] [1] true).port 0).outboundPaused = true) ∧
    ((outbound [] [] false).port 0).tx = [] ∧
    (((outbound [] [1, 2] false).port 0).owed = [] ∧ ((outbound [] [1, 2] false).port 0).outboundPaused = false ∧
      ((outbound [] [1, 2] false).port 0).tx = 1 :: [2]) := by decide +kernel

/-- Station 0 watches every position, with position 3 owed and the pointer at 5. -/
def watching : State :=
  (train .holding).modWatch 0 fun w =>
    { w with watched := Table.fill 48 true, owed := (Table.fill 48 false).set 3 true, pointer := 5 }

theorem witness_UpdateFrameServed :
    watching.power ≠ .inReset ∧ (watching.port 0).held = none ∧ (watching.port 0).tx.length ≤ 7 ∧
    (∀ j : Fin 48, j < 45 → (watching.watches.get 0).owed.get ((watching.watches.get 0).pointer + 1 + j) = false) ∧
    (watching.watches.get 0).owed.get ((watching.watches.get 0).pointer + 1 + 45) = true ∧
    ((asked watching .stop []).port 0).held.isSome = true ∧
    7 < ((outbound [] (List.replicate 8 1) false).port 0).tx.length ∧
    (∀ p, (idle.watches.get 0).owed.get p = false) := by decide +kernel

theorem witness_WaitingAndUnknownRequests :
    (∀ tag args, ¬ idle.holds 0 .stop tag args) ∧ State.reset.power = .inReset ∧ (idle.port 0).held = none ∧
    42 < ((outbound [] (List.replicate 43 1) false).port 0).tx.length ∧
    (idle.power ≠ .inReset ∧ ((asked idle .stop []).port 0).held = some [0x1A, 7] ∧
      ((asked idle .stop []).port 0).tx.length ≤ 42) ∧
    (idle.modPort 0 fun x => { x with held := some [0x7F, 7] }).dueRequest 0 = some (0x7F, 7, []) ∧
    (idle.modPort 0 fun x => { x with held := some [0x80, 7] }).dueRequest 0 = some (0x80, 7, []) ∧
    (∀ r : Request, r.code ≠ 0x7F) ∧ (∀ r : Request, r.code ≠ 0x80) := by
  refine ⟨fun tag args h => ?_, rfl, rfl, ?_, ?_, ?_, ?_, fun r => ?_, fun r => ?_⟩
  · have hd : idle.dueRequest 0 = none := by decide +kernel
    exact absurd (hd.symm.trans h) (by simp)
  iterate 4 decide +kernel
  all_goals cases r <;> decide

theorem witness_NotHolderThenBusy :
    ((asked idle .run []).holds 0 .run 7 [] ∧ ({ asked idle .run [] with holder := none } : State).holder ≠ some 0 ∧
      ({ asked idle .run [] with holder := none } : State).holds 0 .run 7 []) ∧
    ((asked reading .run []).holder = some 0 ∧ (asked reading .run []).power ≠ .running ∧
      (asked reading .run []).holds 0 .run 7 []) := by decide +kernel

theorem witness_OpenRequestBadArguments :
    ((asked idle .readRoster [48]).holds 0 .readRoster 7 [48] ∧ ¬ ∃ p : Pos, [(48 : Byte)] = [byteOf p.val]) ∧
    ((asked idle .readCar [12, 2]).holds 0 .readCar 7 [12, 2] ∧
      ¬ ∃ (c : CarId) (v : Fin 2), [(12 : Byte), 2] = [byteOf (c.val + 1), byteOf v.val]) ∧
    ((asked idle .readSegment [0, 12]).holds 0 .readSegment 7 [0, 12] ∧
      ¬ ∃ (g : SegId) (v : Fin 13), [(0 : Byte), 12] = [byteOf (g.val + 1), byteOf v.val]) ∧
    ((asked idle .readPlan [16]).holds 0 .readPlan 7 [16] ∧ ¬ ∃ i : Fin 16, [(16 : Byte)] = [byteOf i.val]) ∧
    ((asked idle .readGroup [0]).holds 0 .readGroup 7 [0] ∧ [(0 : Byte)] ≠ []) ∧
    ((asked idle .watch [0]).holds 0 .watch 7 [0] ∧ [(0 : Byte)].length ≠ 10) ∧
    (asked idle .noticeSet [16, 0, 0]).holds 0 .noticeSet 7 [16, 0, 0] ∧
    ∀ c : Fin 16, byteOf c.val ≠ 16 := by
  and_intros <;> decide +kernel

theorem witness_ReadsOfTables :
    (asked idle .readRoster [47]).holds 0 .readRoster 7 [byteOf (47 : Pos).val] ∧
    (asked idle .readColumn [0]).holds 0 .readColumn 7 [byteOf (0 : Pos).val] ∧
    (asked idle .readCar [12, 0]).holds 0 .readCar 7 [byteOf ((11 : CarId).val + 1), 0] ∧
    (asked idle .readCar [1, 1]).holds 0 .readCar 7 [byteOf ((0 : CarId).val + 1), 1] ∧
    (asked idle .readSegment [4, 0]).holds 0 .readSegment 7 [byteOf ((3 : SegId).val + 1), 0] ∧
    (asked idle .readSegment [1, 12]).holds 0 .readSegment 7 [byteOf ((0 : SegId).val + 1), byteOf ((11 : DropId).val + 1)] ∧
    (asked idle .readPlan [15]).holds 0 .readPlan 7 [byteOf (15 : Fin 16).val] ∧
    (asked idle .readLimits []).holds 0 .readLimits 7 [] := by
  and_intros <;> decide +kernel

theorem witness_ReadsOfRecords :
    ((asked (train .stopped) .readStop []).holds 0 .readStop 7 [] ∧
      (asked (train .stopped) .readStop []).stop.record = stopByteTaken.record ∧ stopByteTaken.record.isSome = true ∧
      (asked (train .stopped) .readStop []).stop.previous = none) ∧
    ((asked idle .readStop []).holds 0 .readStop 7 [] ∧ (asked idle .readStop []).stop.record = none ∧
      (after (.rearm 0) (asked (train .stopped) .rearm [])).stop.previous.isSome = true) ∧
    ((asked (train .dwell) .readGroup []).holds 0 .readGroup 7 [] ∧ (asked (train .dwell) .readGroup []).phase = .dwell) ∧
    ((asked idle .readGroup []).holds 0 .readGroup 7 [] ∧ (asked idle .readGroup []).phase ≠ .dwell) := by
  and_intros <;> decide +kernel

/-- Port 0 asks for its next notice with TRIP and RETAIN pending. -/
def twoNotices : State :=
  asked (State.raise idle .trip) .noticeNext []

theorem witness_NoticeNextChooses :
    (twoNotices.holds 0 .noticeNext 7 [] ∧ (twoNotices.notices.get 0).waiting.get Category.trip.code = true ∧
      ∀ k, (twoNotices.notices.get 0).waiting.get k = true →
        (twoNotices.notices.get 0).level.get Category.trip.code < (twoNotices.notices.get 0).level.get k ∨
        (twoNotices.notices.get 0).level.get Category.trip.code = (twoNotices.notices.get 0).level.get k ∧
          Category.trip.code ≤ k) ∧
    (let s := twoNotices.modNotices 0 fun n => { n with waiting := .fill 16 false };
      s.holds 0 .noticeNext 7 [] ∧ ∀ k, (s.notices.get 0).waiting.get k = false) := by decide +kernel

theorem witness_NoticeContents :
    idle.lastCreep = none ∧
    ({ idle with lastCreep := some { pos := 47, baseline := 0, height := 40000 } } : State).lastCreep
      = some { pos := 47, baseline := 0, height := 40000 } := by decide

theorem witness_NoticeSetEffect :
    (asked idle .noticeSet [16, 1, 3]).holds 0 .noticeSet 7 [16, 1, 3] ∧
    (asked idle .noticeSet [15, 1, 4]).holds 0 .noticeSet 7 [15, 1, 4] ∧ 15 < (16 : Byte).toNat ∧ 3 < (4 : Byte).toNat ∧
    (asked idle .noticeSet [15, 0, 3]).holds 0 .noticeSet 7 [byteOf (15 : Fin 16).val, 0, byteOf (3 : Fin 4).val] := by
  decide +kernel

theorem witness_WatchAndUnwatch :
    (1 ≤ 2000 ∧ 2000 ≤ 2000 ∧ 1 ≤ 60000 ∧ 60000 ≤ 60000 ∧
      (asked (train .idle) .watch [0xFF, 0xFF, 0xFF, 0xFF, 0xFF, 0xFF, 0x07, 0xD0, 0xEA, 0x60]).holds 0 .watch 7
        (positionSet (Table.fill 48 true) ++ be16 2000 ++ be16 60000)) ∧
    ((asked watching .unwatch []).holds 0 .unwatch 7 [] ∧
      ∃ p, ((asked watching .unwatch []).watches.get 0).watched.get p = true) ∧
    ((asked idle .unwatch []).holds 0 .unwatch 7 [] ∧
      ∀ p, ((asked idle .unwatch []).watches.get 0).watched.get p = false) := by decide +kernel

/-- Ports 0 and 1 each hold a CLAIM, tags 7 and 8, and command is free. -/
def twoClaims : State :=
  (idle.modPort 0 fun x => { x with held := some [0x18, 7] }).modPort 1 fun x => { x with held := some [0x18, 8] }

theorem witness_ClaimEffect :
    ((asked idle .claim [1]).holds 0 .claim 7 [1] ∧ [(1 : Byte)] ≠ []) ∧
    (twoClaims.holds 0 .claim 7 [] ∧ twoClaims.holder = none) ∧
    ((asked idle .claim []).holds 0 .claim 7 [] ∧ (asked idle .claim []).holder = some 0) ∧
    (({ twoClaims with holder := some 3 } : State).holds 0 .claim 7 [] ∧ (3 : PortId) ≠ 0) ∧
    (twoClaims.holds 1 .claim 8 [] ∧ (0 : PortId) < 1) := by decide +kernel

theorem witness_YieldAndLapse :
    ((asked (train .lifting) .yield []).holds 0 .yield 7 [] ∧
      (train .lifting).phase ∈ [Phase.approach, .lifting, .lowering, .dwell, .retracting]) ∧
    ((asked (train .holding) .yield [1]).holds 0 .yield 7 [1] ∧
      (train .holding).phase ∉ [Phase.approach, .lifting, .lowering, .dwell, .retracting]) ∧
    (({ asked idle .yield [] with holder := none } : State).holds 0 .yield 7 [] ∧
      ({ asked idle .yield [] with holder := none } : State).holder ≠ some 0) ∧
    ((asked (train .holding) .yield []).holds 0 .yield 7 [] ∧ (asked (train .holding) .yield []).holder = some 0) ∧
    ((asked idle .stop []).lapse = .running 2000 ∧
      (asked idle .stop []).phase ∉ [Phase.approach, .lifting, .lowering, .dwell, .retracting]) ∧
    ((asked (train .lifting) .stop []).lapse = .running 2000 ∧ (asked (train .lifting) .stop []).power = .running ∧
      (asked (train .lifting) .stop []).phase ∈ [Phase.approach, .lifting, .lowering, .dwell, .retracting]) := by
  decide +kernel

theorem witness_FirstStopEffect :
    (train .lifting).power = .running ∧ (train .lifting).phase ≠ .stopped ∧
    (asked (train .lifting) .stop []).holds 0 .stop 7 [] ∧ (train .lifting).stop.stopIn = .closed := by decide +kernel

theorem witness_FurtherAndEarlyStops :
    ((train .stopped).power = .running ∧ (train .stopped).phase = .stopped ∧
      ((train .stopped).stop.record.map fun r => r.cause) = some .stopByte ∧
      (asked (train .stopped) .stop [9]).holds 0 .stop 7 [9] ∧ (train .stopped).stop.stopIn = .closed) ∧
    (reading.power ≠ .running ∧ (asked reading .stop []).holds 0 .stop 7 [] ∧
      ({ reading with stop := { reading.stop with stopIn := .closed } } : State).stop.stopIn = .closed ∧
      reading.stop.stopIn = .opened) := by decide +kernel

/-- The stopped train with one column changed, and port 0 asking for REARM. -/
def rearming (p : Pos) (f : Column → Column) : State :=
  asked ((train .stopped).modCol p f) .rearm []

theorem witness_RearmRefusals :
    ((asked idle .rearm []).holds 0 .rearm 7 [] ∧ (asked idle .rearm []).phase ≠ .stopped) ∧
    ((asked (train .stopped) .rearm [1]).holds 0 .rearm 7 [1] ∧ (asked (train .stopped) .rearm [1]).holder = some 0 ∧
      (asked (train .stopped) .rearm [1]).power = .running ∧ (asked (train .stopped) .rearm [1]).phase = .stopped) ∧
    ((asked ((train .stopped).setStopIn .opened) .rearm []).holds 0 .rearm 7 [] ∧
      (asked ((train .stopped).setStopIn .opened) .rearm []).stop.stopIn = .opened) ∧
    (let s := rearming 0 fun c => { c with link := .lost };
      s.holds 0 .rearm 7 [] ∧ s.stop.stopIn = .closed ∧ s.validPos 0 = true ∧ (s.col 0).link ≠ .enrolled) ∧
    (let s := rearming 7 fun c => { c with flags := { c.flags with driveFault := true } };
      s.holds 0 .rearm 7 [] ∧ (∀ p, s.validPos p = true → ¬ (s.col p).link ≠ .enrolled) ∧ s.validPos 7 = true ∧
        (s.col 7).flags.driveFault = true ∧ ∀ x < (7 : Pos), ¬ (s.col x).flags.driveFault = true) ∧
    (let s := rearming 1 fun c => { c with load := some 9001 };
      s.holds 0 .rearm 7 [] ∧ (s.col 1).load = some 9001 ∧ (s.col 1).cap.rated = some 9000 ∧
        (∀ p, s.validPos p = true → ¬ (s.col p).flags.driveFault = true) ∧ (s.col 0).load = some 2000) ∧
    (let s := rearming 2 fun c => { c with load := some 499 };
      s.holds 0 .rearm 7 [] ∧ (s.col 2).load = some 499 ∧ s.limit .contactLoad = 500 ∧
        (s.stop.record.map fun r => r.phase) = some .lifting ∧ s.ref.setDown = false ∧
        (∀ x, s.validPos x = true → (s.col x).contact.isSome = true) ∧
        ∀ x, s.validPos x = true → x ≠ 2 → (s.col x).load = some 2000) := by
  and_intros <;> decide +kernel

theorem witness_RearmEffect :
    let s := asked (train .stopped) .rearm [];
    (s.holds 0 .rearm 7 [] ∧ s.holder = some 0 ∧ s.power = .running ∧ s.phase = .stopped ∧
      (s.stop.record.map fun r => r.phase) = some .lifting ∧ s.stop.stopIn = .closed ∧ s.validPositions ≠ [] ∧
      (∀ p, s.validPos p = true → (s.col p).link = .enrolled ∧ (s.col p).flags.driveFault = false ∧
        (s.col p).load = some 2000 ∧ (s.col p).cap.rated = some 9000) ∧
      (∀ p, s.validPos p = true → (s.col p).contact.isSome = true) ∧ s.limit .contactLoad ≤ 2000) ∧
    ((rearming 0 fun c => { c with contact := none }).col 0).contact = none ∧
    (∀ ph ∈ [Phase.aligned, .retracting, .idle],
      ((s.stop.record.map fun r => { r with phase := ph }).map fun r => r.phase) = some ph) := by decide +kernel

theorem witness_MapEffect :
    (let s := asked (train .idle) .map [8, 1, 8];
      s.rosterWell ∧ s.holder = some 0 ∧ s.phase = .idle ∧
        s.holds 0 .map 7 [byteOf (8 : Pos).val, byteOf ((0 : SegId).val + 1), byteOf ((7 : DropId).val + 1)] ∧
        s.entry 7 = some ⟨0, 7, some 0x00417A26⟩ ∧ (7 : Pos) ≠ 8) ∧
    (let s := asked (train .idle) .map [0, 1, 1, 0, 0, 0, 9];
      s.rosterWell ∧ s.entry 0 = some ⟨0, 0, some 0x00417A26⟩ ∧ s.holds 0 .map 7 ([byteOf (0 : Pos).val,
        byteOf ((0 : SegId).val + 1), byteOf ((0 : DropId).val + 1)] ++ be32 (9 : BitVec 32).toNat)) ∧
    (let s := asked (train .idle) .map [0, 4, 12];
      s.rosterWell ∧ (∀ x, s.entry x ≠ some ⟨3, 11, none⟩) ∧ (s.drop 0 0).link = .enrolled ∧ (s.col 0).cls ≠ .lag ∧
        (s.col 0).mark = false) ∧
    ((trainWith .idle .lost).rosterWell ∧ ((trainWith .idle .lost).drop 0 0).link = .lost) ∧
    (let s := asked idle .map [0, 4, 12];
      s.power = .running ∧ s.rosterWell ∧ (s.col 0).link = .absent ∧ (s.drop 3 11).link = .absent ∧ s.entry 0 = none) := by
  decide +kernel

theorem witness_UnmapEffect :
    (let s := asked (train .idle) .unmap [0];
      s.rosterWell ∧ s.holder = some 0 ∧ s.phase = .idle ∧ s.holds 0 .unmap 7 [byteOf (0 : Pos).val] ∧
        s.entry 0 = some ⟨0, 0, some 0x00417A26⟩ ∧ (s.drop 0 0).link = .enrolled) ∧
    (asked (train .idle) .unmap [47]).entry 47 = none ∧ (asked (train .idle) .unmap [47]).holds 0 .unmap 7 [47] ∧
    ((trainWith .idle .lost).drop 0 0).link = .lost ∧ ((trainWith .idle .ready).drop 0 0).link = .ready ∧
    ((train .idle).col 0).link ≠ .absent ∧
    ((trainWith .idle .absent).col 0).link = .absent ∧ ((trainWith .idle .absent).drop 0 0).link = .absent := by
  decide +kernel

theorem witness_LinkEffect :
    (asked idle .link [12, 1]).holds 0 .link 7 [12, 1] ∧ 11 < (12 : Byte).toNat ∧
    (asked idle .link [0, 1]).holds 0 .link 7 [0, 1] ∧
    (asked idle .link [11, 1]).holder = some 0 ∧ (asked idle .link [11, 1]).phase = .idle ∧
    (asked idle .link [11, 1]).holds 0 .link 7 [byteOf ((10 : JointId).val + 1), 1] := by decide +kernel

theorem witness_ConfirmEffect :
    (let s := asked idle .confirm [];
      s.rosterWell ∧ s.mirrored ∧ s.holder = some 0 ∧ s.phase = .idle ∧ s.holds 0 .confirm 7 [] ∧
        ∀ p, s.entry p = none) ∧
    (let s := asked (trainWith .idle .ready) .confirm [];
      s.rosterWell ∧ s.mirrored ∧ s.holds 0 .confirm 7 [] ∧ s.entry 0 ≠ none ∧
        (∀ p : Pos, p.val < 8 → s.entry p = some ⟨0, Fin.ofNat 12 p.val, some 0x00417A26⟩) ∧
        ∀ p : Pos, 8 ≤ p.val → s.entry p = none ∧ s.carPresent (carOf p) = false) ∧
    (let s := after (.unmap 0) (asked (trainWith .idle .ready) .unmap [3]);
      s.rosterWell ∧ s.mirrored ∧ s.entry 3 = none ∧ s.carPresent (carOf 3) = true) ∧
    (let s := after (.map 0) (asked (trainWith .idle .ready) .map [0, 1, 1, 0, 0, 0, 1]);
      s.rosterWell ∧ s.mirrored ∧ s.entry 0 = some ⟨0, 0, some 1⟩ ∧ (s.drop 0 0).cap.serial = some 0x00417A26) ∧
    ((trainWith .idle .ready).power = .running ∧ ((train .idle).drop 0 0).link ≠ .ready) ∧
    (trainWith .idle .lost).mirrored ∧ ((trainWith .idle .lost).drop 0 0).link = .lost := by
  and_intros <;> decide +kernel

theorem witness_WrongPhaseThenBadArgument :
    ((asked (train .lifting) .map []).holds 0 .map 7 [] ∧ (asked (train .lifting) .map []).holder = some 0 ∧
      (train .lifting).phase ∉ [Phase.idle]) ∧
    ((asked idle .unmap [48]).holds 0 .unmap 7 [48] ∧ idle.phase ∈ [Phase.idle] ∧ ∀ p : Pos, byteOf p.val ≠ 48) ∧
    ((asked idle .link [12, 1]).holds 0 .link 7 [12, 1] ∧ ∀ k : JointId, byteOf (k.val + 1) ≠ 12) ∧
    ((asked (train .holding) .jog [1, 3, 0, 1]).holds 0 .jog 7 [1, 3, 0, 1] ∧ (train .holding).power = .running ∧
      (train .holding).phase ∈ [Phase.holding] ∧ (train .holding).carPresent 2 = false) ∧
    ((asked idle .planLeg [1, 0, 0, 0, 0, 0, 0, 0]).holds 0 .planLeg 7 [1, 0, 0, 0, 0, 0, 0, 0] ∧
      idle.plan.count < 1) ∧
    ((asked (train .idle) .planCut [2]).holds 0 .planCut 7 [2] ∧ (train .idle).plan.count < 2) ∧
    ((asked idle .limitSet [17, 0, 0]).holds 0 .limitSet 7 [17, 0, 0] ∧ ∀ i : Fin 17, byteOf i.val ≠ 17) ∧
    ((asked (train .aligned) .run [0]).holds 0 .run 7 [0] ∧
      (train .aligned).phase ∈ [Phase.aligned, .holding, .lifting, .lowering]) ∧
    ((asked (train .idle) .run []).holds 0 .run 7 [] ∧
      (train .idle).phase ∉ [Phase.aligned, .holding, .lifting, .lowering]) := by
  and_intros <;> decide +kernel

theorem witness_ApproachAndRetract :
    (let s := asked (train .idle) .approach [];
      s.holder = some 0 ∧ s.power = .running ∧ s.holds 0 .approach 7 [] ∧ s.phase = .idle ∧
        (∀ g, (s.seg g).echo = .none) ∧ s.roster.confirmed = true ∧
        (∀ p, ¬ (s.validPos p = true ∧ (s.col p).link ≠ .enrolled)) ∧ s.stop.stopIn = .closed) ∧
    (let s := asked ((train .idle).setStopIn .opened) .approach [];
      s.holds 0 .approach 7 [] ∧ s.stop.stopIn = .opened ∧ s.roster.confirmed = true) ∧
    (let s := asked (trainWith .idle .ready) .approach [];
      s.holds 0 .approach 7 [] ∧ s.validPos 0 = true ∧ (s.col 0).link ≠ .enrolled ∧ s.roster.confirmed = true) ∧
    ((asked idle .approach []).roster.confirmed = false ∧ ∀ g, ((asked idle .approach []).seg g).echo = .none) ∧
    ((asked (idle.modSeg 3 fun sg => { sg with echo := .waiting 0 }) .approach []).seg 3).echo ≠ .none ∧
    ((asked (train .landed) .retract []).holds 0 .retract 7 [] ∧ (train .landed).phase = .landed) := by
  and_intros <;> decide +kernel

/-- RUN of the plan leg to 600, SETDOWN from a height of 500, and a next leg from DWELL and within LIFTING; the ceiling is 36,000
less 1,000, the slowest drive 200. -/
theorem witness_LegStart :
    ((asked (train .aligned) .run []).holds 0 .run 7 [] ∧ (asked (train .aligned) .run []).phase = .aligned ∧
      (train .aligned).plan.index < (train .aligned).plan.count) ∧
    ((asked (train .holding) .setdown []).holds 0 .setdown 7 [] ∧ (asked (train .holding) .setdown []).phase = .holding) ∧
    (∀ ph ∈ [Phase.holding, .dwell, .lifting], (train ph).power = .running ∧ (train ph).validPos 0 = true ∧
      (∀ p, (train ph).validPos p = true → ((train ph).col p).cap = drive ∧
        ((train ph).col p).contact = some 1000 ∧ ((train ph).col p).offset = 0) ∧
      (train ph).plan.leg (train ph).plan.index = { target := 600, speed := 100, dwell := 5, continues := false } ∧
      (train ph).ref.h < min 600 35000) ∧
    ((train .dwell).phase ≠ .lifting ∧ (train .lifting).phase = .lifting) ∧
    (let s : State := { asked (train .holding) .run [] with plan := Plan.initial };
      s.holds 0 .run 7 [] ∧ s.plan.count ≤ s.plan.index) ∧
    (let s : State := { asked (train .aligned) .setdown [] with ref := Reference.initial };
      s.holds 0 .setdown 7 [] ∧ min 0 35000 = s.ref.h ∧ s.outCount = 0) := by decide +kernel

/-- The train in LIFTING with the reference at its target. -/
def arrived : State :=
  { train .lifting with
    ref := { (train .lifting).ref with h := 600, fine := 60000, arrived := true } }

theorem witness_LegCompletion :
    (arrived.power = .running ∧ arrived.phase = .lifting ∧ arrived.ref.arrived = true ∧ arrived.outCount = 0 ∧
      arrived.ref.setDown = false ∧ arrived.pausePending = false ∧ 0 < arrived.ref.dwell) ∧
    ({ arrived with pausePending := true } : State).pausePending = true ∧
    ({ arrived with ref := { arrived.ref with setDown := true } } : State).ref.setDown = true ∧
    (let s : State := { arrived with ref := { arrived.ref with dwell := 0 } };
      s.ref.dwell = 0 ∧ s.ref.continues = false ∧ s.plan.count ≤ s.plan.index + 1) ∧
    (let s : State := { arrived with ref := { arrived.ref with dwell := 0, continues := true }
                                     plan := { arrived.plan with count := 2 } };
      s.ref.dwell = 0 ∧ s.ref.continues = true ∧ s.plan.index + 1 < s.plan.count) ∧
    ¬ ((train .lifting).ref.arrived = true) := by decide +kernel

theorem witness_PauseAndDwell :
    (let s := asked (train .lifting) .run [];
      s.power = .running ∧ s.holder = some 0 ∧ s.phase = .lifting ∧ s.holds 0 .run 7 []) ∧
    ((asked (train .lowering) .pause []).phase = .lowering ∧ (asked (train .lowering) .pause []).holds 0 .pause 7 []) ∧
    ((asked (train .dwell) .pause []).phase = .dwell ∧ (asked (train .dwell) .pause []).holds 0 .pause 7 []) ∧
    ((train .dwell).ref.dwellTimer = .running 5000 ∧ (train .dwell).ref.continues = false) ∧
    (let s : State := { train .dwell with ref := { (train .dwell).ref with continues := true } };
      s.ref.continues = true ∧ s.plan.index < s.plan.count) ∧
    (train .holding).phase ≠ .dwell := by decide +kernel

/-- Rising from rest, reaching the target, waiting there, and a pause at rest. -/
theorem witness_ReferenceStep :
    (let s := train .lifting;
      s.power = .running ∧ s.phase = .lifting ∧ s.ref.stepTimer = .running 10 ∧ s.ref.target = some 600 ∧
        s.ref.speed = some 100 ∧ s.holdCount = 0 ∧ s.pausePending = false ∧ s.ref.vEff ≤ 100 ∧
        5 = min 100 (s.ref.vEff + s.limit .ramp) ∧ s.ref.dir = .up ∧ s.ref.arrived = false ∧
        ¬ 100 * (600 : Int) ≤ s.ref.fine + 5) ∧
    (let s : State := { train .lowering with ref := { (train .lowering).ref with vEff := 100, fine := 60100 } };
      s.ref.dir = .down ∧ 100 ≤ s.ref.vEff ∧ (s.ref.fine : Int) - 100 ≤ 100 * 600 ∧ s.ref.arrived = false) ∧
    (arrived.ref.arrived = true ∧ arrived.pausePending = false) ∧
    ({ arrived with pausePending := true } : State).ref.vEff = 0 ∧
    (train .holding).ref.stepTimer = .stopped := by
  and_intros <;> decide +kernel

/-- Section 7.7's first jog: the request 90 with a lag of 2 the other way is held at 52 by the lag bound alone, since 51 and 52
are allowed and 53 is not; a request of 3 is taken whole and leaves no jog flag. -/
theorem witness_JogEffect :
    (let s := asked ((train .holding).modCol 5 fun c => { c with rel := some 502 }) .jog [0, 5, 0, 90];
      s.holder = some 0 ∧ s.power = .running ∧ s.phase = .holding ∧ s.validPos 5 = true ∧
        s.holds 0 .jog 7 [0, byteOf (5 : Pos).val, 0, 90] ∧ s.jogAllowed [5] 52 = true ∧
        (∀ n : Fin 91, 52 < n.val → s.jogAllowed [5] n.val = false) ∧ s.limit .wDone < 50) ∧
    (let s := asked (train .holding) .jog [0, 0, 0, 3];
      s.holds 0 .jog 7 [0, byteOf (0 : Pos).val, 0, 3] ∧ s.jogAllowed [0] 3 = true ∧ int16 0 3 = 3 ∧
        ¬ s.limit .wDone < 3) ∧
    (let s := asked (train .holding) .jog [1, 1, 0xFF, 0x9C];
      s.carPresent 0 = true ∧ s.holds 0 .jog 7 [1, byteOf ((0 : CarId).val + 1), 0xFF, 0x9C] ∧ int16 0xFF 0x9C = -100) ∧
    (let s := asked (train .holding) .jog [0, 0, 0, 0];
      s.holds 0 .jog 7 [0, byteOf (0 : Pos).val, 0, 0] ∧ int16 0 0 = 0) := by
  and_intros <;> decide +kernel

theorem witness_PlanEdits :
    (let s := asked (train .holding) .planLeg [1, 0xFF, 0xFF, 0, 9, 0, 0, 1];
      s.holder = some 0 ∧ s.power = .running ∧ s.phase ∉ [Phase.lifting, .lowering, .dwell] ∧
        (1 : Fin 16).val ≤ s.plan.count ∧ s.holds 0 .planLeg 7
          (byteOf (1 : Fin 16).val :: be16 65535 ++ be16 9 ++ be16 0 ++ [1])) ∧
    ((asked (train .holding) .planCut [0]).holds 0 .planCut 7 [0] ∧ (0 : Byte).toNat < (train .holding).plan.count) ∧
    ((asked (train .holding) .planCut [1]).holds 0 .planCut 7 [1] ∧ (1 : Byte).toNat = (train .holding).plan.count) := by
  decide +kernel

theorem witness_LimitSetEffect :
    (let s := asked (train .holding) .limitSet [0, 0, 99];
      s.holder = some 0 ∧ s.power = .running ∧
        s.phase ∉ [Phase.approach, .lifting, .lowering, .dwell, .retracting] ∧
        s.holds 0 .limitSet 7 (byteOf (0 : Fin 17).val :: be16 99) ∧
        99 = max (limitRanges.get 0).1 (min 99 (limitRanges.get 0).2) ∧ 99 ≠ s.limits.get 0 ∧
        (s.limits.set 0 99).get 1 ≤ (s.limits.set 0 99).get 0 ∧ (s.limits.set 0 99).get 0 < (s.limits.set 0 99).get 2) ∧
    (let s := asked idle .limitSet [0, 0, 100];
      s.holds 0 .limitSet 7 (byteOf (0 : Fin 17).val :: be16 100) ∧
        ¬ (s.limits.set 0 100).get 0 < (s.limits.set 0 100).get 2) ∧
    (let s := asked idle .limitSet [16, 0, 45];
      s.holds 0 .limitSet 7 (byteOf (16 : Fin 17).val :: be16 45) ∧ 45 = s.limits.get 16) := by decide +kernel

theorem witness_PollTimers :
    (let s := idle.modSeg 0 fun sg => { sg with pollTimer := .running 5 };
      s.power = .running ∧ (s.seg 0).pollTimer = .running 5 ∧ (s.seg 0).echo = .none ∧ (s.seg 0).cycle = none) ∧
    ((idle.modSeg 0 fun sg => { sg with cycle := some .fresh }).seg 0).cycle ≠ none ∧
    ((idle.modSeg 0 fun sg => { sg with echo := .waiting 2 }).seg 0).echo ≠ .none ∧
    ((idle.modSeg 0 fun sg => { sg with quietTimer := .running 2000 }).seg 0).quietTimer = .running 2000 ∧
    (idle.seg 0).inFlight = none ∧ ((inExchange idle 0 .poll).seg 0).inFlight ≠ none ∧
    (∀ owed, let sg : Segment := { Segment.initial with
        cycle := some { reached := 12, exchanged := [], probed := true }, startOwed := owed }
      sg.cycle ≠ none ∧ sg.nextExchange = none ∧ sg.startOwed = owed) ∧
    ({ Segment.initial with cycle := some .fresh } : Segment).nextExchange ≠ none := by decide +kernel

/-- The visits of the train's line, from its first drop, to its last, and the probe that follows with the pointer at 12. -/
theorem witness_CommandAndAllstop :
    (let s := (train .lifting).modSeg 0 fun sg => { sg with cycle := some { reached := 0, exchanged := [], probed := false } };
      s.power = .running ∧ (s.seg 0).cycle = some { reached := 0, exchanged := [], probed := false } ∧
        (s.seg 0).inFlight = none ∧ (s.seg 0).allstopOwed = false ∧ (s.seg 0).echo = .none ∧
        0 ≤ (0 : DropId).val ∧ (s.drop 0 0).link ≠ .absent ∧ ((s.seg 0).discovery : DropId) = 11) ∧
    ((∀ d : DropId, ¬ (8 ≤ d.val ∧ ((train .lifting).drop 0 d).link ≠ .absent)) ∧
      (((train .lifting).drop 0 ((11 : DropId) + 8 + 1)).link = .absent ∧ (11 : DropId) + 8 + 1 ∉ ([] : List DropId)) ∧
      ∀ j < (8 : Fin 12), ((train .lifting).drop 0 ((11 : DropId) + j + 1)).link ≠ .absent) ∧
    ((train .lifting).seg 0).cycle = none ∧
    (let s := idle.modSeg 1 fun sg => { sg with allstopOwed := true };
      (s.seg 1).allstopOwed = true ∧ (s.seg 1).inFlight = none) ∧
    (idle.seg 1).allstopOwed = false := by
  and_intros <;> decide +kernel

/-- A drop that no position names, in a link state with a requested page, in an exchange. -/
def unmappedDrop (l : LinkState) (page : Fin 4) : State :=
  (idle.modDrop 3 11 fun d => { d with link := l, page := page }).modSeg 3 fun sg =>
    { sg with inFlight := some { drop := 11, kind := .poll, toggle := true, page := page } }

theorem witness_UnmappedReply :
    (∀ l ∈ [LinkState.absent, .settling, .paging, .ready, .enrolled, .lost, .refused], ∀ page : Fin 4,
      (unmappedDrop l page).power = .running ∧ (unmappedDrop l page).mappedAt 3 11 = none ∧
        ((unmappedDrop l page).seg 3).inFlight = some { drop := 11, kind := .poll, toggle := true, page := page } ∧
        ((unmappedDrop l page).drop 3 11).link = l ∧ ((unmappedDrop l page).drop 3 11).page = page) ∧
    ([] : List Byte).length ≠ 14 ∧ (999 : BitVec 32).toNat % 65536 < 1000 ∧ (9 * 65536 : BitVec 32).toNat / 65536 < 10 := by
  decide +kernel

/-- The train with drop 6 in an exchange. -/
def reporting (ph : Phase) : State :=
  inExchange (train ph) 5 .poll

/-- The POLL exchange with drop 6. -/
def poll6 : Exchange :=
  { drop := 5, kind := .poll, toggle := true, page := 3 }

theorem reporting_hears (ph : Phase) (h l : Nat) (hh : h < 65536) (hl : l < 65536) :
    (reporting ph).hears 0 poll6 (report h l) 5 :=
  ⟨by cases ph <;> decide +kernel, by cases ph <;> decide +kernel, by cases ph <;> decide +kernel, hh, hl⟩

theorem reporting_follows (ph : Phase) (hc : ph.hasContacts = true) (h l : Nat) (hh : h < 65536) (hl : l < 65536) :
    (reporting ph).follows 0 poll6 (report h l) 5 1000 200 9000 := by
  refine ⟨reporting_hears ph h l hh hl, ?_, ?_, ?_, ?_, rfl⟩ <;> cases ph <;> revert hc <;> decide +kernel

/-- A report of height 1,488 at a reference of 500 gives a lag of 12, within every bound, in each tracked phase. -/
theorem steady_no_breach (ph : Phase) (ht : ph.isTracked = true) :
    ∀ c v k, ¬ (reporting ph).breaches 5 (report 1488 2000) 1000 9000 c v k := by
  have hr : ∀ ph ∈ [Phase.lifting, .lowering, .dwell, .holding], ∀ y : Pos, y.val < 8 →
      (reporting ph).relWith 5 488 y = some (if y = 5 then 488 else 500) := by decide +kernel
  have hm : ph ∈ [Phase.lifting, .lowering, .dwell, .holding] := by cases ph <;> simp_all [Phase.isTracked]
  have hl : ∀ ph ∈ [Phase.lifting, .lowering, .dwell, .holding], (reporting ph).limit .lTrip = 100 ∧
      (reporting ph).limit .tCar = 120 ∧ (reporting ph).limit .aStep = 80 ∧ (reporting ph).limit .contactLoad = 500 ∧
      (reporting ph).ref.h = 500 ∧ ((reporting ph).col 5).offset = 0 := by decide +kernel
  obtain ⟨h1, h2, h3, h4, h5, h6⟩ := hl ph hm
  have rel : ((min (report 1488 2000).height 40000 : Nat) : Int) - (1000 : Nat) = 488 := by decide
  intro c v k hb
  cases c <;> simp only [State.breaches, rel, h1, h2, h3, h4, h5, h6] at hb
  · exact absurd hb.2.2 (by decide)
  · obtain ⟨n, ⟨a, b, x, y, e1, e2, e3, e4, e5⟩, hn, -⟩ := hb
    rw [hr ph hm _ (by decide)] at e1 e2 e3 e4
    simp only [Option.some.injEq] at e1 e2 e3 e4
    subst e1 e2 e3 e4
    have : (n : Int) = 12 := e5.trans (by decide)
    omega
  · obtain ⟨j, n, hj, -, ⟨a, b, x, y, e1, e2, e3, e4, e5⟩, hn, -⟩ := hb
    have : j = 0 := by simpa using (hj.symm.trans (by decide : jointOf 5 = some 0))
    subst this
    rw [hr ph hm _ (by decide)] at e1 e2 e3 e4
    simp only [Option.some.injEq] at e1 e2 e3 e4
    subst e1 e2 e3 e4
    have : (n : Int) = 12 := e5.trans (by decide)
    omega
  · exact absurd hb.2.2 (by decide)
  · exact absurd hb.2.2.1 (by decide)
  · simp [report, DriveFlags.clear] at hb

/-- Segment 1 in quiet mode, with a creep baseline of 1,000 at position 5. -/
def quietly (s : State) : State :=
  (s.modSeg 0 fun sg => { sg with mode := .quiet }).modCol 5 fun c => { c with creep := some 1000 }

theorem witness_MappedReport :
    (∀ ph h l, h < 65536 → l < 65536 → (reporting ph).hears 0 poll6 (report h l) 5) ∧
    (∀ l ∈ [LinkState.absent, .settling, .paging, .ready, .enrolled, .lost, .refused], ∀ ph ∈ [Phase.idle, .stopped],
      let s := inExchange (trainWith ph l) 5 .poll;
      s.power = .running ∧ s.mappedAt 0 5 = some 5 ∧ (s.col 5).link = (s.drop 0 5).link ∧ (s.col 5).cap = (s.drop 0 5).cap ∧
        (s.drop 0 5).link = l) ∧
    (∀ ph ∈ [Phase.idle, .aligned, .holding, .landed, .stopped], let s := quietly (reporting ph);
      (s.seg 0).mode = .quiet ∧ (s.col 5).creep = some 1000 ∧ s.phase.isMotion = false ∧ s.creeps 0 5 1011 = true ∧
        s.creeps 0 5 1010 = false) ∧
    ((reporting .lowering).phase ≠ .idle ∧ (reporting .lowering).phase ≠ .stopped) :=
  ⟨reporting_hears, by decide +kernel, by decide +kernel, by decide +kernel⟩

/-- A report of height 1,488 gives a lag of 12, on the way and with the reference at its target. -/
theorem witness_TrackedArrival :
    (∀ ph ∈ [Phase.lifting, .lowering], (reporting ph).countsWell ∧ (reporting ph).phase = ph ∧
      (reporting ph).follows 0 poll6 (report 1488 2000) 5 1000 200 9000 ∧
      ∀ c v k, ¬ (reporting ph).breaches 5 (report 1488 2000) 1000 9000 c v k) ∧
    (reporting .lifting).ref.arrived = false ∧ arrived.ref.arrived = true := by
  refine ⟨fun ph h => ⟨?_, ?_, reporting_follows ph ?_ _ _ (by decide) (by decide), steady_no_breach ph ?_⟩, ?_, ?_⟩
  case refine_5 => decide +kernel
  case refine_6 => decide +kernel
  all_goals revert ph; decide +kernel

theorem witness_HeldArrival :
    (∀ ph ∈ [Phase.dwell, .holding], (reporting ph).countsWell ∧ (reporting ph).phase = ph ∧
      (reporting ph).follows 0 poll6 (report 1488 2000) 5 1000 200 9000 ∧
      ∀ c v k, ¬ (reporting ph).breaches 5 (report 1488 2000) 1000 9000 c v k) ∧
    (let s := (reporting .holding).modCol 5 fun c => { c with jog := true };
      s.countsWell ∧ s.phase = .holding ∧ (s.col 5).jog = true ∧ s.limit .wDone = 4 ∧
        ((s.ref.h : Int) + (s.col 5).offset - (1496 - 1000)).natAbs = 4) := by
  refine ⟨fun ph h => ⟨?_, ?_, reporting_follows ph ?_ _ _ (by decide) (by decide), steady_no_breach ph ?_⟩, ?_⟩
  case refine_5 => decide +kernel
  all_goals revert ph; decide +kernel

/-- A report of 1,399 is 101 below the reference, the first check of all; each other check has a report that fails it. -/
theorem witness_BreachStops :
    ((reporting .lifting).follows 0 poll6 (report 1399 2000) 5 1000 200 9000 ∧
      (reporting .lifting).phase ∈ [Phase.lifting, .lowering, .dwell, .holding] ∧
      (reporting .lifting).breaches 5 (report 1399 2000) 1000 9000 .lag 101 1 ∧
      ∀ c v k, (reporting .lifting).breaches 5 (report 1399 2000) 1000 9000 c v k → StopCause.lag.code ≤ c.code) ∧
    ((reporting .dwell).modCol 4 fun c => { c with rel := some 609 }).breaches 5 (report 1488 2000) 1000 9000 .carSpread 121 1 ∧
    (((reporting .holding).modCol 2 fun c => { c with rel := some 581 }).modCol 3 fun c =>
      { c with rel := some 580 }).breaches 5 (report 1500 2000) 1000 9000 .articulation 161 0 ∧
    (reporting .lowering).breaches 5 (report 1500 9001) 1000 9000 .overload 9001 1 ∧
    (reporting .dwell).breaches 5 (report 1500 499) 1000 9000 .loadLost 499 1 ∧
    (reporting .lifting).breaches 5 { report 1500 2000 with flags := { DriveFlags.clear with upperLimit := true } } 1000 9000
      .driveLimit 1500 1 := by
  refine ⟨⟨reporting_follows _ rfl _ _ (by decide) (by decide), by decide, ?_, ?_⟩, ?_, ?_, ?_, ?_, ?_⟩
  · exact ⟨by decide +kernel, by decide, by decide +kernel⟩
  · intro c v k h
    cases c <;> first | exact h.elim | decide
  · exact ⟨121, ⟨609, 488, 500, 500, by decide +kernel, by decide +kernel, by decide +kernel, by decide +kernel, by decide⟩,
      by decide +kernel, rfl, by decide⟩
  · exact ⟨0, 161, by decide, by decide +kernel, ⟨581, 580, 500, 500, by decide +kernel, by decide +kernel, by decide +kernel,
      by decide +kernel, by decide⟩, by decide +kernel, rfl, by decide⟩
  · exact ⟨rfl, by decide, by decide⟩
  · exact ⟨rfl, by decide, by decide +kernel, .inr (.inl (by decide))⟩
  · exact ⟨rfl, by decide, .inl ⟨by decide, rfl⟩⟩

theorem witness_RestArrival :
    (∀ ph ∈ [Phase.aligned, .landed, .stopped], (reporting ph).phase = ph ∧
      ((reporting ph).col 5).cap.rated = some 9000 ∧ ((reporting ph).stop.record.isSome = true ↔ ph = .stopped)) ∧
    (∀ ph l, l < 65536 → (reporting ph).hears 0 poll6 (report 1000 l) 5) ∧
    (report 1000 9001).flags.driveFault = false ∧ 9000 < min 9001 60000 ∧ ¬ 9000 < min 9000 60000 :=
  ⟨by decide +kernel, fun ph l h => reporting_hears ph 1000 l (by decide) h, rfl, by decide, by decide⟩

/-- Four loads of 2,000 are a share of 25 each; a report of 200 makes a total of 6,200 and a share of 3, and loads of 499 stay
below the total that is evaluated. -/
theorem witness_LoadShares :
    (∀ ph ∈ [Phase.lifting, .dwell, .holding], ∀ l < 65536, (reporting ph).follows 0 poll6 (report 1500 l) 5 1000 200 9000) ∧
    (let s := reporting .lifting;
      carOf 5 = 1 ∧ (s.col (posOf 1 0)).load = some 2000 ∧ (s.col (posOf 1 2)).load = some 2000 ∧
        (s.col (posOf 1 3)).load = some 2000 ∧ 4 * s.limit .contactLoad ≤ 2000 + 200 + 2000 + 2000 ∧
        200 * 100 / 6200 < s.limit .shareMin ∧ (s.col 5).share = false) ∧
    499 + 499 + 499 + 499 < 4 * (reporting .lifting).limit .contactLoad ∧
    ((((reporting .lifting).modCol 4 fun c => { c with load := none }).col 4).load = none ∧
      (((reporting .lifting).modCol 5 fun c => { c with share := true }).col 5).share = true) := by
  refine ⟨fun ph h l hl => reporting_follows ph ?_ _ _ (by decide) hl, ?_, ?_, ?_⟩
  · revert ph; decide
  all_goals decide +kernel

theorem witness_ContactAndParking :
    (let s := reporting .approach;
      s.power = .running ∧ s.mappedAt 0 5 = some 5 ∧ (s.drop 0 5).link = .enrolled ∧ (s.col 5).cap = drive ∧
        s.phase = .approach ∧ (s.col 5).contact = none ∧ s.limit .contactLoad ≤ 500 ∧ 499 < s.limit .contactLoad ∧
        s.validPos 4 = true ∧ (s.col 4).contact.isSome = false) ∧
    (let s : State := { reporting .approach with
        cols := .build fun p => { (reporting .approach).col p with contact := if p = 5 then none else some 1000 } };
      (s.col 5).contact = none ∧ ∀ y, y ≠ 5 → s.validPos y = true → (s.col y).contact.isSome = true) ∧
    (let s := reporting .retracting;
      s.phase = .retracting ∧ (s.col 5).contact = some 1000 ∧ (s.col 5).parked = false ∧
        ((600 : Nat) : Int) ≤ ((1000 : Nat) : Int) - s.limit .retractDistance ∧ 199 < s.limit .releaseLoad ∧
        ¬ ((601 : Nat) : Int) ≤ ((1000 : Nat) : Int) - s.limit .retractDistance ∧ (s.col 4).parked = false) ∧
    (let s : State := { reporting .retracting with
        cols := .build fun p => { (reporting .retracting).col p with parked := p ≠ 5 } };
      (s.col 5).parked = false ∧ ∀ y, y ≠ 5 → s.validPos y = true → (s.col y).parked = true) ∧
    (((reporting .retracting).modCol 5 fun c => { c with parked := true }).col 5).parked = true := by
  and_intros <;> decide +kernel

/-- An exchange of a kind with drop 6 in a link state, after a number of misses. -/
def missing (kind : ExchangeKind) (l : LinkState) (miss : Nat) : State :=
  inExchange ((train .holding).modDrop 0 5 fun d => { d with link := l, miss := miss }) 5 kind

theorem witness_MissesAndSettling :
    (idle.seg 0).inFlight = none ∧
    (∀ l ∈ [LinkState.absent, .settling, .paging, .ready, .enrolled, .lost, .refused], ∀ n : Fin 3,
      (missing .poll l n.val).power = .running ∧ ((missing .poll l n.val).drop 0 5).link = l ∧
        ((missing .poll l n.val).drop 0 5).miss = n.val ∧
        ((missing .poll l n.val).seg 0).inFlight = some { drop := 5, kind := .poll, toggle := true, page := 3 }) ∧
    ((missing .probe .absent 0).seg 0).inFlight = some { drop := 5, kind := .probe, toggle := true, page := 3 } ∧
    (missing .poll .enrolled 2).mappedAt 0 5 = some 5 ∧ (missing .poll .enrolled 2).phase = .holding ∧
    (∀ ph, let s := inExchange ((train ph).modDrop 0 5 fun d => { d with miss := 2 }) 5 .poll;
      s.phase = ph ∧ (s.drop 0 5).link = .enrolled ∧ (s.drop 0 5).miss = 2 ∧ s.mappedAt 0 5 = some 5) ∧
    (let s := idle.modDrop 0 11 fun d => { d with link := .settling, settle := .running 500 };
      (s.drop 0 11).link = .settling ∧ (s.drop 0 11).settle = .running 500) ∧
    (idle.drop 0 11).link ≠ .settling := by
  and_intros <;> first | decide +kernel | (intro ph; cases ph <;> decide +kernel)

theorem witness_EchoTestRuns :
    (let s := asked idle .echo [4, 2];
      s.power = .running ∧ s.holder = some 0 ∧ s.holds 0 .echo 7 [byteOf ((3 : SegId).val + 1), byteOf (2 : Fin 3).val] ∧
        s.phase = .idle ∧ ∀ z, (s.seg z).echo = .none) ∧
    ((asked idle .echo [4, 2]).seg 3).inFlight = none ∧ ((asked idle .echo [4, 2]).seg 3).allstopOwed = false ∧
    (let s := (asked idle .echo [4, 2]).modSeg 3 fun sg => { sg with inFlight := some poll6 };
      s.holds 0 .echo 7 [4, 2] ∧ (∀ z, (s.seg z).echo = .none) ∧ (s.seg 3).inFlight ≠ none) ∧
    ((asked (train .holding) .echo [1, 0]).phase ≠ .idle ∧ ((asked (train .holding) .echo [1, 0]).drop 0 0).link = .enrolled ∧
      (asked (train .holding) .echo [1, 0]).holds 0 .echo 7 [1, 0]) ∧
    ((asked (idle.modSeg 0 fun sg => { sg with echo := .waiting 0 }) .echo [4, 2]).seg 0).echo ≠ .none ∧
    ((asked idle .echo [4, 3]).holds 0 .echo 7 [4, 3] ∧
      ¬ ∃ (z : SegId) (c : Fin 3), [(4 : Byte), 3] = [byteOf (z.val + 1), byteOf c.val]) ∧
    (let s := idle.modSeg 3 fun sg => { sg with echo := .waiting 2 };
      (s.seg 3).echo = .waiting 2 ∧ (s.seg 3).inFlight = none ∧ (s.seg 3).allstopOwed = false) ∧
    ((idle.modSeg 3 fun sg => { sg with echo := .waiting 2, allstopOwed := true }).seg 3).allstopOwed = true ∧
    ((idle.modSeg 3 fun sg => { sg with echo := .running 2 [] }).seg 3).echo = .running 2 [] ∧
    ((idle.modSeg 3 fun sg => { sg with echo := .running 2 (List.replicate 16 ⟨.short, 4095⟩) }).seg 3).echo
      = .running 2 (List.replicate 16 ⟨.short, 4095⟩) := by
  and_intros <;> decide +kernel

theorem witness_StepKeepsStationLaws : (train .lifting).stationsSafe ∧ step (train .lifting) = .next (train .lifting) :=
  ⟨(test_train_safe .lifting (by simp)).1, rfl⟩

/-- A step with a STOP byte in front, from a state that meets the laws. -/
theorem witness_StepKeepsStopAndDemandLaws :
    let s : State := { train .lifting with pending := [.stopByte 2] }
    s.stopsSafe ∧ s.countsWell ∧ s.mirrored ∧ s.groupReady ∧ s.demandsLawful ∧
      step s = .next ((train .lifting).stopByte 2) := by
  refine ⟨?_, ?_, ?_, ?_, ?_, rfl⟩ <;> decide +kernel

theorem witness_StepKeepsSafe : (train .holding).power = .running ∧ State.reset.safe ∧ (train .lifting).safe ∧
    step (train .lifting) = .next (train .lifting) :=
  ⟨by decide, by and_intros <;> decide +kernel, test_train_safe .lifting (by simp), rfl⟩

end Sys2Proof.Tests
end

/-! O35: a due request answered by its owner, the argument counted from 1, the retention trigger as one update, and LINK (R9). -/

namespace Sys2Proof

/-- Writing an entry changes the table exactly when it changes the entry. -/
theorem Table.set_eq_self_iff {α : Type} {n : Nat} (t : Table α n) (i : Fin n) (a : α) :
    t.set i a = t ↔ t.get i = a := by
  constructor
  · intro h
    have hget : (t.set i a).get i = t.get i := by rw [h]
    rw [← hget, Table.get_set_self]
  · rintro rfl
    exact t.set_get_self i

end Sys2Proof

namespace Sys2Proof.Machine

/-! ### A due request and its reply (R165, R166) -/

/-- Every request code is below 0x80, so its reply code is the code plus 0x80. -/
theorem replyCode_code (r : Request) : replyCode r.code = r.code + 0x80 := by
  cases r <;> rfl

/-- The flags byte of a reply header: three flags from bit 0 up. -/
theorem bitsOf_three (a b c : Bool) : bitsOf [a, b, c] = a.toNat + 2 * b.toNat + 4 * c.toNat := by
  simp only [bitsOf]
  omega

/-- The reply of an owner that left the ports alone is the one reply that a request owes. -/
theorem State.answers_reply {s u : State} (hports : u.ports = s.ports) (q : PortId) (r : Request) (tag : Byte) (a : Answer) :
    s.answers (u.reply q r.code tag a) q (r.code + 0x80) tag a := by
  have hport : u.port q = s.port q := State.port_congr hports q
  have hbody : u.replyBody q r.code tag a = s.replyIn (u.reply q r.code tag a) q (r.code + 0x80) tag a := by
    simp [State.replyBody, State.replyIn, State.holderByte, replyCode_code, bitsOf_three, hport]
  unfold State.answers
  rw [← hbody, ← hport, ← hports]
  rfl

/-- A due request is handed to its owner, and the reply is composed from the state the owner leaves. -/
theorem State.executeRequest_of_holds {s : State} {q : PortId} {r : Request} {tag : Byte} {args : List Byte}
    (hdue : s.holds q r tag args) (owner : State → List Byte → State × Answer) :
    s.executeRequest q r owner = (owner s args).1.reply q r.code tag (owner s args).2 := by
  simp [State.executeRequest, State.execute, hdue]

/-- A due request whose owner leaves `u` with the ports of `s` answers the owner's answer, in `u` with the reply queued. -/
theorem State.executes_of_owner {s u : State} {q : PortId} {r : Request} {tag : Byte} {args : List Byte} {a : Answer}
    {owner : State → List Byte → State × Answer} {P : State → Prop}
    (hexec : exec (r.command q) s = .next (s.executeRequest q r owner)) (hdue : s.holds q r tag args)
    (howner : owner s args = (u, a)) (hports : u.ports = s.ports) (hP : P (u.reply q r.code tag a)) :
    s.executes q r tag a P := by
  refine ⟨u.reply q r.code tag a, ?_, State.answers_reply hports q r tag a, hP⟩
  rw [hexec, State.executeRequest_of_holds hdue, howner]

/-- A due request whose owner leaves the state as it is only answers. -/
theorem State.onlyAnswers_of_owner {s : State} {q : PortId} {r : Request} {tag : Byte} {args : List Byte} {a : Answer}
    {owner : State → List Byte → State × Answer}
    (hexec : exec (r.command q) s = .next (s.executeRequest q r owner)) (hdue : s.holds q r tag args)
    (howner : owner s args = (s, a)) : s.onlyAnswers q r tag a :=
  State.executes_of_owner hexec hdue howner rfl rfl

/-! ### Arguments counted from 1 (R195) -/

theorem fromOne_eq_none {n : Nat} {b : Byte} (h : b = 0 ∨ n < b.toNat) : fromOne n b = none := by
  unfold fromOne
  rw [dif_neg]
  rintro ⟨hlow, hhigh⟩
  rcases h with rfl | h
  · simp at hlow
  · omega

/-- The number `k + 1` as a byte is read back as entry `k`. -/
theorem fromOne_byteOf {n : Nat} (hn : n < 256) (k : Fin n) : fromOne n (byteOf (k.val + 1)) = some k := by
  have hbyte : (byteOf (k.val + 1)).toNat = k.val + 1 := by
    rw [byteOf, BitVec.toNat_ofNat]
    omega
  unfold fromOne
  rw [dif_pos (by omega)]
  simp [hbyte]

theorem linkArgs_eq_none {k : Byte} (f : Byte) (h : k = 0 ∨ 11 < k.toNat) : linkArgs [k, f] = none := by
  simp [linkArgs, fromOne_eq_none h]

theorem linkArgs_byteOf (k : JointId) (f : Byte) :
    linkArgs [byteOf (k.val + 1), f] = some (k, decide (f ≠ 0)) := by
  simp [linkArgs, fromOne_byteOf (by decide) k, flagArg]

/-! ### The retention trigger as one update (R190, R192) -/

/-- Outside the running part a trigger is discarded (R190). -/
theorem State.trigger_not_running {s : State} (hp : s.power ≠ .running) : s.trigger = s := by
  unfold State.trigger
  split
  · next h => exact absurd h hp
  · rfl
  · rfl

/-- A trigger on a changed roster writes the retention unit alone, and only while the part runs (R4). -/
theorem State.triggerIfChanged_eq (s : State) (before : Roster) :
    s.triggerIfChanged before = { s with
      retention := if s.roster = before ∨ s.power ≠ .running then s.retention
        else s.retention.triggered s.image } := by
  unfold State.triggerIfChanged
  by_cases hroster : s.roster = before
  · rw [if_pos hroster, if_pos (Or.inl hroster)]
  · rw [if_neg hroster]
    by_cases hp : s.power = .running
    · rw [if_neg (by simp [hroster, hp]), State.trigger_running s hp]
    · rw [if_pos (Or.inr hp), State.trigger_not_running hp]

/-! ### LINK (R4, R9) -/

/-- The checks of a roster edit pass for the holder in IDLE (R4). -/
theorem State.rosterRefusal_eq_none {s : State} {q : PortId} (hholder : s.holder = some q) (hphase : s.phase = .idle) :
    s.rosterRefusal q = none := by
  simp [State.rosterRefusal, hholder, hphase]

/-- The roster with the flag of joint `k` stored: neither an entry nor roster confirmed changes (R9). -/
def Roster.withLink (r : Roster) (k : JointId) (flag : Bool) : Roster :=
  { r with links := r.links.set k flag }

/-- Storing a flag changes the roster exactly when it changes the flag. -/
theorem Roster.withLink_eq_self_iff (r : Roster) (k : JointId) (flag : Bool) :
    r.withLink k flag = r ↔ r.links.get k = flag := by
  rw [← Table.set_eq_self_iff]
  constructor
  · intro h
    exact congrArg Roster.links h
  · intro h
    rw [Roster.withLink, h]

theorem ownerLink_badArg {s : State} {q : PortId} {args : List Byte} (hcheck : s.rosterRefusal q = none)
    (hargs : linkArgs args = none) : ownerLink q s args = (s, .plain .badArg) := by
  simp [ownerLink, hcheck, hargs, State.refuse]

/-- An accepted LINK writes the roster and, on a change in the running part, the retention unit, and nothing else. -/
theorem ownerLink_done {s : State} {q : PortId} {args : List Byte} {k : JointId} {flag : Bool}
    (hcheck : s.rosterRefusal q = none) (hargs : linkArgs args = some (k, flag)) :
    ownerLink q s args = ({ s with
      roster := s.roster.withLink k flag
      retention := if s.roster.links.get k = flag ∨ s.power ≠ .running then s.retention
        else s.retention.triggered ({ s with roster := s.roster.withLink k flag } : State).image }, .plain .done) := by
  have howner : ownerLink q s args =
      (({ s with roster := s.roster.withLink k flag } : State).triggerIfChanged s.roster, .plain .done) := by
    simp [ownerLink, hcheck, hargs, Roster.withLink]
  rw [howner, State.triggerIfChanged_eq]
  simp only [Roster.withLink_eq_self_iff]

/-- Settles O35: the two outcomes of LINK's owner, each carried through the reply. -/
theorem linkEffect : Obligations.LinkEffect := by
  unfold Obligations.LinkEffect
  constructor
  · intro s q tag k f hholder hphase hrange hdue
    have hcheck := State.rosterRefusal_eq_none hholder hphase
    exact State.onlyAnswers_of_owner rfl hdue (ownerLink_badArg hcheck (linkArgs_eq_none f hrange))
  · intro s q tag f k hholder hphase hdue
    have hcheck := State.rosterRefusal_eq_none hholder hphase
    have howner := ownerLink_done hcheck (linkArgs_byteOf k f)
    exact State.executes_of_owner rfl hdue howner rfl ⟨rfl, rfl, rfl⟩

end Sys2Proof.Machine

/-! O22 and O24: arguments counted from 0, the attention level as a greatest lower bound, the choice of NOTICE_NEXT (R178), and
NOTICE_SET (R176). -/

namespace Sys2Proof.Machine

/-! ### Arguments counted from 0 (R195) -/

theorem fromZero_eq_none {n : Nat} {b : Byte} (h : n ≤ b.toNat) : fromZero n b = none :=
  dif_neg (Nat.not_lt.mpr h)

/-- The number `k` as a byte is read back as entry `k`. -/
theorem fromZero_byteOf {n : Nat} (hn : n ≤ 256) (k : Fin n) : fromZero n (byteOf k.val) = some k := by
  have hbyte : (byteOf k.val).toNat = k.val := by
    rw [byteOf, BitVec.toNat_ofNat]
    omega
  unfold fromZero
  rw [dif_pos (by omega)]
  simp [hbyte]

theorem noticeSetArgs_eq_none {c l : Byte} (e : Byte) (h : 15 < c.toNat ∨ 3 < l.toNat) :
    noticeSetArgs [c, e, l] = none := by
  rcases h with hc | hl
  · simp [noticeSetArgs, fromZero_eq_none (n := 16) hc]
  · simp [noticeSetArgs, fromZero_eq_none (n := 4) hl]

theorem noticeSetArgs_byteOf (c : Fin 16) (e : Byte) (l : Fin 4) :
    noticeSetArgs [byteOf c.val, e, byteOf l.val] = some (c, decide (e ≠ 0), l) := by
  simp [noticeSetArgs, fromZero_byteOf (n := 16) (by decide), fromZero_byteOf (n := 4) (by decide), flagArg]

/-! ### The attention level and the choice (R177, R178) -/

/-- A bound of a conditional running minimum bounds its start and every value that is let in. -/
theorem le_foldl_min_iff {α : Type} (w : α → Bool) (f : α → Nat) (k : Nat) (l : List α) (m : Nat) :
    k ≤ l.foldl (fun m c => if w c then min m (f c) else m) m ↔ k ≤ m ∧ ∀ c ∈ l, w c = true → k ≤ f c := by
  induction l generalizing m with
  | nil => simp
  | cons a l ih =>
    rw [List.foldl_cons, ih]
    by_cases ha : w a = true
    · simp [ha, and_assoc]
    · simp [ha]

/-- The attention level is the greatest number up to 4 that no pending level is below (R177). -/
theorem NoticeState.le_attention_iff (n : NoticeState) (k : Nat) :
    k ≤ n.attention ↔ k ≤ 4 ∧ ∀ c, n.waiting.get c = true → k ≤ (n.level.get c).val := by
  unfold NoticeState.attention
  rw [le_foldl_min_iff]
  simp

/-- A pending category that no pending category undercuts has the attention level. -/
theorem NoticeState.attention_eq {n : NoticeState} {c : Fin 16} (hc : n.waiting.get c = true)
    (hleast : ∀ k, n.waiting.get k = true → n.level.get c ≤ n.level.get k) : n.attention = (n.level.get c).val := by
  apply Nat.le_antisymm
  · exact ((n.le_attention_iff _).mp le_rfl).2 c hc
  · exact (n.le_attention_iff _).mpr ⟨by omega, hleast⟩

theorem Category.mem_all (c : Category) : c ∈ Category.all := by
  cases c <;> decide

/-- The list of all categories is in order of their numbers. -/
theorem Category.all_sorted : Category.all.Pairwise fun a b => a.code < b.code := by
  decide

theorem NoticeState.choice_eq_none {n : NoticeState} (h : ∀ k, n.waiting.get k = false) : n.choice = none := by
  simp [NoticeState.choice, h]

/-- The pending category with the smallest level, and among equals the lowest number, is the one chosen: no category that stands
before it in the list is both pending and at the attention level (R178). -/
theorem NoticeState.choice_eq_some {n : NoticeState} {c : Category} (hc : n.waiting.get c.code = true)
    (hfirst : ∀ k, n.waiting.get k = true →
      n.level.get c.code < n.level.get k ∨ n.level.get c.code = n.level.get k ∧ c.code ≤ k) : n.choice = some c := by
  have hlevel : n.attention = (n.level.get c.code).val :=
    NoticeState.attention_eq hc fun k hk => (hfirst k hk).elim le_of_lt fun ⟨heq, _⟩ => heq.le
  obtain ⟨before, after, hall⟩ := List.append_of_mem c.mem_all
  unfold NoticeState.choice
  rw [List.find?_eq_some_iff_append]
  refine ⟨by simp [hc, hlevel], before, after, hall, fun a ha => ?_⟩
  have hlower : a.code < c.code := by
    have hsorted := Category.all_sorted
    rw [hall, List.pairwise_append] at hsorted
    obtain ⟨-, -, hcross⟩ := hsorted
    exact hcross a ha c List.mem_cons_self
  cases hwait : n.waiting.get a.code with
  | false => simp
  | true =>
    have hne : n.level.get a.code ≠ n.level.get c.code := by
      rcases hfirst a.code hwait with hlt | ⟨-, hle⟩
      · exact hlt.ne'
      · exact absurd hlower (not_lt.mpr hle)
    simpa [hlevel, Fin.val_inj] using hne

/-! ### NOTICE_NEXT and NOTICE_SET (R176, R178) -/

/-- A due request whose owner changes the notice state of its own station alone. -/
theorem State.executes_of_modNotices {s : State} {q : PortId} {r : Request} {tag : Byte} {args : List Byte} {a : Answer}
    {owner : State → List Byte → State × Answer} {f : NoticeState → NoticeState}
    (hexec : exec (r.command q) s = .next (s.executeRequest q r owner)) (hdue : s.holds q r tag args)
    (howner : owner s args = (s.modNotices q f, a)) :
    s.executes q r tag a fun t => t.notices = s.notices.set q (f (s.notices.get q)) ∧
      { t with ports := s.ports, notices := s.notices } = s :=
  State.executes_of_owner hexec hdue howner rfl ⟨rfl, rfl⟩

theorem ownerNoticeNext_none {s : State} {q : PortId} (h : (s.notices.get q).choice = none) :
    ownerNoticeNext q s [] = (s, .doneWith [0xFF]) := by
  simp [ownerNoticeNext, h]

theorem ownerNoticeNext_some {s : State} {q : PortId} {c : Category} (h : (s.notices.get q).choice = some c) :
    ownerNoticeNext q s [] = (s.modNotices q (NoticeState.remove c),
      .doneWith ([byteOf c.code.val, byteOf ((s.notices.get q).level.get c.code).val] ++ s.noticeContent c)) := by
  simp [ownerNoticeNext, h]

/-- Settles O22: the choice of each case, carried through the owner and the reply. -/
theorem noticeNextChooses : Obligations.NoticeNextChooses := by
  unfold Obligations.NoticeNextChooses
  intro s q tag hdue
  constructor
  · intro hempty
    exact State.onlyAnswers_of_owner rfl hdue (ownerNoticeNext_none (NoticeState.choice_eq_none hempty))
  · intro c hc hfirst
    exact State.executes_of_modNotices rfl hdue (ownerNoticeNext_some (NoticeState.choice_eq_some hc hfirst))

/-- A setting disables a pending category by removing it, and never makes one pending (R176). -/
theorem NoticeState.configure_eq (n : NoticeState) (c : Fin 16) (e : Byte) (l : Fin 4) :
    n.configure c (decide (e ≠ 0)) l =
      { enabled := n.enabled.set c (decide (e ≠ 0))
        level := n.level.set c l
        waiting := if e = 0 then n.waiting.set c false else n.waiting } := by
  unfold NoticeState.configure
  by_cases he : e = 0
  · subst he
    simp
  · rw [if_neg he, decide_eq_true he]
    simp

theorem ownerNoticeSet_badArg {s : State} {q : PortId} {args : List Byte} (hargs : noticeSetArgs args = none) :
    ownerNoticeSet q s args = (s, .plain .badArg) := by
  simp [ownerNoticeSet, hargs, State.refuse]

theorem ownerNoticeSet_done {s : State} {q : PortId} {args : List Byte} {c : Fin 16} {enable : Bool} {l : Fin 4}
    (hargs : noticeSetArgs args = some (c, enable, l)) :
    ownerNoticeSet q s args = (s.modNotices q (NoticeState.configure c enable l), .plain .done) := by
  simp [ownerNoticeSet, hargs]

/-- Settles O24: the two outcomes of NOTICE_SET's owner, each carried through the reply. -/
theorem noticeSetEffect : Obligations.NoticeSetEffect := by
  unfold Obligations.NoticeSetEffect
  constructor
  · intro s q tag c e l hrange hdue
    exact State.onlyAnswers_of_owner rfl hdue (ownerNoticeSet_badArg (noticeSetArgs_eq_none e hrange))
  · intro s q tag e c l hdue
    rw [← NoticeState.configure_eq]
    exact State.executes_of_modNotices rfl hdue (ownerNoticeSet_done (noticeSetArgs_byteOf c e l))

end Sys2Proof.Machine

/-! The laws that every operation keeps with no condition: pending notices are enabled ones (R175), the owed set and the last-sent
records lie within the watch set (R181, R182), and the two counts are the numbers of columns they count (R124). `State.keeps` says it
of two states, and one lemma an operation follows the operation's definition. -/

namespace Sys2Proof.Machine

set_option Elab.async false

/-- From `s` to `t` the laws of the notices, of the watches and of the two counts are kept. -/
structure State.keeps (s t : State) : Prop where
  notices : s.noticesWell → t.noticesWell
  watches : s.watchesWell → t.watchesWell
  counts : s.countsWell → t.countsWell

namespace State.keeps

variable {s t u : State}

theorem refl (s : State) : s.keeps s :=
  ⟨id, id, id⟩

theorem trans (h : s.keeps t) (h' : t.keeps u) : s.keeps u :=
  ⟨h'.notices ∘ h.notices, h'.watches ∘ h.watches, h'.counts ∘ h.counts⟩

theorem ite {c : Prop} [Decidable c] (h : s.keeps t) (h' : s.keeps u) : s.keeps (if c then t else u) := by
  split
  · exact h
  · exact h'

/-! ### The ways in which the three laws are kept -/

/-- The counts of a state follow those of another with the same classifications and marks. -/
theorem counts_congr (hh : u.holdCount = t.holdCount) (ho : u.outCount = t.outCount)
    (hc : ∀ p, (u.col p).cls = (t.col p).cls ∧ (u.col p).mark = (t.col p).mark) (h : t.countsWell) : u.countsWell := by
  have hlag : u.cols.count (fun c => decide (c.cls = .lag)) = t.cols.count (fun c => decide (c.cls = .lag)) :=
    Table.count_congr fun p => by rw [show (u.cols.get p).cls = (t.cols.get p).cls from (hc p).1]
  have hmark : u.cols.count (fun c => c.mark) = t.cols.count (fun c => c.mark) :=
    Table.count_congr fun p => (hc p).2
  obtain ⟨h1, h2⟩ := h
  exact ⟨by rw [hh, hlag, h1], by rw [ho, hmark, h2]⟩

/-- An update that leaves the notices, the watches, the counts, the classifications and the marks keeps the three laws. -/
theorem update (h : s.keeps t) (hn : u.notices = t.notices := by rfl) (hw : u.watches = t.watches := by rfl)
    (hh : u.holdCount = t.holdCount := by rfl) (ho : u.outCount = t.outCount := by rfl)
    (hc : ∀ p, (u.col p).cls = (t.col p).cls ∧ (u.col p).mark = (t.col p).mark := by exact fun _ => ⟨rfl, rfl⟩) :
    s.keeps u :=
  h.trans ⟨fun h => by simpa only [State.noticesWell, hn] using h, fun h => by simpa only [State.watchesWell, hw] using h,
    counts_congr hh ho hc⟩

/-- With no column classed LAG, no mark and both counts 0, the law of the counts holds. -/
theorem counts_of_clear (hh : t.holdCount = 0) (ho : t.outCount = 0)
    (hc : ∀ p, (t.col p).cls = .none ∧ (t.col p).mark = false) : t.countsWell := by
  refine ⟨hh.trans (Table.count_eq_zero _ _ fun p => ?_).symm, ho.trans (Table.count_eq_zero _ _ fun p => (hc p).2).symm⟩
  rw [show (t.cols.get p).cls = .none from (hc p).1]
  rfl

/-! ### Updates of one table -/

theorem modPort (h : s.keeps t) (q : PortId) (f : Port → Port) : s.keeps (t.modPort q f) := h.update
theorem modSeg (h : s.keeps t) (g : SegId) (f : Segment → Segment) : s.keeps (t.modSeg g f) := h.update
theorem mapSegs (h : s.keeps t) (f : Segment → Segment) : s.keeps (t.mapSegs f) := h.update
theorem modDrop (h : s.keeps t) (g : SegId) (d : DropId) (f : Drop → Drop) : s.keeps (t.modDrop g d f) := h.update

theorem modCol (h : s.keeps t) (p : Pos) (f : Column → Column)
    (hf : ∀ c, (f c).cls = c.cls ∧ (f c).mark = c.mark := by exact fun _ => ⟨rfl, rfl⟩) : s.keeps (t.modCol p f) :=
  h.update (hc := fun y => by
    rw [State.col_modCol]
    split
    · exact hf _
    · exact ⟨rfl, rfl⟩)

theorem mapCols (h : s.keeps t) (f : Column → Column)
    (hf : ∀ c, (f c).cls = c.cls ∧ (f c).mark = c.mark := by exact fun _ => ⟨rfl, rfl⟩) : s.keeps (t.mapCols f) :=
  h.update (hc := fun y => by rw [State.col_mapCols]; exact hf _)

theorem setDemand (h : s.keeps t) (p : Pos) (v : Int) : s.keeps (t.setDemand p v) := h.modCol p _
theorem spendFresh (h : s.keeps t) : s.keeps t.spendFresh := h.update

/-! ### Notices and watches -/

theorem notices_raised {n : NoticeState} (c : Category) (h : ∀ k, n.waiting.get k = true → n.enabled.get k = true) :
    ∀ k, (n.raised c).waiting.get k = true → (n.raised c).enabled.get k = true := by
  intro k
  unfold NoticeState.raised
  split
  · next hc =>
    dsimp only
    rw [Table.get_set]
    split
    · next hk => exact fun _ => hk ▸ hc
    · exact h k
  · exact h k

theorem raise (h : s.keeps t) (c : Category) : s.keeps (t.raise c) := by
  refine h.trans ⟨fun hn q => ?_, id, id⟩
  rw [State.notices_raise]
  exact notices_raised c (hn q)

theorem raiseIfAny (h : s.keeps t) (c : Option Category) : s.keeps (t.raiseIfAny c) := by
  cases c with
  | none => exact h
  | some c => exact h.raise c

theorem watches_tested {w : WatchState} (p : Pos) (c : Column)
    (h : ∀ y, (w.owed.get y = true → w.watched.get y = true) ∧ ((w.lastSent.get y).isSome = true → w.watched.get y = true)) :
    ∀ y, ((w.tested p c).owed.get y = true → (w.tested p c).watched.get y = true) ∧
      (((w.tested p c).lastSent.get y).isSome = true → (w.tested p c).watched.get y = true) := by
  intro y
  unfold WatchState.tested
  split
  · next hp =>
    refine ⟨fun hy => ?_, (h y).2⟩
    dsimp only at hy ⊢
    rw [Table.get_set] at hy
    split at hy
    · next e => exact e ▸ (Bool.and_eq_true_iff.mp hp).1
    · exact (h y).1 hy
  · exact h y

theorem testWatches (h : s.keeps t) (p : Pos) : s.keeps (t.testWatches p) := by
  refine h.trans ⟨id, fun hw q => ?_, id⟩
  rw [State.watches_testWatches]
  exact watches_tested p _ (hw q)

/-! ### Wakes, writes and phase changes -/

theorem wake (h : s.keeps t) : s.keeps t.wake :=
  h.update (by simp) (by simp) (by simp) (by simp) fun p => by rw [State.col_wake]; exact ⟨rfl, rfl⟩

theorem trigger (h : s.keeps t) : s.keeps t.trigger :=
  h.update (by simp) (by simp) (by simp) (by simp) fun p => by rw [State.col_congr (State.trigger_cols t)]; exact ⟨rfl, rfl⟩

/-- A classification moves each count by the difference that it makes (R124). -/
theorem classify (h : s.keeps t) (p : Pos) (cls : Classification) (m : Bool) (lag : Option Int) :
    s.keeps (t.classify p cls m lag) := by
  refine h.trans ⟨id, id, fun ⟨hold, out⟩ => ?_⟩
  have hlag := t.cols.count_set p { t.col p with cls := cls, mark := m, lag := lag } fun c => decide (c.cls = .lag)
  have hmark := t.cols.count_set p { t.col p with cls := cls, mark := m, lag := lag } fun c => c.mark
  constructor
  · change t.holdCount + (decide (cls = .lag)).toNat - (decide ((t.col p).cls = .lag)).toNat = _
    rw [hold, ← hlag]
    exact Nat.add_sub_cancel _ _
  · change t.outCount + m.toNat - (t.col p).mark.toNat = _
    rw [out, ← hmark]
    exact Nat.add_sub_cancel _ _

theorem changed (h : s.keeps t) (new : Phase) : s.keeps (t.changed new) := by
  refine h.trans ⟨fun hn => ?_, fun hw => ?_, fun hc => ?_⟩
  · simpa only [State.noticesWell, State.changed_notices] using hn
  · have : (t.changed new).watches = t.watches := by
      unfold State.changed
      dsimp only
      split <;> simp
    simpa only [State.watchesWell, this] using hw
  · obtain ⟨hh, ho⟩ := t.changed_counts new
    by_cases ht : new.isTracked = true
    · rw [if_pos ht] at hh ho
      exact counts_congr hh ho (fun p => by rw [State.col_changed]; simp [Column.entering, ht]) hc
    · rw [if_neg ht] at hh ho
      exact counts_of_clear hh ho fun p => by rw [State.col_changed]; simp [Column.entering, ht]

theorem applyPolling (h : s.keeps t) : s.keeps t.applyPolling := by
  unfold State.applyPolling
  split
  · exact (h.mapSegs _).wake
  · exact h.wake

theorem changePhase (h : s.keeps t) (new : Phase) : s.keeps (t.changePhase new) := by
  by_cases hp : t.phase = new
  · subst hp
    rwa [State.changePhase_self]
  · rw [State.changePhase_eq t new hp]
    exact (((h.changed new).raise .phase).trigger).applyPolling

/-! ### Stops and link states -/

theorem raiseEchoDone (h : s.keeps t) (g : SegId) : s.keeps (t.raiseEchoDone g) := (h.raise .echoDone).update

theorem abortEcho (h : s.keeps t) (g : SegId) : s.keeps (t.abortEcho g) := by
  unfold State.abortEcho
  split
  · exact h
  · exact (h.modSeg g _).raiseEchoDone g

theorem stopped (h : s.keeps t) (o : Offer) : s.keeps (t.stopped o) := by
  have hrec : s.keeps (t.recorded o) := h.update
  have hall : s.keeps (((t.recorded o).changePhase .stopped).mapSegs fun sg => { sg with allstopOwed := true }) :=
    (hrec.changePhase .stopped).mapSegs _
  exact State.keeps.raiseIfAny hall.update _

theorem firstStop (h : s.keeps t) (o : Offer) : s.keeps (t.firstStop o) := by
  rw [State.firstStop_eq]
  exact ((((h.stopped o).abortEcho 0).abortEcho 1).abortEcho 2).abortEcho 3

theorem furtherCause (h : s.keeps t) (c : StopCause) : s.keeps (t.furtherCause c) := by
  unfold State.furtherCause
  split
  · exact h
  · exact h.update

theorem offerStop (h : s.keeps t) (o : Offer) : s.keeps (t.offerStop o) := by
  unfold State.offerStop
  split
  · exact h
  · exact h
  · split
    · exact h.furtherCause _
    · exact h.firstStop o

theorem offerAll (os : List Offer) : ∀ {t : State}, s.keeps t → s.keeps (t.offerAll os) := by
  induction os with
  | nil => exact id
  | cons o os ih => exact fun h => ih (h.offerStop o)

theorem mirror (h : s.keeps t) (g : SegId) (d : DropId) : s.keeps (t.mirror g d) := by
  unfold State.mirror
  split
  · exact h
  · exact h.modCol _ _

theorem testMapped (h : s.keeps t) (g : SegId) (d : DropId) : s.keeps (t.testMapped g d) := by
  unfold State.testMapped
  split
  · exact h
  · exact h.testWatches _

theorem changeLink (h : s.keeps t) (g : SegId) (d : DropId) (l : LinkState) : s.keeps (t.changeLink g d l) := by
  unfold State.changeLink
  split
  · exact h
  · exact (((h.modDrop g d _).mirror g d).testMapped g d).wake

/-! ### Legs -/

theorem spendForLeg (h : s.keeps t) : s.keeps t.spendForLeg := by
  unfold State.spendForLeg
  split
  · exact h.spendFresh
  · exact h

theorem takeLeg (h : s.keeps t) (b : Bool) : s.keeps (t.takeLeg b) := by
  have hraise : s.keeps (if t.legClamped b then t.raise .planClamped else t) := ite (h.raise _) h
  exact State.keeps.spendForLeg hraise.update

theorem runStepTimer (h : s.keeps t) : s.keeps t.runStepTimer := h.update

theorem startLeg (h : s.keeps t) (b : Bool) : s.keeps (t.startLeg b) :=
  ((h.takeLeg b).changePhase _).runStepTimer

theorem afterDwell (h : s.keeps t) : s.keeps t.afterDwell.1 := by
  unfold State.afterDwell
  split
  · exact h
  · exact h.changePhase _

theorem startDwell (h : s.keeps t) : s.keeps t.startDwell :=
  State.keeps.update (h.changePhase .dwell)

theorem countLeg (h : s.keeps t) : s.keeps t.countLeg := by
  have hplan : s.keeps { t.raise .legDone with plan := { t.plan with index := t.plan.index + 1 } } := (h.raise _).update
  exact hplan.trigger

theorem finishLeg (h : s.keeps t) : s.keeps t.finishLeg.1 := by
  unfold State.finishLeg
  dsimp only
  split
  · exact (h.raise _).changePhase _
  · split
    · exact h.countLeg.changePhase _
    · split
      · exact h.countLeg.startDwell
      · exact h.countLeg.afterDwell

theorem completeLegs (n : Nat) : ∀ {t : State}, s.keeps t → s.keeps (State.completeLegs n t) := by
  induction n with
  | zero => exact id
  | succ n ih =>
    intro t h
    unfold State.completeLegs
    split
    · split
      · exact ih (h.finishLeg.startLeg false)
      · exact h.finishLeg
    · exact h

theorem testCompletion (h : s.keeps t) : s.keeps t.testCompletion := completeLegs _ h

theorem stepReference (h : s.keeps t) : s.keeps t.stepReference := by
  unfold State.stepReference
  split
  · exact h.update
  · exact h

theorem testPause (h : s.keeps t) : s.keeps t.testPause := by
  unfold State.testPause
  split
  · exact h.changePhase _
  · exact h

theorem afterStep (h : s.keeps t) : s.keeps t.afterStep := by
  unfold State.afterStep
  split
  · exact h.testCompletion
  · exact h.testPause

theorem referenceStep (h : s.keeps t) : s.keeps t.referenceStep := by
  unfold State.referenceStep
  split
  · split
    · exact h.testPause
    · exact h.stepReference.afterStep
  · exact h

theorem dwellExpiry (h : s.keeps t) : s.keeps t.dwellExpiry := by
  unfold State.dwellExpiry
  split
  · split
    · exact (h.afterDwell.startLeg false).testCompletion
    · exact h.afterDwell
  · exact h

/-! ### Enrolment -/

theorem storePage (h : s.keeps t) (g : SegId) (d : DropId) (c : Capability) (n : Fin 4) : s.keeps (t.storePage g d c n) :=
  (h.modDrop g d _).mirror g d

theorem refuseDrop (h : s.keeps t) (g : SegId) (d : DropId) : s.keeps (t.refuseDrop g d) :=
  (h.changeLink g d .refused).raise _

theorem endPaging (h : s.keeps t) (g : SegId) (d : DropId) : s.keeps (t.endPaging g d) :=
  (h.changeLink g d _).raise _

theorem takePage1 (h : s.keeps t) (g : SegId) (d : DropId) (r : Report) : s.keeps (t.takePage1 g d r) := by
  unfold State.takePage1
  split
  · exact h.refuseDrop g d
  · exact h.storePage g d _ _

theorem takePage2 (h : s.keeps t) (g : SegId) (d : DropId) (r : Report) : s.keeps (t.takePage2 g d r) := by
  unfold State.takePage2
  split
  · exact h.refuseDrop g d
  · exact (h.storePage g d _ _).endPaging g d

theorem takePage (h : s.keeps t) (g : SegId) (x : Exchange) (r : Report) : s.keeps (t.takePage g x r) := by
  unfold State.takePage
  split
  · split
    · exact h.storePage g _ _ _
    · exact h.takePage1 g _ r
    · exact h.takePage2 g _ r
    · exact h
  · exact h

theorem acceptReply (h : s.keeps t) (g : SegId) (x : Exchange) (r : Report) : s.keeps (t.acceptReply g x r) := by
  have hmiss : s.keeps (t.modDrop g x.drop fun d => { d with miss := 0 }) := h.modDrop g _ _
  unfold State.acceptReply
  dsimp only
  split
  · exact hmiss.changeLink g _ _
  · exact hmiss.changeLink g _ _
  · exact hmiss.takePage g x r
  all_goals exact hmiss

theorem loseDrop (h : s.keeps t) (g : SegId) (d : DropId) : s.keeps (t.loseDrop g d) := by
  have hlost := h.changeLink g d .lost
  unfold State.loseDrop
  dsimp only
  split
  · exact hlost.raise _
  · split
    · exact (hlost.modCol _ _).raise _
    · exact ((hlost.modCol _ _).raise _).offerStop _

theorem missedLink (h : s.keeps t) (g : SegId) (d : DropId) : s.keeps (t.missedLink g d) := by
  unfold State.missedLink
  split
  · exact h.changeLink g d _
  · exact h.changeLink g d _
  · exact ite (h.changeLink g d _) h
  · exact ite (h.changeLink g d _) h
  · exact ite (h.loseDrop g d) h
  all_goals exact h

theorem takeMiss (h : s.keeps t) (g : SegId) (x : Exchange) : s.keeps (t.takeMiss g x) := by
  unfold State.takeMiss
  split
  · exact h
  · split
    · exact h
    · exact (h.modDrop g _ _).missedLink g _

theorem settleExpiry (h : s.keeps t) (g : SegId) (d : DropId) : s.keeps (t.settleExpiry g d) := by
  unfold State.settleExpiry
  split
  · split
    · exact h.changeLink g d _
    · exact h
  · exact h

/-! ### The work of an arrival -/

theorem writeSpread (h : s.keeps t) (c : CarId) : s.keeps (t.writeSpread c) := h.update

theorem endJog (h : s.keeps t) (p : Pos) : s.keeps (t.endJog p) := by
  unfold State.endJog
  dsimp only
  split
  · exact h.modCol _ _
  · exact (h.modCol _ _).trigger

theorem trackedDemand (h : s.keeps t) (p : Pos) (v : Nat) (e : Int) : s.keeps (t.trackedDemand p v e) := by
  unfold State.trackedDemand
  split
  · exact h.setDemand p _
  · exact h.setDemand p _
  · exact ite (ite (h.endJog p) (h.setDemand p _)) (h.setDemand p _)
  all_goals exact h.setDemand p _

theorem followShare (h : s.keeps t) (n : Nat) (p : Pos) : s.keeps (t.followShare n p) := by
  unfold State.followShare
  dsimp only
  split
  · exact h
  · split
    · exact (h.modCol _ _).raise _
    · exact h.modCol _ _

theorem evaluateShares (h : s.keeps t) (c : CarId) : s.keeps (t.evaluateShares c) := by
  unfold State.evaluateShares
  split
  · exact h
  · split
    · exact h
    · exact (((h.followShare _ _).followShare _ _).followShare _ _).followShare _ _

theorem trackedWork (h : s.keeps t) (p : Pos) : s.keeps (t.trackedWork p) := by
  unfold State.trackedWork
  split
  · exact h.setDemand p 0
  · next rel _ =>
    have hclass : s.keeps ((t.classifyAt p (t.lagOf p rel)).writeSpread (carOf p)) := (h.classify p _ _ _).writeSpread _
    have hwork := (hclass.offerAll
      (((t.classifyAt p (t.lagOf p rel)).writeSpread (carOf p)).groupChecks t.phase p (t.lagOf p rel))).trackedDemand p t.ref.vEff (t.lagOf p rel)
    dsimp only
    split
    · exact hwork.evaluateShares _
    · exact hwork

theorem restWork (h : s.keeps t) (p : Pos) : s.keeps (t.restWork p) :=
  ((h.writeSpread (carOf p)).offerAll _).setDemand p 0

theorem takeStart (h : s.keeps t) (p : Pos) : s.keeps (t.takeStart p) := by
  unfold State.takeStart
  split
  · exact h
  · exact h.update

theorem recordContact (h : s.keeps t) (p : Pos) : s.keeps (t.recordContact p) :=
  (h.modCol p _).classify p _ _ _

theorem testAllContact (h : s.keeps t) : s.keeps t.testAllContact := by
  unfold State.testAllContact
  split
  · exact h.changePhase _
  · exact h

theorem rise (h : s.keeps t) (p : Pos) : s.keeps (t.rise p) := by
  unfold State.rise
  split
  · exact h.offerStop _
  · split
    · exact h.offerStop _
    · exact h.setDemand p _

theorem approachColumn (h : s.keeps t) (p : Pos) : s.keeps (t.approachColumn p) := by
  unfold State.approachColumn
  split
  · exact h.setDemand p 0
  · split
    · exact (h.recordContact p).testAllContact
    · exact h.rise p

theorem approachWork (h : s.keeps t) (p : Pos) : s.keeps (t.approachWork p) := by
  unfold State.approachWork
  dsimp only
  split
  · exact ((h.takeStart p).offerAll _).approachColumn p
  · exact (h.takeStart p).offerAll _

theorem park (h : s.keeps t) (p : Pos) : s.keeps (t.park p) := by
  unfold State.park
  dsimp only
  split
  · exact (h.modCol p _).changePhase _
  · exact h.modCol p _

theorem retractColumn (h : s.keeps t) (p : Pos) : s.keeps (t.retractColumn p) := by
  unfold State.retractColumn
  exact ite (h.setDemand p _) (ite (h.park p) (ite (h.park p) (ite (h.offerStop _) (h.setDemand p _))))

theorem retractWork (h : s.keeps t) (p : Pos) : s.keeps (t.retractWork p) := by
  unfold State.retractWork
  dsimp only
  split
  · exact (h.offerAll _).retractColumn p
  · exact h.offerAll _

theorem trackingWork (h : s.keeps t) (p : Pos) : s.keeps (t.trackingWork p) := by
  have hrel : s.keeps (t.modCol p Column.withRel) := h.modCol p _
  unfold State.trackingWork
  dsimp only
  split
  · exact hrel
  · exact hrel.approachWork p
  · exact hrel.retractWork p
  · exact hrel.restWork p
  · exact hrel.restWork p
  · exact hrel.restWork p
  all_goals exact hrel.trackedWork p

theorem foundCreep (h : s.keeps t) (p : Pos) (b k : Nat) : s.keeps (t.foundCreep p b k) :=
  State.keeps.wake (State.keeps.update (h.raise .creep))

theorem creepTest (h : s.keeps t) (g : SegId) (p : Pos) : s.keeps (t.creepTest g p) := by
  unfold State.creepTest
  split
  · split
    · exact h.modCol p _
    · split
      · exact h.foundCreep p _ _
      · exact h
  · exact h

theorem writeReport (h : s.keeps t) (p : Pos) (r : Report) : s.keeps (t.writeReport p r) := by
  unfold State.writeReport
  dsimp only
  split
  · exact (h.modCol p _).raise _
  · exact h.modCol p _

theorem wakeIfMoving (h : s.keeps t) (r : Report) : s.keeps (t.wakeIfMoving r) := by
  unfold State.wakeIfMoving
  split
  · exact h.wake
  · exact h

theorem faultCheck (h : s.keeps t) (p : Pos) (b : Bool) (r : Report) : s.keeps (t.faultCheck p b r) := by
  have htold : s.keeps (if b then t else t.raise .columnFault) := ite h (h.raise _)
  unfold State.faultCheck
  exact ite (ite htold (htold.offerStop _)) h

theorem handleReport (h : s.keeps t) (g : SegId) (p : Pos) (r : Report) : s.keeps (t.handleReport g p r) :=
  ((((((h.writeReport p r).creepTest g p).wakeIfMoving r).faultCheck p _ r).trackingWork p).testCompletion).testWatches p

theorem takeReply (h : s.keeps t) (g : SegId) (x : Exchange) (r : Report) : s.keeps (t.takeReply g x r) := by
  have hreply : s.keeps ((t.modSeg g fun sg => { sg with inFlight := none }).acceptReply g x r) :=
    (h.modSeg g _).acceptReply g x r
  unfold State.takeReply
  dsimp only
  split
  · exact (hreply.wakeIfMoving r).modSeg g _
  · exact (hreply.handleReport g _ r).modSeg g _

/-! ### The lines -/

theorem statusArrival (h : s.keeps t) (g : SegId) (f : List Byte) : s.keeps (t.statusArrival g f) := by
  unfold State.statusArrival
  split
  · split
    · exact h
    · exact h.takeReply g _ _
  · exact h

theorem windowClose (h : s.keeps t) (g : SegId) : s.keeps (t.windowClose g) := by
  unfold State.windowClose
  split
  · exact ((h.modSeg g _).takeMiss g _).modSeg g _
  · exact h

theorem pollExpiry (h : s.keeps t) (g : SegId) : s.keeps (t.pollExpiry g) := by
  unfold State.pollExpiry
  split
  · split
    · exact h
    · split
      · exact h.modSeg g _
      · exact (h.modSeg g _).raise _
  · exact h

theorem sendCommand (h : s.keeps t) (g : SegId) : s.keeps (t.sendCommand g) := by
  unfold State.sendCommand
  split
  · split
    · exact h.modSeg g _
    · exact h
  · exact h

theorem allstop (h : s.keeps t) (g : SegId) : s.keeps (t.allstop g) := by
  unfold State.allstop
  split
  · exact h.modSeg g _
  all_goals exact h

theorem takeBaselines (h : s.keeps t) (g : SegId) : s.keeps (t.takeBaselines g) :=
  h.update (hc := fun p => by
    unfold State.takeBaselines State.col
    rw [Table.get_build]
    repeat' split
    all_goals exact ⟨rfl, rfl⟩)

theorem quietExpiry (h : s.keeps t) (g : SegId) : s.keeps (t.quietExpiry g) := by
  unfold State.quietExpiry
  split
  · exact (h.modSeg g _).takeBaselines g
  · exact h

theorem echoRunning (h : s.keeps t) (g : SegId) : s.keeps (t.echoRunning g) := by
  unfold State.echoRunning
  split
  · exact h.modSeg g _
  all_goals exact h

theorem echoEnd (h : s.keeps t) (g : SegId) : s.keeps (t.echoEnd g) := by
  unfold State.echoEnd
  split
  · split
    · exact (h.modSeg g _).raiseEchoDone g
    · exact h
  all_goals exact h

/-! ### The authority, the stops and the retention unit -/

theorem grant (h : s.keeps t) (q : PortId) : s.keeps (t.grant q) := State.keeps.raise h.update _
theorem clearHolder (h : s.keeps t) : s.keeps t.clearHolder := State.keeps.raise h.update _

theorem lapseExpiry (h : s.keeps t) : s.keeps t.lapseExpiry := by
  unfold State.lapseExpiry
  split
  · exact h
  · split
    · exact h.clearHolder.offerStop _
    · exact h.clearHolder

theorem setStopIn (h : s.keeps t) (c : Contact) : s.keeps (t.setStopIn c) := h.update

theorem stopByte (h : s.keeps t) (q : PortId) : s.keeps (t.stopByte q) := by
  unfold State.stopByte
  split
  · exact h
  all_goals exact h.offerStop _

theorem stopInOpens (h : s.keeps t) : s.keeps t.stopInOpens := by
  unfold State.stopInOpens
  split
  · exact h
  · exact (h.setStopIn .opened).offerStop _

theorem takePhase (h : s.keeps t) (ph : Phase) : s.keeps (t.takePhase ph) := by
  unfold State.takePhase
  split
  · exact State.keeps.mapSegs h.update _
  all_goals exact State.keeps.firstStop h.update _

theorem restore (h : s.keeps t) (m : Image) : s.keeps (t.restore m) :=
  h.update (hc := fun p => by simp [State.restore, State.col])

theorem endReading (h : s.keeps t) (st : RetentionStatus) (m : Image) : s.keeps (t.endReading st m) := by
  have hread : s.keeps { t with power := .running, retention := { t.retention with status := st } } := h.update
  exact (((hread.restore m).takePhase m.phase).raise .retain).mapSegs _

theorem imageReadEnd (h : s.keeps t) (r : MemoryReading) : s.keeps (t.imageReadEnd r) := by
  unfold State.imageReadEnd
  split
  · exact h.endReading _ _
  all_goals exact h

theorem noteWrite (h : s.keeps t) (b : Bool) : s.keeps (t.noteWrite b) := by
  unfold State.noteWrite
  dsimp only
  split
  · exact h.update
  · exact State.keeps.raise h.update _

theorem writeEnd (h : s.keeps t) (o : WriteOutcome) : s.keeps (t.writeEnd o) := by
  unfold State.writeEnd
  split
  · exact h
  · exact State.keeps.update (h.noteWrite _)

/-! ### The roster, the jogs and the rearming -/

theorem dropLeaves (h : s.keeps t) (g : SegId) (d : DropId) : s.keeps (t.dropLeaves g d) := by
  unfold State.dropLeaves
  split
  · exact h.changeLink g d _
  · exact h.changeLink g d _
  all_goals exact h

theorem entryLeaves (h : s.keeps t) (e : Option RosterEntry) : s.keeps (t.entryLeaves e) := by
  cases e with
  | none => exact h
  | some e => exact h.dropLeaves _ _

/-- The emptied record is classed NONE and unmarked before it is emptied, so that the counts follow. -/
theorem emptied (h : s.keeps t) (p : Pos) :
    s.keeps ((t.classify p .none false none).modCol p fun _ => .empty) :=
  (h.classify p .none false none).update (hc := fun y => by
    rw [State.col_modCol]
    split
    · next e =>
      subst e
      simp [State.classify, State.col, State.modCol, Column.empty]
    · exact ⟨rfl, rfl⟩)

theorem emptyRecord (h : s.keeps t) (p : Pos) : s.keeps (t.emptyRecord p) := by
  unfold State.emptyRecord
  dsimp only
  split
  · exact (h.emptied p).testWatches p
  · exact ((h.emptied p).testWatches p).wake

theorem loadRecord (h : s.keeps t) (p : Pos) (g : SegId) (d : DropId) : s.keeps (t.loadRecord p g d) := by
  unfold State.loadRecord
  dsimp only
  split
  · exact (h.emptyRecord p).modCol p _
  · exact (((h.emptyRecord p).modCol p _).testWatches p).wake

theorem triggerIfChanged (h : s.keeps t) (r : Roster) : s.keeps (t.triggerIfChanged r) := by
  unfold State.triggerIfChanged
  split
  · exact h
  · exact h.trigger

theorem withRoster (h : s.keeps t) (r : Roster) : s.keeps { t with roster := r } := h.update

theorem acceptMap (h : s.keeps t) (a : MapArgs) : s.keeps (t.acceptMap a) := by
  unfold State.acceptMap
  dsimp only
  split
  · exact (h.withRoster _).triggerIfChanged _
  · exact (((h.withRoster _).entryLeaves _).loadRecord _ _ _).triggerIfChanged _

theorem acceptUnmap (h : s.keeps t) (p : Pos) : s.keeps (t.acceptUnmap p) :=
  (((h.withRoster _).entryLeaves _).emptyRecord p).triggerIfChanged _

theorem enrolAt (h : s.keeps t) (p : Pos) : s.keeps (t.enrolAt p) := by
  unfold State.enrolAt
  split
  · split
    · exact h.changeLink _ _ _
    · exact h
  · exact h

theorem foldl_enrolAt (l : List Pos) : ∀ {t : State}, s.keeps t → s.keeps (l.foldl State.enrolAt t) := by
  induction l with
  | nil => exact id
  | cons p l ih => exact fun h => ih (h.enrolAt p)

theorem clearLatches (h : s.keeps t) : s.keeps t.clearLatches := h.mapCols _

theorem acceptConfirm (h : s.keeps t) : s.keeps t.acceptConfirm := by
  unfold State.acceptConfirm
  exact ((foldl_enrolAt (List.finRange 48) (h.withRoster _)).withRoster _).clearLatches.trigger

theorem foldl_addOffset (d : Int) (l : List Pos) : ∀ {t : State}, s.keeps t → s.keeps (l.foldl (State.addOffset d) t) := by
  induction l with
  | nil => exact id
  | cons p l ih => exact fun h => ih (h.modCol p _)

theorem flagJog (h : s.keeps t) (p : Pos) : s.keeps (t.flagJog p) := by
  unfold State.flagJog
  split
  · exact h.modCol p _
  · exact h

theorem foldl_flagJog (l : List Pos) : ∀ {t : State}, s.keeps t → s.keeps (l.foldl State.flagJog t) := by
  induction l with
  | nil => exact id
  | cons p l ih => exact fun h => ih (h.flagJog p)

theorem applyJog (h : s.keeps t) (l : List Pos) (d : Int) : s.keeps (t.applyJog l d) := by
  unfold State.applyJog
  dsimp only
  split
  · exact (foldl_flagJog l (foldl_addOffset d l h)).wake
  · exact (foldl_flagJog l (foldl_addOffset d l h)).trigger

theorem reseat (h : s.keeps t) : s.keeps t.reseat := by
  have href : ∀ r, s.keeps { t with ref := r } := fun r => h.update
  unfold State.reseat
  dsimp only
  split
  · exact (href _).spendFresh
  · exact href _

theorem acceptRearm (h : s.keeps t) : s.keeps t.acceptRearm := by
  have hclear : s.keeps ({ t with stop := t.stop.rearmed } : State).clearLatches := State.keeps.clearLatches h.update
  unfold State.acceptRearm
  dsimp only
  split
  · exact hclear.reseat.changePhase _
  · exact hclear.changePhase _

/-! ### The ports, whose state is no part of the three laws -/

theorem reply (h : s.keeps t) (q : PortId) (c tag : Byte) (a : Answer) : s.keeps (t.reply q c tag a) := h.modPort q _

theorem modRunningPort (h : s.keeps t) (q : PortId) (f : Port → Port) : s.keeps (t.modRunningPort q f) := by
  unfold State.modRunningPort
  split
  · exact h
  all_goals exact h.modPort q f

theorem byteReceived (h : s.keeps t) (q : PortId) (v : Byte) (f : Bool) : s.keeps (t.byteReceived q v f) := by
  unfold State.byteReceived
  exact ite (h.modRunningPort q _) (ite (h.modRunningPort q _) (ite (h.stopByte q) (h.modRunningPort q _)))

theorem restartLapse (h : s.keeps t) (q : PortId) (g : Gathering) : s.keeps (t.restartLapse q g) := by
  unfold State.restartLapse
  split
  · split
    · exact h.update
    · exact h
  all_goals exact h

theorem assemble (h : s.keeps t) (q : PortId) : s.keeps (t.assemble q) := by
  unfold State.assemble
  split
  · exact h
  · exact (h.modPort q _).restartLapse q _
  · exact h

end State.keeps

end Sys2Proof.Machine

/-! Requests: the layouts' lengths (section 12.2), the room that a reply takes on the line (R165), and what every owner of a request
leaves alone. -/

namespace Sys2Proof.Machine

set_option Elab.async false

/-! ### The lengths of the codings (R195) -/

@[simp] theorem be16_length (n : Nat) : (be16 n).length = 2 := rfl
@[simp] theorem be24_length (n : Nat) : (be24 n).length = 3 := rfl
@[simp] theorem be32_length (n : Nat) : (be32 n).length = 4 := rfl
@[simp] theorem signed16_length (x : Int) : (signed16 x).length = 2 := rfl
@[simp] theorem opt8_length (x : Option Nat) : (opt8 x).length = 1 := by cases x <;> rfl
@[simp] theorem opt16_length (x : Option Nat) : (opt16 x).length = 2 := by cases x <;> rfl
@[simp] theorem opt24_length (x : Option Nat) : (opt24 x).length = 3 := by cases x <;> rfl
@[simp] theorem optSigned24_length (x : Option Int) : (optSigned24 x).length = 3 := by cases x <;> rfl
@[simp] theorem serialBytes_length (x : Option (BitVec 32)) : (serialBytes x).length = 4 := by cases x <;> rfl
@[simp] theorem crcBytes_length (l : List Byte) : (crcBytes l).length = 2 := rfl
@[simp] theorem positionSet_length (t : Table Bool 48) : (positionSet t).length = 6 := rfl
@[simp] theorem causeSet_length (t : Table Bool 14) : (causeSet t).length = 2 := rfl

@[simp] theorem echoResultBytes_length (r : Option EchoResult) : (echoResultBytes r).length = 9 := by
  cases r with
  | none => rfl
  | some r => cases hc : r.counts <;> cases hd : r.distance <;> simp [echoResultBytes, hc, hd]

@[simp] theorem stopBlock_length (r : StopRecord) (f : Table Bool 14) : (stopBlock r f).length = 13 := by
  simp [stopBlock]

@[simp] theorem StopUnit.recordBlock_length (u : StopUnit) : u.recordBlock.length = 13 := by
  unfold StopUnit.recordBlock
  split <;> simp [absentBlock]

@[simp] theorem StopUnit.previousBlock_length (u : StopUnit) : u.previousBlock.length = 13 := by
  unfold StopUnit.previousBlock
  split <;> simp [absentBlock]

@[simp] theorem StopUnit.noticeContent_length (u : StopUnit) : u.noticeContent.length = 14 := by
  unfold StopUnit.noticeContent StopUnit.noticeBlock
  split <;> simp

@[simp] theorem creepContent_length (k : Option CreepRecord) : (creepContent k).length = 5 := by
  cases k <;> simp [creepContent]

@[simp] theorem Capability.bytes_length (c : Capability) : c.bytes.length = 10 := by
  simp [Capability.bytes]

@[simp] theorem Column.bytes_length (c : Column) : c.bytes.length = 32 := by
  simp [Column.bytes]

/-- Rows of one length laid end to end. -/
theorem flatten_map_length {α β : Type} (k : Nat) (f : α → List β) (hf : ∀ a, (f a).length = k) (l : List α) :
    (l.map f).flatten.length = k * l.length := by
  induction l with
  | nil => simp
  | cons a l ih => simp only [List.map_cons, List.flatten_cons, List.length_append, hf, ih, List.length_cons]; ring

/-- The layout of READ_LIMITS, limit by limit (R144). -/
theorem State.limitsData_eq (s : State) :
    s.limitsData = be16 (s.limits.get 0) ++ be16 (s.limits.get 1) ++ be16 (s.limits.get 2) ++ be16 (s.limits.get 3)
      ++ be16 (s.limits.get 4) ++ [byteOf (s.limits.get 5)] ++ [byteOf (s.limits.get 6)] ++ be16 (s.limits.get 7)
      ++ be16 (s.limits.get 8) ++ be16 (s.limits.get 9) ++ be16 (s.limits.get 10) ++ be16 (s.limits.get 11)
      ++ be16 (s.limits.get 12) ++ be16 (s.limits.get 13) ++ be16 (s.limits.get 14) ++ [byteOf (s.limits.get 15)]
      ++ [byteOf (s.limits.get 16)] := by
  have hall : List.finRange 17 = [0, 1, 2, 3, 4, 5, 6, 7, 8, 9, 10, 11, 12, 13, 14, 15, 16] := by decide
  simp [State.limitsData, hall, isByteLimit, LimitId.code]

/-- Every notice content fits in the reply of NOTICE_NEXT. -/
theorem State.noticeContent_length_le (s : State) (c : Category) : (s.noticeContent c).length ≤ 14 := by
  cases c
  case enrol =>
    have hrow : ∀ sg : Segment, sg.enrolContent.length = 3 := fun _ => rfl
    simp [State.noticeContent, flatten_map_length 3 Segment.enrolContent hrow, s.segs.size]
  all_goals simp [State.noticeContent, State.echoContent, State.holderByte]

/-! ### The room of a reply (R165) -/

theorem escapeByte_length_le (b : Byte) : (escapeByte b).length ≤ 2 := by
  unfold escapeByte
  split <;> simp

@[simp] theorem escapeBytes_nil : escapeBytes [] = [] := rfl

@[simp] theorem escapeBytes_cons (b : Byte) (l : List Byte) : escapeBytes (b :: l) = escapeByte b ++ escapeBytes l := rfl

theorem escapeBytes_append (l m : List Byte) : escapeBytes (l ++ m) = escapeBytes l ++ escapeBytes m := by
  induction l with
  | nil => rfl
  | cons b l ih => rw [List.cons_append, escapeBytes_cons, ih, escapeBytes_cons, List.append_assoc]

/-- An escaped list is at most twice as long. -/
theorem escapeBytes_length_le (l : List Byte) : (escapeBytes l).length ≤ 2 * l.length := by
  induction l with
  | nil => simp
  | cons b l ih =>
    have hb := escapeByte_length_le b
    simp only [escapeBytes_cons, List.length_append, List.length_cons]
    omega

/-- No result code is a reserved byte, so it goes on the line as it is. -/
theorem escapeByte_result (r : ResultCode) : escapeByte (byteOf r.code) = [byteOf r.code] := by
  cases r <;> rfl

theorem stationFrame_length_le (body : List Byte) : (stationFrame body).length ≤ 2 * body.length + 7 := by
  have h := escapeBytes_length_le (framePayload body ++ crcBytes (framePayload body))
  simp only [framePayload, List.length_append, List.length_cons, crcBytes_length] at h
  simp only [stationFrame, framePayload, List.length_cons]
  omega

/-- A reply with up to 33 data bytes takes at most 86 bytes on the line, its result byte never escaped (R165). -/
theorem State.replyFrame_length_le (s : State) (q : PortId) (code tag : Byte) (a : Answer) (ha : a.data.length ≤ 33) :
    (stationFrame (s.replyBody q code tag a)).length ≤ Config.replyRoom := by
  obtain ⟨rest, hbody, hrest⟩ : ∃ rest, s.replyBody q code tag a = replyCode code :: tag :: byteOf a.result.code :: rest ∧
      rest.length = 4 + a.data.length := by
    refine ⟨[byteOf s.phase.code] ++ s.holderByte ++ [byteOf (s.notices.get q).attention,
      byteOf (bitsOf [(s.port q).overrun, (s.port q).framing, a.clamped])] ++ a.data, by simp [State.replyBody], ?_⟩
    simp only [State.holderByte, List.length_append, List.length_cons, List.length_nil, opt8_length]
  have htail := escapeBytes_length_le (rest ++ crcBytes (framePayload (s.replyBody q code tag a)))
  have h1 := escapeByte_length_le (byteOf (s.replyBody q code tag a).length)
  have h2 := escapeByte_length_le (replyCode code)
  have h3 := escapeByte_length_le tag
  have hframe : (stationFrame (s.replyBody q code tag a)).length = 1 + (escapeByte (byteOf (s.replyBody q code tag a).length)).length
      + (escapeByte (replyCode code)).length + (escapeByte tag).length + 1
      + (escapeBytes (rest ++ crcBytes (framePayload (s.replyBody q code tag a)))).length := by
    rw [stationFrame, List.length_cons]
    conv_lhs => rw [framePayload, hbody]
    simp only [List.cons_append, escapeBytes_cons, escapeByte_result, List.length_append, List.length_cons, List.length_nil,
      framePayload, hbody]
    omega
  simp only [List.length_append, crcBytes_length] at htail
  simp only [Config.replyRoom]
  omega

/-! ### Execution (R165) -/

/-- What holds of the state as it is and of every answered request holds after an execution. -/
theorem State.execute_induction {P : State → Prop} {s : State} {q : PortId} {isCode : Byte → Bool}
    {owner : State → List Byte → State × Answer} (hs : P s)
    (h : ∀ code tag args, s.dueRequest q = some (code, tag, args) → P ((owner s args).1.reply q code tag (owner s args).2)) :
    P (s.execute q isCode owner) := by
  unfold State.execute
  split
  · exact hs
  · next code tag args hdue =>
    split
    · exact h code tag args hdue
    · exact hs

/-- A due request has the room of a reply in the transmit FIFO (R165). -/
theorem State.room_of_dueRequest {s : State} {q : PortId} {x : Byte × Byte × List Byte} (h : s.dueRequest q = some x) :
    (s.port q).tx.length + Config.replyRoom ≤ Config.txSize := by
  unfold State.dueRequest at h
  split at h
  · cases h
  · split at h
    · assumption
    · cases h
  · cases h

/-! ### What every owner leaves alone -/

/-- What an owner's answer `r` to a request in state `s` leaves alone, and the laws that it keeps; its data fit in the reply. -/
structure State.served (s : State) (r : State × Answer) : Prop where
  ports : r.1.ports = s.ports
  power : r.1.power = s.power
  baud : r.1.baud = s.baud
  pending : r.1.pending = s.pending
  authority : s.authorityWell → r.1.authorityWell
  laws : s.keeps r.1
  data : r.2.data.length ≤ 33

namespace State.served

variable {s t : State} {a : Answer}

/-- An owner that only answers. -/
theorem unchanged (ha : a.data.length ≤ 33) : s.served (s, a) :=
  ⟨rfl, rfl, rfl, rfl, id, .refl s, ha⟩

theorem refuse (r : ResultCode) : s.served (s.refuse r) := unchanged (by simp [Answer.plain])

theorem plain (r : ResultCode) : s.served (s, .plain r) := unchanged (by simp [Answer.plain])

/-- An owner whose operations leave the desk alone. -/
theorem of_desk (hd : t.desk = s.desk) (hk : s.keeps t) (ha : a.data.length ≤ 33 := by simp [Answer.plain]) :
    s.served (t, a) where
  ports := State.ports_of_desk hd
  power := State.power_of_desk hd
  baud := State.baud_of_desk hd
  pending := State.pending_of_desk hd
  authority h := by
    have hl : t.lapse = s.lapse := State.lapse_of_desk hd
    have hh : t.holder = s.holder := State.holder_of_desk hd
    simpa only [State.authorityWell, hl, hh] using h
  laws := hk
  data := ha

/-- An owner that changes the roster, the limits or the plan with an operation that leaves the desk alone. -/
theorem of_desk' {u : State} (hd : t.desk = u.desk) (hk : s.keeps t) (hports : u.ports = s.ports := by rfl)
    (hpower : u.power = s.power := by rfl) (hbaud : u.baud = s.baud := by rfl) (hpending : u.pending = s.pending := by rfl)
    (hholder : u.holder = s.holder := by rfl) (hlapse : u.lapse = s.lapse := by rfl)
    (ha : a.data.length ≤ 33 := by simp [Answer.plain]) : s.served (t, a) where
  ports := (State.ports_of_desk hd).trans hports
  power := (State.power_of_desk hd).trans hpower
  baud := (State.baud_of_desk hd).trans hbaud
  pending := (State.pending_of_desk hd).trans hpending
  authority h := by
    have hl : t.lapse = s.lapse := (State.lapse_of_desk hd).trans hlapse
    have hh : t.holder = s.holder := (State.holder_of_desk hd).trans hholder
    simpa only [State.authorityWell, hl, hh] using h
  laws := hk
  data := ha

theorem ite {c : Prop} [Decidable c] {r r' : State × Answer} (h : s.served r) (h' : s.served r') :
    s.served (if c then r else r') := by
  split
  · exact h
  · exact h'

end State.served

/-! ### The owners, chapter by chapter -/

variable (s : State) (q : PortId) (args : List Byte)

/-! #### Reads -/

theorem ownerReadRoster_served : s.served (ownerReadRoster s args) := by
  unfold ownerReadRoster
  split
  · exact .refuse _
  · exact .unchanged (by simp [Answer.doneWith, State.rosterData])

theorem ownerReadColumn_served : s.served (ownerReadColumn s args) := by
  unfold ownerReadColumn
  split
  · exact .refuse _
  · exact .unchanged (by simp [Answer.doneWith, State.columnData])

theorem ownerReadCar_served : s.served (ownerReadCar s args) := by
  unfold ownerReadCar
  split
  · exact .refuse _
  · refine .unchanged ?_
    split <;> simp [Answer.doneWith, State.carSummary, State.carPoints, carPositions]

theorem ownerReadSegment_served : s.served (ownerReadSegment s args) := by
  unfold ownerReadSegment
  split
  · exact .refuse _
  · next g v _ =>
    refine .unchanged ?_
    unfold State.segmentData
    split <;> simp [Answer.doneWith, Segment.lineData, State.dropData, (s.seg g).drops.size]

theorem ownerReadGroup_served : s.served (ownerReadGroup s args) := by
  unfold ownerReadGroup
  split
  · exact .refuse _
  · split
    · exact .of_desk (State.spendFresh_desk s) (State.keeps.refl s).spendFresh (by simp [Answer.doneWith, State.groupData])
    · exact .unchanged (by simp [Answer.doneWith, State.groupData])

theorem ownerReadPlan_served : s.served (ownerReadPlan s args) := by
  unfold ownerReadPlan
  split
  · exact .refuse _
  · exact .unchanged (by simp [Answer.doneWith, State.planData])

theorem ownerReadLimits_served : s.served (ownerReadLimits s args) :=
  .ite (.refuse _) (.unchanged (by simp [Answer.doneWith, State.limitsData_eq]))

theorem ownerReadStop_served : s.served (ownerReadStop s args) :=
  .ite (.refuse _) (.unchanged (by simp [Answer.doneWith, StopUnit.data]))

/-! #### Notices and watches -/

theorem NoticeState.remove_well {n : NoticeState} (c : Category) (h : ∀ k, n.waiting.get k = true → n.enabled.get k = true) :
    ∀ k, (n.remove c).waiting.get k = true → (n.remove c).enabled.get k = true := by
  intro k hk
  simp only [NoticeState.remove, Table.get_set] at hk ⊢
  split at hk
  · cases hk
  · exact h k hk

theorem NoticeState.configure_well {n : NoticeState} (c : Fin 16) (e : Bool) (l : Fin 4)
    (h : ∀ k, n.waiting.get k = true → n.enabled.get k = true) :
    ∀ k, (n.configure c e l).waiting.get k = true → (n.configure c e l).enabled.get k = true := by
  intro k hk
  simp only [NoticeState.configure, Table.get_set] at hk ⊢
  by_cases hc : k = c
  · rw [if_pos hc] at hk ⊢
    exact (Bool.and_eq_true_iff.mp hk).1
  · rw [if_neg hc] at hk ⊢
    exact h k hk

theorem State.keeps.modNotices (f : NoticeState → NoticeState)
    (hf : ∀ n : NoticeState, (∀ k, n.waiting.get k = true → n.enabled.get k = true) →
      ∀ k, (f n).waiting.get k = true → (f n).enabled.get k = true) : s.keeps (s.modNotices q f) where
  notices h x := by
    rw [State.notices_modNotices]
    split
    · exact hf _ (h x)
    · exact h x
  watches := id
  counts := id

theorem State.keeps.modWatch (f : WatchState → WatchState)
    (hf : ∀ w : WatchState, (∀ y, (w.owed.get y = true → w.watched.get y = true) ∧
        ((w.lastSent.get y).isSome = true → w.watched.get y = true)) →
      ∀ y, ((f w).owed.get y = true → (f w).watched.get y = true) ∧
        (((f w).lastSent.get y).isSome = true → (f w).watched.get y = true)) : s.keeps (s.modWatch q f) where
  notices := id
  watches h x := by
    rw [State.watches_modWatch]
    split
    · exact hf _ (h x)
    · exact h x
  counts := id

theorem ownerNoticeNext_served : s.served (ownerNoticeNext q s args) := by
  unfold ownerNoticeNext
  refine .ite (.refuse _) ?_
  split
  · exact .unchanged (by simp [Answer.doneWith])
  · next c _ =>
    refine .of_desk (State.modNotices_desk s q _) (State.keeps.modNotices s q _ fun n => NoticeState.remove_well c) ?_
    have := s.noticeContent_length_le c
    simp only [Answer.doneWith, List.length_append, List.length_cons, List.length_nil]
    omega

theorem ownerNoticeSet_served : s.served (ownerNoticeSet q s args) := by
  unfold ownerNoticeSet
  split
  · exact .refuse _
  · exact .of_desk (State.modNotices_desk s q _) (State.keeps.modNotices s q _ fun n => NoticeState.configure_well _ _ _)

theorem ownerWatch_served : s.served (ownerWatch q s args) := by
  unfold ownerWatch
  split
  · exact .refuse _
  · refine .of_desk (State.modWatch_desk s q _) (State.keeps.modWatch s q _ fun w _ y => ?_)
    simp +contextual [State.newWatch]

theorem ownerUnwatch_served : s.served (ownerUnwatch q s args) := by
  unfold ownerUnwatch
  refine .ite (.refuse _) (.of_desk (State.modWatch_desk s q _) (State.keeps.modWatch s q _ fun w hw y => ?_))
  unfold WatchState.emptied
  split
  · exact hw y
  · simp

/-! #### Authority and stops -/

theorem State.grant_served (a : Answer) (ha : a.data.length ≤ 33) : s.served (s.grant q, a) :=
  ⟨rfl, rfl, rfl, rfl, fun _ => by simp [State.authorityWell, State.grant, State.raise], (State.keeps.refl s).grant q, ha⟩

theorem State.clearHolder_served (a : Answer) (ha : a.data.length ≤ 33) : s.served (s.clearHolder, a) :=
  ⟨rfl, rfl, rfl, rfl, fun _ => by simp [State.authorityWell, State.clearHolder, State.raise], (State.keeps.refl s).clearHolder, ha⟩

theorem ownerClaim_served : s.served (ownerClaim q s args) := by
  unfold ownerClaim
  refine .ite (.refuse _) ?_
  split
  · exact State.grant_served s q _ (by simp [Answer.plain])
  · exact .ite (.plain _) (.refuse _)

theorem ownerYield_served : s.served (ownerYield q s args) :=
  .ite (.refuse _) (.ite (.refuse _) (.ite (State.clearHolder_served s _ (by simp [Answer.plain])) (.plain _)))

theorem ownerStop_served : s.served (ownerStop q s args) :=
  .of_desk (State.offerStop_desk s _) ((State.keeps.refl s).offerStop _)

/-- A choice of two options gives the first, or, where that is none, the second. -/
theorem orElse_eq_some {α : Type} {x y : Option α} {a : α} (h : (x <|> y) = some a) : x = some a ∨ x = none ∧ y = some a := by
  cases x with
  | none => exact .inr ⟨rfl, h⟩
  | some b => exact .inl h

theorem ownerRearm_served : s.served (ownerRearm q s args) := by
  unfold ownerRearm
  split
  · exact .refuse _
  · refine .ite (.refuse _) (.ite (.refuse _) ?_)
    split
    · next a ha =>
      refine .unchanged ?_
      have hfirst : ∀ test r (b : Answer), s.firstWith test r = some b → b.data.length ≤ 33 := by
        intro test r b hb
        simp only [State.firstWith, Option.map_eq_some_iff] at hb
        obtain ⟨p, -, rfl⟩ := hb
        simp [Answer.incomplete]
      have hnot : ∀ b : Answer, (s.firstNotEnrolled.map fun p => Answer.incomplete .dropNotReady (some p)) = some b →
          b.data.length ≤ 33 := by
        intro b hb
        simp only [Option.map_eq_some_iff] at hb
        obtain ⟨p, -, rfl⟩ := hb
        simp [Answer.incomplete]
      unfold State.rearmRefusal at ha
      split at ha
      · simp only [Option.some.injEq] at ha
        subst ha
        simp [Answer.incomplete]
      · rcases orElse_eq_some ha with h | ⟨-, ha⟩
        · exact hnot a h
        · rcases orElse_eq_some ha with h | ⟨-, ha⟩
          · exact hfirst _ _ a h
          · rcases orElse_eq_some ha with h | ⟨-, ha⟩
            · exact hfirst _ _ a h
            · split at ha
              · exact hfirst _ _ a ha
              · cases ha
    · exact .of_desk (State.acceptRearm_desk s) (State.keeps.refl s).acceptRearm

/-! #### The roster and the echo test -/

theorem ownerMap_served : s.served (ownerMap q s args) := by
  have hmap : ∀ a : MapArgs, s.served (s.acceptMap a, .plain .done) := by
    intro a
    refine .of_desk' (u := { s with roster := s.roster.withEntry a.pos (some ⟨a.seg, a.drop, a.serial⟩) }) ?_
      ((State.keeps.refl s).acceptMap a)
    unfold State.acceptMap
    dsimp only
    split <;> simp
  unfold ownerMap
  split
  · exact .refuse _
  · split
    · exact .refuse _
    · split
      · exact hmap _
      · exact .ite (hmap _) (.unchanged (by simp [Answer.conflict]))

theorem ownerUnmap_served : s.served (ownerUnmap q s args) := by
  have hunmap : ∀ p : Pos, s.served (s.acceptUnmap p, .plain .done) := by
    intro p
    refine .of_desk' (u := { s with roster := s.roster.withEntry p none }) ?_ ((State.keeps.refl s).acceptUnmap p)
    unfold State.acceptUnmap
    simp
  unfold ownerUnmap
  split
  · exact .refuse _
  · split
    · exact .refuse _
    · exact .ite (hunmap _) (.plain _)

theorem ownerLink_served : s.served (ownerLink q s args) := by
  unfold ownerLink
  split
  · exact .refuse _
  · split
    · exact .refuse _
    · next k flag _ =>
      exact .of_desk' (State.triggerIfChanged_desk { s with roster := s.roster.withLink k flag } s.roster)
        (((State.keeps.refl s).withRoster _).triggerIfChanged _)

theorem State.acceptConfirm_desk_eq : s.acceptConfirm.desk =
    ({ s with roster := { s.roster with entries := .build s.pinned, confirmed := true } } : State).desk := by
  have hfold : ∀ (l : List Pos) (t : State), (l.foldl State.enrolAt t).desk = t.desk := by
    intro l
    induction l with
    | nil => exact fun _ => rfl
    | cons p l ih => exact fun t => (ih _).trans (State.enrolAt_desk t p)
  have h := hfold (List.finRange 48) { s with roster := { s.roster with entries := .build s.pinned } }
  unfold State.acceptConfirm
  simp only [State.trigger_desk, State.clearLatches_desk]
  simp only [State.desk, Desk.mk.injEq] at h ⊢
  obtain ⟨h1, h2, h3, h4, h5, h6, h7, h8⟩ := h
  exact ⟨h1, h2, h3, h4, h5, by rw [h6], h7, h8⟩

theorem ownerConfirm_served : s.served (ownerConfirm q s args) := by
  unfold ownerConfirm
  split
  · exact .refuse _
  · refine .ite (.refuse _) (.ite (.unchanged (by simp [Answer.incomplete])) ?_)
    split
    · exact .unchanged (by simp [Answer.incomplete])
    · exact .of_desk' s.acceptConfirm_desk_eq (State.keeps.refl s).acceptConfirm

theorem ownerEcho_served : s.served (ownerEcho q s args) := by
  unfold ownerEcho
  refine .ite (.refuse _) ?_
  split
  · exact .refuse _
  · exact .ite (.refuse _) (.ite (.refuse _) (.of_desk (by simp) (((State.keeps.refl s).modSeg _ _).echoRunning _)))

/-! #### The group requests, the jogs and the edits -/

theorem ownerApproach_served : s.served (ownerApproach q s args) := by
  unfold ownerApproach
  split
  · exact .refuse _
  · split
    · next a ha =>
      refine .unchanged ?_
      unfold State.approachRefusal at ha
      repeat' split at ha
      all_goals cases ha
      all_goals simp [Answer.incomplete, Answer.plain]
    · exact .of_desk (by simp) ((State.keeps.refl s).changePhase _)

theorem ownerRun_served : s.served (ownerRun q s args) := by
  unfold ownerRun
  split
  · exact .refuse _
  · exact .ite (.of_desk rfl (State.keeps.refl s).update)
      (.ite (.refuse _) (.of_desk (by simp) (((State.keeps.refl s).startLeg false).testCompletion)))

theorem ownerPause_served : s.served (ownerPause q s args) := by
  unfold ownerPause
  split
  · exact .refuse _
  · exact .ite (.of_desk rfl (State.keeps.refl s).update) (.of_desk (by simp) ((State.keeps.refl s).changePhase _))

theorem ownerSetdown_served : s.served (ownerSetdown q s args) := by
  unfold ownerSetdown
  split
  · exact .refuse _
  · exact .of_desk (by simp) (((State.keeps.refl s).startLeg true).testCompletion)

theorem ownerRetract_served : s.served (ownerRetract q s args) := by
  unfold ownerRetract
  split
  · exact .refuse _
  · exact .of_desk (by simp) ((State.keeps.refl s).changePhase _)

theorem ownerJog_served : s.served (ownerJog q s args) := by
  unfold ownerJog
  split
  · exact .refuse _
  · refine .ite (.refuse _) ?_
    split
    · exact .refuse _
    · refine .ite ?_ (.refuse _)
      dsimp only
      split
      · exact .unchanged (by simp)
      · exact .of_desk (by simp) ((State.keeps.refl s).applyJog _ _) (by simp)

theorem ownerPlanLeg_served : s.served (ownerPlanLeg q s args) := by
  have hplan : ∀ p : Plan, s.keeps { s with plan := p } := fun p => (State.keeps.refl s).update
  unfold ownerPlanLeg
  split
  · exact .refuse _
  · split
    · exact .refuse _
    · split
      · exact .ite (.refuse _) (.of_desk (by simp) (hplan _).trigger (by simp))
      · exact .refuse _

theorem ownerPlanCut_served : s.served (ownerPlanCut q s args) := by
  have hplan : ∀ p : Plan, s.keeps { s with plan := p } := fun p => (State.keeps.refl s).update
  unfold ownerPlanCut
  split
  · exact .refuse _
  · split
    · exact .refuse _
    · exact .ite (.refuse _) (.ite (.plain _) (.of_desk (by simp) (hplan _).trigger))

theorem ownerLimitSet_served : s.served (ownerLimitSet q s args) := by
  have hlimits : ∀ l, s.keeps { s with limits := l } := fun l => (State.keeps.refl s).update
  unfold ownerLimitSet
  split
  · exact .refuse _
  · refine .ite (.refuse _) ?_
    split
    · exact .refuse _
    · next i v _ =>
      refine .ite ?_ (.refuse _)
      split
      · exact .unchanged (by simp)
      · exact .of_desk' (State.trigger_desk { s with limits := s.limits.set i (clampLimit i v) }) (hlimits _).trigger
          (ha := by simp)

theorem ownerUnknown_served : s.served (ownerUnknown s args) := .refuse _

end Sys2Proof.Machine

/-! O58 and O2: the bounds of a port through every operation on it, and the laws of the stations through every command. -/

namespace Sys2Proof.Machine

set_option Elab.async false

/-! ### The bounds of one port -/

/-- A port within its FIFO bounds, with its flow control and its held request in order (R160 to R164). -/
structure Port.bounded (x : Port) : Prop where
  rx : x.rx.length ≤ Config.rxSize
  tx : x.tx.length ≤ Config.txSize
  released : x.inboundHeld = false → x.rx.length < Config.holdFill
  paused : x.inboundHeld = true → Config.goFill < x.rx.length
  held : ∀ body ∈ x.held, 2 ≤ body.length ∧ body.length ≤ 40

/-- The laws of the ports, port by port. -/
theorem State.ports_bounded_iff (s : State) :
    (s.fifosBounded ∧ s.flowControlled ∧ s.heldBounded) ↔ ∀ q, (s.port q).bounded := by
  constructor
  · rintro ⟨hfifo, hflow, hheld⟩ q
    exact ⟨(hfifo q).1, (hfifo q).2, (hflow q).1, (hflow q).2, hheld q⟩
  · intro h
    exact ⟨fun q => ⟨(h q).rx, (h q).tx⟩, fun q => ⟨(h q).released, (h q).paused⟩, fun q => (h q).held⟩

theorem State.modPort_bounded {s : State} {q : PortId} {f : Port → Port} (hf : (s.port q).bounded → (f (s.port q)).bounded)
    (h : ∀ x, (s.port x).bounded) : ∀ x, ((s.modPort q f).port x).bounded := by
  intro x
  rw [State.port_modPort]
  split
  · next e => subst e; exact hf (h x)
  · exact h x

theorem State.modRunningPort_bounded {s : State} {q : PortId} {f : Port → Port} (hf : (s.port q).bounded → (f (s.port q)).bounded)
    (h : ∀ x, (s.port x).bounded) : ∀ x, ((s.modRunningPort q f).port x).bounded := by
  unfold State.modRunningPort
  split
  · exact h
  all_goals exact State.modPort_bounded hf h

/-- A stored byte keeps the bounds: a fill that reaches 48 sets the flag, which is clear only below (R160, R163). -/
theorem Port.receive_bounded {x : Port} (b : RxByte) (h : x.bounded) : (x.receive b).bounded := by
  obtain ⟨hrx, htx, hrel, hpau, hheld⟩ := h
  unfold Port.receive
  split
  · next hroom =>
    have hlen : (x.rx ++ [b]).length = x.rx.length + 1 := by simp
    have hfits : (x.rx ++ [b]).length ≤ Config.rxSize := by omega
    unfold Port.fillRose
    split
    · next hfill =>
      have hfull := hfill.1
      refine ⟨hfits, htx, nofun, fun _ => ?_, hheld⟩
      exact Nat.lt_of_lt_of_le (by decide : Config.goFill < Config.holdFill) hfull
    · next hfill =>
      refine ⟨hfits, htx, fun hin => Nat.lt_of_not_le fun hle => hfill ⟨hle, hin⟩, fun hin => ?_, hheld⟩
      exact (hpau hin).trans (by simp)
  · exact ⟨hrx, htx, hrel, hpau, hheld⟩

theorem Port.nextCharacter_bounded {x : Port} (h : x.bounded) : x.nextCharacter.bounded := by
  obtain ⟨hrx, htx, hrel, hpau, hheld⟩ := h
  unfold Port.nextCharacter
  split
  · exact ⟨hrx, htx, hrel, hpau, hheld⟩
  · split
    · exact ⟨hrx, htx, hrel, hpau, hheld⟩
    · split
      · next b rest htail =>
        have hlen : rest.length ≤ Config.txSize := by
          rw [htail, List.length_cons] at htx
          omega
        exact ⟨hrx, hlen, hrel, hpau, hheld⟩
      · exact ⟨hrx, htx, hrel, hpau, hheld⟩

/-! ### The assembler -/

/-- A gathered frame is valid with a body of 2 to 40 bytes alone (R161). -/
theorem checkGathered_valid {values body : List Byte} (h : checkGathered values = .valid body) :
    2 ≤ body.length ∧ body.length ≤ 40 := by
  unfold checkGathered at h
  split at h
  · cases h
  · next len rest =>
    split at h
    · cases h
    · next hlen =>
      split at h
      · cases h
      · next hlong =>
        split at h
        · simp only [Gathering.valid.injEq] at h
          subst h
          rw [List.length_take]
          omega
        · cases h

theorem Assembler.onRxByte_valid {a : Assembler} {b : RxByte} {body : List Byte} (h : a.onRxByte b = .valid body) :
    2 ≤ body.length ∧ body.length ≤ 40 := by
  unfold Assembler.onRxByte at h
  split at h
  · cases h
  · unfold Assembler.onByte at h
    split at h
    · split at h <;> cases h
    · split at h
      · cases h
      · split at h
        · split at h
          · exact checkGathered_valid h
          · cases h
        · split at h
          · cases h
          · exact checkGathered_valid h

/-- What the assembler makes of a port leaves its FIFOs and its flow control alone. -/
theorem Port.gathered_fifos (x : Port) (g : Gathering) :
    (x.gathered g).rx = x.rx ∧ (x.gathered g).tx = x.tx ∧ (x.gathered g).inboundHeld = x.inboundHeld := by
  cases g <;> exact ⟨rfl, rfl, rfl⟩

theorem Port.gathered_held {x : Port} {g : Gathering} {body : List Byte} (h : body ∈ (x.gathered g).held) :
    body ∈ x.held ∨ g = .valid body := by
  cases g with
  | goesOn a => exact .inl h
  | discards a => exact .inl h
  | valid b =>
    simp only [Port.gathered, Option.mem_def, Option.some.injEq] at h
    exact .inr (h ▸ rfl)

/-- A taken byte keeps the bounds: a fill that falls to 16 clears the flag, which is set only above (R161 to R163). -/
theorem Port.taken_bounded {x : Port} {b : RxByte} {rest : List RxByte} (hrest : x.rx = b :: rest) (h : x.bounded) :
    (({ x with rx := rest } : Port).gathered (x.assembler.onRxByte b)).fillFell.bounded := by
  obtain ⟨hrx, htx, hrel, hpau, hheld⟩ := h
  obtain ⟨hr, ht, hi⟩ := Port.gathered_fifos { x with rx := rest } (x.assembler.onRxByte b)
  have hbody : ∀ body ∈ (({ x with rx := rest } : Port).gathered (x.assembler.onRxByte b)).held,
      2 ≤ body.length ∧ body.length ≤ 40 := fun body hb =>
    (Port.gathered_held hb).elim (hheld body) Assembler.onRxByte_valid
  rw [hrest, List.length_cons] at hrx hrel
  dsimp only at hr ht hi
  unfold Port.fillFell
  split
  · next hfell =>
    refine ⟨by dsimp only; rw [hr]; omega, by dsimp only; rw [ht]; exact htx, fun _ => ?_, nofun, hbody⟩
    have := hfell.1
    dsimp only
    simp only [Config.holdFill, Config.goFill] at *
    omega
  · next hstays =>
    refine ⟨by rw [hr]; omega, by rw [ht]; exact htx, fun hin => ?_, fun hin => ?_, hbody⟩
    · rw [hr]
      have := hrel (hi ▸ hin)
      omega
    · exact Nat.lt_of_not_le fun hle => hstays ⟨hle, hin⟩

theorem State.restartLapse_ports (s : State) (q : PortId) (g : Gathering) : (s.restartLapse q g).ports = s.ports := by
  unfold State.restartLapse
  split
  · split <;> rfl
  all_goals rfl

theorem State.assemble_bounded {s : State} (q : PortId) (h : ∀ x, (s.port x).bounded) : ∀ x, ((s.assemble q).port x).bounded := by
  unfold State.assemble
  split
  · exact h
  · next b rest _ hrest _ =>
    intro x
    rw [State.port_congr (State.restartLapse_ports _ q _)]
    exact State.modPort_bounded (Port.taken_bounded hrest) h x
  · exact h

/-! ### Replies and updates -/

/-- A reply with up to 33 data bytes finds its room in the transmit FIFO, and leaves no request held (R165). -/
theorem State.reply_bounded {s : State} {q : PortId} (code tag : Byte) {a : Answer} (ha : a.data.length ≤ 33)
    (hroom : (s.port q).tx.length + Config.replyRoom ≤ Config.txSize) (h : ∀ x, (s.port x).bounded) :
    ∀ x, ((s.reply q code tag a).port x).bounded := by
  refine State.modPort_bounded (fun hq => ⟨hq.rx, ?_, hq.released, hq.paused, nofun⟩) h
  have hframe := s.replyFrame_length_le q code tag a ha
  simp only [List.length_append]
  omega

/-- An update frame finds its room in the transmit FIFO (R168). -/
theorem State.update_bounded {s : State} (q : PortId) (h : ∀ x, (s.port x).bounded) : ∀ x, ((s.update q).port x).bounded := by
  unfold State.update
  split
  · exact h
  · next p _ _ _ =>
    split
    · next hroom =>
      refine State.modPort_bounded (s := s) (fun hq => ⟨hq.rx, ?_, hq.released, hq.paused, hq.held⟩) h
      have hframe := stationFrame_length_le (updateBody p (s.col p).sent)
      have hbody : (updateBody p (s.col p).sent).length = 7 := by simp [updateBody]
      simp only [List.length_append, Config.updateRoom, Config.txSize] at hroom ⊢
      omega
    · exact h
  · exact h

/-- A served position leaves the owed set, and it was watched when it was owed (R184). -/
theorem WatchState.served_well {w : WatchState} {p : Pos} (k : Sent) (hp : w.owed.get p = true)
    (h : ∀ y, (w.owed.get y = true → w.watched.get y = true) ∧ ((w.lastSent.get y).isSome = true → w.watched.get y = true)) :
    ∀ y, ((w.served p k).owed.get y = true → (w.served p k).watched.get y = true) ∧
      (((w.served p k).lastSent.get y).isSome = true → (w.served p k).watched.get y = true) := by
  intro y
  simp only [WatchState.served, Table.get_set]
  constructor
  · intro hy
    split at hy
    · cases hy
    · exact (h y).1 hy
  · intro hy
    split at hy
    · next e => exact e ▸ (h p).1 hp
    · exact (h y).2 hy

theorem WatchState.owed_of_nextOwed {w : WatchState} {p : Pos} (h : w.nextOwed = some p) : w.owed.get p = true := by
  unfold WatchState.nextOwed at h
  exact List.find?_some h

theorem State.update_keeps (s : State) (q : PortId) : s.keeps (s.update q) := by
  unfold State.update
  split
  · exact .refl s
  · next p _ hp _ =>
    split
    · refine ⟨id, fun hw x => ?_, id⟩
      unfold State.serve
      rw [State.watches_modWatch]
      split
      · next e =>
        subst e
        exact WatchState.served_well _ (WatchState.owed_of_nextOwed hp) (hw x)
      · exact hw x
    · exact .refl s
  · exact .refl s

/-! ### The laws of the stations together -/

theorem State.stationsSafe_iff (s : State) :
    s.stationsSafe ↔ (∀ q, (s.port q).bounded) ∧ s.authorityWell ∧ s.noticesWell ∧ s.watchesWell := by
  rw [← State.ports_bounded_iff]
  simp only [State.stationsSafe, and_assoc]

/-- What leaves the ports and the authority alone and keeps the laws of the notices and the watches keeps those of the stations. -/
theorem State.stationsSafe_of_keeps {s t : State} (hports : t.ports = s.ports) (hlapse : t.lapse = s.lapse)
    (hholder : t.holder = s.holder) (hk : s.keeps t) (h : s.stationsSafe) : t.stationsSafe := by
  rw [State.stationsSafe_iff] at h ⊢
  obtain ⟨hp, ha, hn, hw⟩ := h
  refine ⟨fun q => ?_, ?_, hk.notices hn, hk.watches hw⟩
  · rw [State.port_congr hports]
    exact hp q
  · simpa only [State.authorityWell, hlapse, hholder] using ha

theorem State.stationsSafe_of_desk {s t : State} (hd : t.desk = s.desk) (hk : s.keeps t) (h : s.stationsSafe) : t.stationsSafe :=
  State.stationsSafe_of_keeps (State.ports_of_desk hd) (State.lapse_of_desk hd) (State.holder_of_desk hd) hk h

/-- The execution of a request keeps the laws of the stations. -/
theorem State.execute_stationsSafe {s : State} (q : PortId) (isCode : Byte → Bool) {owner : State → List Byte → State × Answer}
    (hserved : ∀ args, s.served (owner s args)) (h : s.stationsSafe) : (s.execute q isCode owner).stationsSafe := by
  refine State.execute_induction (P := State.stationsSafe) h fun code tag args hdue => ?_
  have hs := hserved args
  rw [State.stationsSafe_iff] at h ⊢
  obtain ⟨hp, ha, hn, hw⟩ := h
  have hroom := State.room_of_dueRequest hdue
  rw [← State.port_congr hs.ports] at hroom
  refine ⟨State.reply_bounded code tag hs.data hroom fun x => ?_, hs.authority ha, hs.laws.notices hn, hs.laws.watches hw⟩
  rw [State.port_congr hs.ports]
  exact hp x

theorem State.takeClaim_stationsSafe {s : State} (q : PortId) (h : s.stationsSafe) : (s.takeClaim q).stationsSafe :=
  State.execute_stationsSafe q _ (ownerClaim_served s q) h

/-- What every CLAIM of a port keeps holds after the CLAIMs that are due at one moment (R170). -/
theorem State.claim_induction {P : State → Prop} (htake : ∀ s q, P s → P (s.takeClaim q)) {s : State} (q : PortId) (h : P s) :
    P (s.claim q) := by
  have hfold : ∀ (l : List PortId) (t : State), P t → P (l.foldl State.takeClaim t) := by
    intro l
    induction l with
    | nil => exact fun _ => id
    | cons x l ih => exact fun t ht => ih _ (htake t x ht)
  unfold State.claim
  split
  · exact htake _ q (hfold _ s h)
  · exact h

/-- A change of one running port that keeps its bounds keeps the laws of the stations. -/
theorem State.modRunningPort_stationsSafe {s : State} {q : PortId} {f : Port → Port}
    (hf : (s.port q).bounded → (f (s.port q)).bounded) (h : s.stationsSafe) : (s.modRunningPort q f).stationsSafe := by
  have hk := (State.keeps.refl s).modRunningPort q f
  rw [State.stationsSafe_iff] at h ⊢
  obtain ⟨hp, ha, hn, hw⟩ := h
  refine ⟨State.modRunningPort_bounded hf hp, ?_, hk.notices hn, hk.watches hw⟩
  unfold State.modRunningPort
  split
  · exact ha
  all_goals exact ha

theorem State.byteReceived_stationsSafe {s : State} (q : PortId) (v : Byte) (f : Bool) (h : s.stationsSafe) :
    (s.byteReceived q v f).stationsSafe := by
  unfold State.byteReceived
  split
  · exact State.modRunningPort_stationsSafe (fun hq => ⟨hq.rx, hq.tx, hq.released, hq.paused, hq.held⟩) h
  · split
    · exact State.modRunningPort_stationsSafe (fun hq => ⟨hq.rx, hq.tx, hq.released, hq.paused, hq.held⟩) h
    · split
      · exact State.stationsSafe_of_desk (State.stopByte_desk s q) ((State.keeps.refl s).stopByte q) h
      · exact State.modRunningPort_stationsSafe (Port.receive_bounded _) h

theorem State.assemble_stationsSafe {s : State} (q : PortId) (h : s.stationsSafe) : (s.assemble q).stationsSafe := by
  have hk := (State.keeps.refl s).assemble q
  rw [State.stationsSafe_iff] at h ⊢
  obtain ⟨hp, ha, hn, hw⟩ := h
  refine ⟨State.assemble_bounded q hp, ?_, hk.notices hn, hk.watches hw⟩
  unfold State.assemble
  split
  · exact ha
  · unfold State.restartLapse
    split
    · split
      · next hholder => simp [State.authorityWell, show s.holder = some q from hholder]
      · exact ha
    all_goals exact ha
  · exact ha

theorem State.lapseExpiry_stationsSafe {s : State} (h : s.stationsSafe) : s.lapseExpiry.stationsSafe := by
  have hclear : s.clearHolder.stationsSafe := by
    have hk := (State.keeps.refl s).clearHolder
    rw [State.stationsSafe_iff] at h ⊢
    obtain ⟨hp, -, hn, hw⟩ := h
    exact ⟨hp, by simp [State.authorityWell, State.clearHolder, State.raise], hk.notices hn, hk.watches hw⟩
  unfold State.lapseExpiry
  split
  · exact h
  · split
    · exact State.stationsSafe_of_desk (State.offerStop_desk _ _) ((State.keeps.refl _).offerStop _) hclear
    · exact hclear

theorem State.powerOnReset_stationsSafe (s : State) (level : Contact) : (s.powerOnReset level).stationsSafe := by
  rw [State.stationsSafe_iff]
  refine ⟨fun q => ?_, by simp [State.authorityWell, State.powerOnReset, State.reset], fun q c => ?_, fun q p => ?_⟩
  · have hq : (s.powerOnReset level).port q = .initial := Table.get_fill _ _
    rw [hq]
    exact ⟨by simp [Port.initial], by simp [Port.initial], fun _ => by simp [Port.initial, Config.holdFill], nofun, nofun⟩
  · simp [State.powerOnReset, State.reset, NoticeState.initial]
  · simp [State.powerOnReset, State.reset, WatchState.initial]

/-! ### The start-up commands and the desk -/

/-- The end of the reading leaves the ports, the authority and the queue alone. -/
theorem State.imageReadEnd_doors (s : State) (r : MemoryReading) :
    (s.imageReadEnd r).ports = s.ports ∧ (s.imageReadEnd r).lapse = s.lapse ∧ (s.imageReadEnd r).holder = s.holder ∧
      (s.imageReadEnd r).pending = s.pending ∧ (s.imageReadEnd r).baud = s.baud := by
  have htake : ∀ (t : State) (ph : Phase), (t.takePhase ph).desk = t.desk := by
    intro t ph
    unfold State.takePhase
    split
    · rfl
    all_goals exact State.firstStop_desk _ _
  unfold State.imageReadEnd
  split
  · next hp =>
    have hd := htake (({ s with power := .running, retention := { s.retention with status := (readImage r).1 } } : State).restore
      ((readImage r).2.getD .default)) ((readImage r).2.getD .default).phase
    exact ⟨(State.ports_of_desk hd :), (State.lapse_of_desk hd :), (State.holder_of_desk hd :), (State.pending_of_desk hd :),
      (State.baud_of_desk hd :)⟩
  all_goals exact ⟨rfl, rfl, rfl, rfl, rfl⟩

theorem State.writeEnd_desk (s : State) (o : WriteOutcome) : (s.writeEnd o).desk = s.desk := by
  unfold State.writeEnd
  split
  · rfl
  · unfold State.afterWrite State.noteWrite
    dsimp only
    split <;> rfl

theorem State.resetRelease_stationsSafe {s : State} (b a : Bool) (h : s.stationsSafe) : (s.resetRelease b a).stationsSafe := by
  unfold State.resetRelease
  split
  · exact h
  all_goals exact h

/-- The laws of the stations through every command. -/
theorem exec_stationsSafe {i : Instr} {s t : State} (h : s.stationsSafe) (he : exec i s = .next t) : t.stationsSafe := by
  have hk := State.keeps.refl s
  cases i <;> obtain rfl := Host.Outcome.next.inj he
  case powerOnReset level => exact s.powerOnReset_stationsSafe level
  case resetRelease b a => exact State.resetRelease_stationsSafe b a h
  case imageReadEnd r =>
    obtain ⟨hports, hlapse, hholder, -⟩ := s.imageReadEnd_doors r
    exact State.stationsSafe_of_keeps hports hlapse hholder (hk.imageReadEnd r) h
  case writeEnd o => exact State.stationsSafe_of_desk (s.writeEnd_desk o) (hk.writeEnd o) h
  case stationByteReceived q v f => exact State.byteReceived_stationsSafe q v f h
  case hold q => exact State.modRunningPort_stationsSafe (fun hq => ⟨hq.rx, hq.tx, hq.released, hq.paused, hq.held⟩) h
  case go q => exact State.modRunningPort_stationsSafe (fun hq => ⟨hq.rx, hq.tx, hq.released, hq.paused, hq.held⟩) h
  case stopByte q => exact State.stationsSafe_of_desk (s.stopByte_desk q) (hk.stopByte q) h
  case frameAssemblerTake q => exact State.assemble_stationsSafe q h
  case transmitCharacter q => exact State.modRunningPort_stationsSafe Port.nextCharacter_bounded h
  case updateFrame q =>
    have hu := s.update_keeps q
    rw [State.stationsSafe_iff] at h ⊢
    obtain ⟨hp, ha, hn, hw⟩ := h
    refine ⟨State.update_bounded q hp, ?_, hu.notices hn, hu.watches hw⟩
    unfold State.update
    repeat' split
    all_goals exact ha
  case unknown q => exact State.execute_stationsSafe q _ (ownerUnknown_served s) h
  case readRoster q => exact State.execute_stationsSafe q _ (ownerReadRoster_served s) h
  case readColumn q => exact State.execute_stationsSafe q _ (ownerReadColumn_served s) h
  case readCar q => exact State.execute_stationsSafe q _ (ownerReadCar_served s) h
  case readSegment q => exact State.execute_stationsSafe q _ (ownerReadSegment_served s) h
  case readGroup q => exact State.execute_stationsSafe q _ (ownerReadGroup_served s) h
  case readPlan q => exact State.execute_stationsSafe q _ (ownerReadPlan_served s) h
  case readLimits q => exact State.execute_stationsSafe q _ (ownerReadLimits_served s) h
  case readStop q => exact State.execute_stationsSafe q _ (ownerReadStop_served s) h
  case noticeNext q => exact State.execute_stationsSafe q _ (ownerNoticeNext_served s q) h
  case noticeSet q => exact State.execute_stationsSafe q _ (ownerNoticeSet_served s q) h
  case watch q => exact State.execute_stationsSafe q _ (ownerWatch_served s q) h
  case unwatch q => exact State.execute_stationsSafe q _ (ownerUnwatch_served s q) h
  case claim q => exact State.claim_induction (P := State.stationsSafe) (fun _ q => State.takeClaim_stationsSafe q) q h
  case yield q => exact State.execute_stationsSafe q _ (ownerYield_served s q) h
  case stop q => exact State.execute_stationsSafe q _ (ownerStop_served s q) h
  case map q => exact State.execute_stationsSafe q _ (ownerMap_served s q) h
  case unmap q => exact State.execute_stationsSafe q _ (ownerUnmap_served s q) h
  case link q => exact State.execute_stationsSafe q _ (ownerLink_served s q) h
  case confirm q => exact State.execute_stationsSafe q _ (ownerConfirm_served s q) h
  case echo q => exact State.execute_stationsSafe q _ (ownerEcho_served s q) h
  case approach q => exact State.execute_stationsSafe q _ (ownerApproach_served s q) h
  case run q => exact State.execute_stationsSafe q _ (ownerRun_served s q) h
  case pause q => exact State.execute_stationsSafe q _ (ownerPause_served s q) h
  case setdown q => exact State.execute_stationsSafe q _ (ownerSetdown_served s q) h
  case retract q => exact State.execute_stationsSafe q _ (ownerRetract_served s q) h
  case jog q => exact State.execute_stationsSafe q _ (ownerJog_served s q) h
  case rearm q => exact State.execute_stationsSafe q _ (ownerRearm_served s q) h
  case planLeg q => exact State.execute_stationsSafe q _ (ownerPlanLeg_served s q) h
  case planCut q => exact State.execute_stationsSafe q _ (ownerPlanCut_served s q) h
  case limitSet q => exact State.execute_stationsSafe q _ (ownerLimitSet_served s q) h
  case lapseTimerExpiry => exact State.lapseExpiry_stationsSafe h
  case stopInOpen => exact State.stationsSafe_of_desk s.stopInOpens_desk hk.stopInOpens h
  case stopInClose => exact h
  case pollCycleTimerExpiry g => exact State.stationsSafe_of_desk (s.pollExpiry_desk g) (hk.pollExpiry g) h
  case command g => exact State.stationsSafe_of_desk (s.sendCommand_desk g) (hk.sendCommand g) h
  case segmentLineByte g v => exact h
  case statusArrival g f => exact State.stationsSafe_of_desk (s.statusArrival_desk g f) (hk.statusArrival g f) h
  case replyWindowClose g => exact State.stationsSafe_of_desk (s.windowClose_desk g) (hk.windowClose g) h
  case allstop g => exact State.stationsSafe_of_desk (s.allstop_desk g) (hk.allstop g) h
  case quietEntryTimerExpiry g => exact State.stationsSafe_of_desk (s.quietExpiry_desk g) (hk.quietExpiry g) h
  case settleTimerExpiry g d => exact State.stationsSafe_of_desk (s.settleExpiry_desk g d) (hk.settleExpiry g d) h
  case echoTestRunning g => exact State.stationsSafe_of_desk (s.echoRunning_desk g) (hk.echoRunning g) h
  case echoPulse g r => exact h
  case echoTestEnd g => exact State.stationsSafe_of_desk (s.echoEnd_desk g) (hk.echoEnd g) h
  case referenceStepTimerExpiry => exact State.stationsSafe_of_desk s.referenceStep_desk hk.referenceStep h
  case dwellTimerExpiry => exact State.stationsSafe_of_desk s.dwellExpiry_desk hk.dwellExpiry h

/-- A step is the execution of the front command on the state with the queue's rest, or idles. -/
theorem step_cases {s t : State} (h : step s = .next t) :
    t = s ∨ ∃ c rest, s.pending = c :: rest ∧ exec c { s with pending := rest } = .next t := by
  unfold step at h
  split at h
  · exact .inl (Host.Outcome.next.inj h).symm
  · next c rest hp => exact .inr ⟨c, rest, hp, h⟩

/-- Settles O58: the laws of the stations through the command that the step takes. -/
theorem stepKeepsStationLaws : Obligations.StepKeepsStationLaws := by
  unfold Obligations.StepKeepsStationLaws
  intro s t hs hstep
  rcases step_cases hstep with rfl | ⟨c, rest, -, he⟩
  · exact hs
  · exact exec_stationsSafe (s := { s with pending := rest }) hs he

end Sys2Proof.Machine

/-! O1, O2 and O21: the step, what every command leaves alone, and a raise. -/

namespace Sys2Proof.Machine

set_option Elab.async false

/-- Settles O1, by the two cases of the queue. -/
theorem stepTakesFrontCommand : Obligations.StepTakesFrontCommand := by
  unfold Obligations.StepTakesFrontCommand
  intro s
  constructor
  · intro c rest h
    simp [step, h]
  · intro h
    simp [step, h]

/-- Settles O21: a raise is one update of every station's notice state. -/
theorem raiseReachesEnabledStations : Obligations.RaiseReachesEnabledStations := by
  unfold Obligations.RaiseReachesEnabledStations
  intro s c
  refine ⟨rfl, fun q => ?_⟩
  rw [State.notices_raise]
  unfold NoticeState.raised
  split
  · next hc =>
    refine ⟨rfl, rfl, fun k => ?_⟩
    rw [Table.get_set]
    split
    · next hk => subst hk; simp [hc]
    · next hk => simp [hk]
  · next hc =>
    refine ⟨rfl, rfl, fun k => ⟨.inl, fun h => h.elim id fun ⟨hk, he⟩ => absurd (hk ▸ he) hc⟩⟩

/-! ### What every command leaves alone (sections 9.1 and 11.1) -/

/-- From `s` to `t` the queue, the baud rate and the power state stay. -/
structure State.standsBy (s t : State) : Prop where
  pending : t.pending = s.pending
  baud : t.baud = s.baud
  power : t.power = s.power

theorem State.standsBy_of_desk {s t : State} (h : t.desk = s.desk) : s.standsBy t :=
  ⟨State.pending_of_desk h, State.baud_of_desk h, State.power_of_desk h⟩

theorem State.execute_standsBy {s : State} (q : PortId) (isCode : Byte → Bool) {owner : State → List Byte → State × Answer}
    (hserved : ∀ args, s.served (owner s args)) : s.standsBy (s.execute q isCode owner) :=
  State.execute_induction ⟨rfl, rfl, rfl⟩ fun _ _ args _ =>
    ⟨(hserved args).pending, (hserved args).baud, (hserved args).power⟩

theorem State.modRunningPort_standsBy (s : State) (q : PortId) (f : Port → Port) : s.standsBy (s.modRunningPort q f) := by
  unfold State.modRunningPort
  split <;> exact ⟨rfl, rfl, rfl⟩

theorem State.byteReceived_standsBy (s : State) (q : PortId) (v : Byte) (f : Bool) : s.standsBy (s.byteReceived q v f) := by
  unfold State.byteReceived
  split
  · exact s.modRunningPort_standsBy q _
  · split
    · exact s.modRunningPort_standsBy q _
    · split
      · exact State.standsBy_of_desk (s.stopByte_desk q)
      · exact s.modRunningPort_standsBy q _

theorem State.assemble_standsBy (s : State) (q : PortId) : s.standsBy (s.assemble q) := by
  unfold State.assemble State.restartLapse
  repeat' split
  all_goals exact ⟨rfl, rfl, rfl⟩

theorem State.update_standsBy (s : State) (q : PortId) : s.standsBy (s.update q) := by
  unfold State.update
  repeat' split
  all_goals exact ⟨rfl, rfl, rfl⟩

theorem State.claim_standsBy (s : State) (q : PortId) : s.standsBy (s.claim q) := by
  refine State.claim_induction (P := s.standsBy) (fun t q ⟨h1, h2, h3⟩ => ?_) q ⟨rfl, rfl, rfl⟩
  obtain ⟨h4, h5, h6⟩ := State.execute_standsBy (s := t) q (fun c => decide (c = Request.claim.code)) (ownerClaim_served t q)
  exact ⟨h4.trans h1, h5.trans h2, h6.trans h3⟩

theorem State.lapseExpiry_standsBy (s : State) : s.standsBy s.lapseExpiry := by
  unfold State.lapseExpiry
  split
  · exact ⟨rfl, rfl, rfl⟩
  · split
    · have hd := State.offerStop_desk s.clearHolder (plainOffer .authorityLapse s.holder)
      exact ⟨(State.pending_of_desk hd :), (State.baud_of_desk hd :), (State.power_of_desk hd :)⟩
    · exact ⟨rfl, rfl, rfl⟩

/-- Every command but those of start-up leaves the queue, the baud rate and the power state alone. -/
theorem exec_standsBy {c : Instr} {s t : State} (hreset : ∀ l, c ≠ .powerOnReset l) (hrelease : ∀ b a, c ≠ .resetRelease b a)
    (hread : ∀ r, c ≠ .imageReadEnd r) (he : exec c s = .next t) : s.standsBy t := by
  cases c <;> obtain rfl := Host.Outcome.next.inj he
  case powerOnReset l => exact absurd rfl (hreset l)
  case resetRelease b a => exact absurd rfl (hrelease b a)
  case imageReadEnd r => exact absurd rfl (hread r)
  case writeEnd o => exact State.standsBy_of_desk (s.writeEnd_desk o)
  case stationByteReceived q v f => exact s.byteReceived_standsBy q v f
  case hold q => exact s.modRunningPort_standsBy q _
  case go q => exact s.modRunningPort_standsBy q _
  case stopByte q => exact State.standsBy_of_desk (s.stopByte_desk q)
  case frameAssemblerTake q => exact s.assemble_standsBy q
  case transmitCharacter q => exact s.modRunningPort_standsBy q _
  case updateFrame q => exact s.update_standsBy q
  case unknown q => exact State.execute_standsBy q _ (ownerUnknown_served s)
  case readRoster q => exact State.execute_standsBy q _ (ownerReadRoster_served s)
  case readColumn q => exact State.execute_standsBy q _ (ownerReadColumn_served s)
  case readCar q => exact State.execute_standsBy q _ (ownerReadCar_served s)
  case readSegment q => exact State.execute_standsBy q _ (ownerReadSegment_served s)
  case readGroup q => exact State.execute_standsBy q _ (ownerReadGroup_served s)
  case readPlan q => exact State.execute_standsBy q _ (ownerReadPlan_served s)
  case readLimits q => exact State.execute_standsBy q _ (ownerReadLimits_served s)
  case readStop q => exact State.execute_standsBy q _ (ownerReadStop_served s)
  case noticeNext q => exact State.execute_standsBy q _ (ownerNoticeNext_served s q)
  case noticeSet q => exact State.execute_standsBy q _ (ownerNoticeSet_served s q)
  case watch q => exact State.execute_standsBy q _ (ownerWatch_served s q)
  case unwatch q => exact State.execute_standsBy q _ (ownerUnwatch_served s q)
  case claim q => exact s.claim_standsBy q
  case yield q => exact State.execute_standsBy q _ (ownerYield_served s q)
  case stop q => exact State.execute_standsBy q _ (ownerStop_served s q)
  case map q => exact State.execute_standsBy q _ (ownerMap_served s q)
  case unmap q => exact State.execute_standsBy q _ (ownerUnmap_served s q)
  case link q => exact State.execute_standsBy q _ (ownerLink_served s q)
  case confirm q => exact State.execute_standsBy q _ (ownerConfirm_served s q)
  case echo q => exact State.execute_standsBy q _ (ownerEcho_served s q)
  case approach q => exact State.execute_standsBy q _ (ownerApproach_served s q)
  case run q => exact State.execute_standsBy q _ (ownerRun_served s q)
  case pause q => exact State.execute_standsBy q _ (ownerPause_served s q)
  case setdown q => exact State.execute_standsBy q _ (ownerSetdown_served s q)
  case retract q => exact State.execute_standsBy q _ (ownerRetract_served s q)
  case jog q => exact State.execute_standsBy q _ (ownerJog_served s q)
  case rearm q => exact State.execute_standsBy q _ (ownerRearm_served s q)
  case planLeg q => exact State.execute_standsBy q _ (ownerPlanLeg_served s q)
  case planCut q => exact State.execute_standsBy q _ (ownerPlanCut_served s q)
  case limitSet q => exact State.execute_standsBy q _ (ownerLimitSet_served s q)
  case lapseTimerExpiry => exact s.lapseExpiry_standsBy
  case stopInOpen => exact State.standsBy_of_desk s.stopInOpens_desk
  case stopInClose => exact ⟨rfl, rfl, rfl⟩
  case pollCycleTimerExpiry g => exact State.standsBy_of_desk (s.pollExpiry_desk g)
  case command g => exact State.standsBy_of_desk (s.sendCommand_desk g)
  case segmentLineByte g v => exact ⟨rfl, rfl, rfl⟩
  case statusArrival g f => exact State.standsBy_of_desk (s.statusArrival_desk g f)
  case replyWindowClose g => exact State.standsBy_of_desk (s.windowClose_desk g)
  case allstop g => exact State.standsBy_of_desk (s.allstop_desk g)
  case quietEntryTimerExpiry g => exact State.standsBy_of_desk (s.quietExpiry_desk g)
  case settleTimerExpiry g d => exact State.standsBy_of_desk (s.settleExpiry_desk g d)
  case echoTestRunning g => exact State.standsBy_of_desk (s.echoRunning_desk g)
  case echoPulse g r => exact ⟨rfl, rfl, rfl⟩
  case echoTestEnd g => exact State.standsBy_of_desk (s.echoEnd_desk g)
  case referenceStepTimerExpiry => exact State.standsBy_of_desk s.referenceStep_desk
  case dwellTimerExpiry => exact State.standsBy_of_desk s.dwellExpiry_desk

/-- Every command answers a next state. -/
theorem exec_total (c : Instr) (s : State) : ∃ t, exec c s = .next t := by
  cases c <;> exact ⟨_, rfl⟩

/-- Settles O2: the three start-up commands apart, every other command leaves all three fields alone. -/
theorem everyCommandCompletes : Obligations.EveryCommandCompletes := by
  unfold Obligations.EveryCommandCompletes
  intro c s
  obtain ⟨t, he⟩ := exec_total c s
  refine ⟨t, he, ?_⟩
  by_cases hreset : ∃ l, c = .powerOnReset l
  · obtain ⟨l, rfl⟩ := hreset
    obtain rfl := Host.Outcome.next.inj he
    exact ⟨rfl, fun h => absurd rfl (h l), fun h => absurd rfl (h l)⟩
  by_cases hrelease : ∃ b a, c = .resetRelease b a
  · obtain ⟨b, a, rfl⟩ := hrelease
    obtain rfl := Host.Outcome.next.inj he
    refine ⟨?_, fun _ h => absurd rfl (h b a), fun _ h => absurd rfl (h b a)⟩
    unfold State.resetRelease
    split <;> rfl
  by_cases hread : ∃ r, c = .imageReadEnd r
  · obtain ⟨r, rfl⟩ := hread
    obtain rfl := Host.Outcome.next.inj he
    obtain ⟨-, -, -, hpending, hbaud⟩ := s.imageReadEnd_doors r
    exact ⟨hpending, fun _ _ => hbaud, fun _ _ h => absurd rfl (h r)⟩
  obtain ⟨hpending, hbaud, hpower⟩ := exec_standsBy (fun l e => hreset ⟨l, e⟩) (fun b a e => hrelease ⟨b, a, e⟩)
    (fun r e => hread ⟨r, e⟩) he
  exact ⟨hpending, fun _ _ => hbaud, fun _ _ _ => hpower⟩

end Sys2Proof.Machine

/-! O3, O4 and O10: reset, its release, and the end of a write. -/

namespace Sys2Proof.Machine

set_option Elab.async false

/-! ### Reset (R186) -/

/-- What a state after reset answers for each entry of its tables. -/
theorem State.powerOnReset_tables (s : State) (level : Contact) :
    (∀ q, (s.powerOnReset level).port q = .initial) ∧ (∀ g, (s.powerOnReset level).seg g = .initial) ∧
    (∀ g d, (s.powerOnReset level).drop g d = .initial) ∧ (∀ p, (s.powerOnReset level).col p = .empty) ∧
    (∀ p, (s.powerOnReset level).entry p = none) ∧ (∀ q, (s.powerOnReset level).notices.get q = .initial) ∧
    (∀ q, (s.powerOnReset level).watches.get q = .initial) := by
  refine ⟨fun q => Table.get_fill _ _, fun g => Table.get_fill _ _, fun g d => ?_, fun p => Table.get_fill _ _,
    fun p => Table.get_fill _ _, fun q => Table.get_fill _ _, fun q => Table.get_fill _ _⟩
  simp [State.drop, State.seg, State.powerOnReset, State.reset, Segment.initial]

/-- After reset every category is enabled and RETAIN alone waits (R174). -/
theorem NoticeState.initial_sets (c : Fin 16) :
    NoticeState.initial.enabled.get c = true ∧ (NoticeState.initial.waiting.get c = true ↔ c = Category.retain.code) := by
  revert c
  decide

/-- Settles O3: the state after reset is that of the tables but for the STOP_IN level, the queue and the free values; the
release acts on an asserted reset alone. -/
theorem resetValuesAndStraps : Obligations.ResetValuesAndStraps := by
  unfold Obligations.ResetValuesAndStraps
  constructor
  · intro s level
    obtain ⟨hport, hseg, hdrop, hcol, -, hnotices, hwatches⟩ := s.powerOnReset_tables level
    refine ⟨s.powerOnReset level, rfl, rfl, rfl, rfl, rfl, rfl, fun q => ?_, fun g => ?_, fun g d => ?_, fun p => ?_, rfl, rfl,
      fun i => ?_, rfl, rfl, rfl, fun c => ?_, rfl, rfl, fun c => ?_, rfl, rfl, rfl, fun q => ?_, rfl, rfl, fun q => ?_, rfl⟩
    · rw [hport]
      exact ⟨rfl, rfl, rfl, rfl, rfl, rfl, rfl, rfl, rfl⟩
    · rw [hseg]
      exact ⟨rfl, rfl, rfl, rfl, rfl, rfl, rfl, rfl, rfl, rfl, rfl⟩
    · rw [hdrop]
      exact ⟨rfl, rfl, rfl, rfl, rfl, rfl⟩
    · exact ⟨hcol p, Table.get_fill _ _⟩
    · exact Table.get_fill _ _
    · exact Table.get_fill _ _
    · exact Table.get_fill _ _
    · rw [hnotices]
      exact ⟨NoticeState.initial_sets, rfl⟩
    · rw [hwatches]
      exact ⟨fun p => ⟨Table.get_fill _ _, Table.get_fill _ _, Table.get_fill _ _⟩, rfl, rfl, rfl⟩
  · intro s b a
    constructor
    · intro hp
      cases b <;> cases a <;> simp [exec, execResetRelease, State.resetRelease, hp, baudOf]
    · intro hp
      cases h : s.power
      · exact absurd h hp
      all_goals simp [exec, execResetRelease, State.resetRelease, h]

theorem Roster.empty_well : Roster.empty.injective = true ∧ Roster.empty.confirmedWell = true := by
  simp [Roster.injective, Roster.confirmedWell, Roster.empty]

theorem defaultLimits_well : limitsWell defaultLimits = true := by
  decide

theorem Plan.initial_well : Plan.initial.well = true := by
  decide

theorem Drop.initial_well : Drop.initial.well := by
  refine ⟨by decide, fun _ => rfl, nofun, by decide, fun _ => rfl, nofun, ?_⟩
  rintro (h | h | h) <;> cases h

/-- The laws of the lift hold where nothing moves, nothing runs and no segment has an echo test. -/
theorem State.powerOnReset_liftSafe (s : State) (level : Contact) : (s.powerOnReset level).liftSafe := by
  obtain ⟨-, hseg, -⟩ := s.powerOnReset_tables level
  have hecho : ∀ g, ((s.powerOnReset level).seg g).echo = .none := fun g => by rw [hseg]; rfl
  refine ⟨⟨Plan.initial_well, nofun⟩, defaultLimits_well, ⟨(by decide : 0 = 0 / 100), Nat.zero_le _, nofun, fun _ => rfl, nofun⟩, ?_, nofun, ?_⟩
  · exact ⟨⟨fun h => absurd rfl h, nofun⟩, ⟨fun h => absurd rfl h, nofun⟩, nofun⟩
  · refine ⟨fun g _ h => absurd (hecho g) h, fun g h => ?_⟩
    rw [hecho] at h
    cases h

/-- The laws of the columns hold where the roster and every column record are empty. -/
theorem State.powerOnReset_columnsSafe (s : State) (level : Contact) : (s.powerOnReset level).columnsSafe := by
  obtain ⟨-, -, hdrop, hcol, hentry, -⟩ := s.powerOnReset_tables level
  have hvalid : ∀ p, (s.powerOnReset level).validPos p = false := fun p => by simp [State.validPos, hentry]
  refine ⟨Roster.empty_well, fun g d => ?_, ⟨fun p => ⟨?_, fun _ => ?_⟩, fun g d h => ?_, fun _ g d => ?_⟩, fun p h => ?_,
    ⟨nofun, fun p h => ?_⟩, fun p => ?_⟩
  · rw [hdrop]
    exact Drop.initial_well
  · rw [hentry]
    nofun
  · rw [hcol]
    exact ⟨rfl, rfl⟩
  · rw [hdrop] at h
    cases h
  · rw [hdrop]
    rfl
  · rw [hvalid] at h
    cases h
  · rw [hvalid] at h
    cases h
  · rw [hcol]
    exact ⟨⟨nofun, nofun, nofun, by decide, by decide⟩, fun _ => ⟨rfl, rfl⟩, fun _ => ⟨rfl, rfl⟩⟩

theorem State.powerOnReset_safe (s : State) (level : Contact) : (s.powerOnReset level).safe := by
  obtain ⟨-, -, -, hcol, -⟩ := s.powerOnReset_tables level
  refine ⟨s.powerOnReset_stationsSafe level, ⟨⟨⟨nofun, nofun⟩, ⟨fun _ => .inr nofun, fun _ => rfl⟩, fun _ => rfl⟩, nofun⟩, ?_,
    s.powerOnReset_liftSafe level, fun p => ?_, s.powerOnReset_columnsSafe level⟩
  · exact State.keeps.counts_of_clear rfl rfl fun p => by rw [hcol]; exact ⟨rfl, rfl⟩
  · rw [hcol]
    exact ⟨⟨nofun, nofun⟩, ⟨Nat.zero_le _, fun _ => rfl⟩, nofun⟩

/-- Settles O4: `State.reset` is the state after a reset of itself with STOP_IN open. -/
theorem resetIsSafe : Obligations.ResetIsSafe := by
  unfold Obligations.ResetIsSafe
  exact ⟨State.reset.powerOnReset_safe .opened, fun s level => ⟨_, rfl, s.powerOnReset_safe level⟩⟩

/-! ### The end of a write (R192, R193) -/

/-- A write succeeds exactly when the memory reports completion with what was sent read back (R193). -/
theorem writeSucceeded_iff (sent : Image) (o : WriteOutcome) :
    writeSucceeded sent o = true ↔ o = .completed (imageBytes sent) := by
  cases o <;> simp [writeSucceeded]

/-- Settles O10: the status and RETAIN by the outcome, then the rewrite. -/
theorem writeEndOutcome : Obligations.WriteEndOutcome := by
  unfold Obligations.WriteEndOutcome
  intro s o sent hwriting
  have hend : s.writeEnd o = (s.noteWrite (writeSucceeded sent o)).afterWrite := by simp [State.writeEnd, hwriting]
  refine ⟨s.writeEnd o, rfl, ?_⟩
  rw [hend]
  simp only [← writeSucceeded_iff]
  unfold State.noteWrite
  by_cases hquiet : writeSucceeded sent o = true ∧ s.retention.status = .valid
  · rw [if_pos hquiet, if_pos hquiet]
    exact ⟨rfl, rfl, rfl, rfl, rfl⟩
  · rw [if_neg hquiet, if_neg hquiet]
    exact ⟨rfl, rfl, rfl, rfl, rfl⟩

end Sys2Proof.Machine

/-! O11, O12, O14 and O16: a byte at a port, the assembler's next byte, the transmitter's next character, and the requests that
wait or are unknown. -/

namespace Sys2Proof.Machine

set_option Elab.async false

/-! ### A port that runs (R158) -/

theorem State.modRunningPort_of_live {s : State} (hp : s.power ≠ .inReset) (q : PortId) (f : Port → Port) :
    s.modRunningPort q f = { s with ports := s.ports.set q (f (s.port q)) } := by
  unfold State.modRunningPort
  split
  · next h => exact absurd h hp
  all_goals rfl

theorem State.modRunningPort_inReset {s : State} (hp : s.power = .inReset) (q : PortId) (f : Port → Port) :
    s.modRunningPort q f = s := by
  simp [State.modRunningPort, hp]

/-! ### A byte arrives (R159, R160, R163) -/

/-- A stored byte: a full FIFO latches the overrun, and a fill that reaches 48 owes a HOLD. -/
theorem Port.receive_eq (x : Port) (b : RxByte) :
    x.receive b = if 64 ≤ x.rx.length then { x with overrun := true }
      else if 47 ≤ x.rx.length ∧ x.inboundHeld = false then
        { x with rx := x.rx ++ [b], inboundHeld := true, owed := x.owed ++ [.hold] }
      else { x with rx := x.rx ++ [b] } := by
  have hfill : Config.holdFill ≤ (x.rx ++ [b]).length ↔ 47 ≤ x.rx.length := by
    simp [Config.holdFill]
  unfold Port.receive Port.fillRose
  by_cases hfull : 64 ≤ x.rx.length
  · rw [if_neg (by simpa [Config.rxSize] using hfull), if_pos hfull]
  · rw [if_pos (by simpa [Config.rxSize] using hfull), if_neg hfull]
    simp only [hfill]

/-- A byte that is no unfaulted HOLD, GO or STOP goes to the receive FIFO. -/
theorem State.byteReceived_ordinary (s : State) (q : PortId) {v : Byte} {f : Bool}
    (h : f = true ∨ (v ≠ holdByte ∧ v ≠ goByte ∧ v ≠ stopByteValue)) :
    s.byteReceived q v f = s.modRunningPort q fun x => x.receive { value := v, faulted := f } := by
  unfold State.byteReceived
  rcases h with rfl | ⟨h1, h2, h3⟩
  · simp
  · simp [h1, h2, h3]

/-- A STOP byte acts on nothing while reset is asserted. -/
theorem State.stopByte_inReset {s : State} (hp : s.power = .inReset) (q : PortId) : s.stopByte q = s := by
  simp [State.stopByte, hp]

/-- Settles O11: the FIFO's rule of `Port.receive_eq`, and the three out-of-band bytes as their own commands. -/
theorem stationByteArrives : Obligations.StationByteArrives := by
  unfold Obligations.StationByteArrives
  constructor
  · intro s q v f hp hv
    have hb : s.byteReceived q v f = _ := State.byteReceived_ordinary s q hv
    rw [State.modRunningPort_of_live hp, Port.receive_eq] at hb
    exact congrArg Host.Outcome.next hb
  · intro s q
    refine ⟨rfl, rfl, rfl, fun hp => ?_, fun hp => ?_⟩
    · exact ⟨congrArg Host.Outcome.next (State.modRunningPort_of_live hp q _),
        congrArg Host.Outcome.next (State.modRunningPort_of_live hp q _)⟩
    · exact ⟨congrArg Host.Outcome.next (State.modRunningPort_inReset hp q _),
        congrArg Host.Outcome.next (State.modRunningPort_inReset hp q _), congrArg Host.Outcome.next (State.stopByte_inReset hp q)⟩

/-! ### The transmitter (R163, R164) -/

/-- Settles O14: the three cases of `Port.nextCharacter`. -/
theorem transmitterOrder : Obligations.TransmitterOrder := by
  unfold Obligations.TransmitterOrder
  intro s q hp
  have hexec : exec (.transmitCharacter q) s = .next { s with ports := s.ports.set q (s.port q).nextCharacter } :=
    congrArg Host.Outcome.next (State.modRunningPort_of_live hp q _)
  rw [hexec]
  refine ⟨fun o rest ho => ?_, fun ho hidle => ?_, fun b rest ho hpaused htx => ?_⟩
  · have hnext : (s.port q).nextCharacter = { s.port q with owed := rest, line := some o.byte } := by
      simp [Port.nextCharacter, ho]
    rw [hnext]
    cases o <;> rfl
  · have hnext : (s.port q).nextCharacter = { s.port q with line := none } := by
      rcases hidle with hpaused | htx
      · simp [Port.nextCharacter, ho, hpaused]
      · simp [Port.nextCharacter, ho, htx]
    rw [hnext]
  · have hnext : (s.port q).nextCharacter = { s.port q with tx := rest, line := some b } := by
      simp [Port.nextCharacter, ho, hpaused, htx]
    rw [hnext]

/-! ### Requests that wait or are unknown (R165, R166) -/

theorem State.dueRequest_eq_none {s : State} {q : PortId}
    (h : s.power = .inReset ∨ (s.port q).held = none ∨ 42 < (s.port q).tx.length) : s.dueRequest q = none := by
  unfold State.dueRequest
  split
  · rfl
  · next code tag args hheld hp =>
    rcases h with h | h | h
    · exact absurd h hp
    · rw [h] at hheld
      cases hheld
    · exact if_neg (by simp only [Config.replyRoom, Config.txSize]; omega)
  · rfl

theorem State.dueRequest_eq_some {s : State} {q : PortId} {code tag : Byte} {args : List Byte} (hp : s.power ≠ .inReset)
    (hheld : (s.port q).held = some (code :: tag :: args)) (hroom : (s.port q).tx.length ≤ 42) :
    s.dueRequest q = some (code, tag, args) := by
  unfold State.dueRequest
  rw [hheld]
  cases h : s.power
  · exact absurd h hp
  all_goals exact if_pos (by simp only [Config.replyRoom, Config.txSize]; omega)

/-- Where no request of the kind is due, its execution changes nothing. -/
theorem State.executeRequest_of_not_holds {s : State} {q : PortId} {r : Request} (h : ∀ tag args, ¬ s.holds q r tag args)
    (owner : State → List Byte → State × Answer) : s.executeRequest q r owner = s := by
  unfold State.executeRequest State.execute
  split
  · rfl
  · next code tag args hdue =>
    refine if_neg fun hcode => h tag args ?_
    rw [State.holds, hdue, of_decide_eq_true hcode]

theorem State.claimDue_iff {s : State} {q : PortId} : s.claimDue q = true ↔ ∃ tag args, s.holds q .claim tag args := by
  unfold State.claimDue State.holds
  cases hdue : s.dueRequest q with
  | none => simp
  | some x =>
    obtain ⟨code, tag, args⟩ := x
    simp

theorem exec_command_of_not_holds {s : State} {q : PortId} {r : Request} (h : ∀ tag args, ¬ s.holds q r tag args) :
    exec (r.command q) s = .next s := by
  cases r
  case claim =>
    refine congrArg Host.Outcome.next (if_neg fun hdue => ?_)
    obtain ⟨tag, args, hholds⟩ := State.claimDue_iff.mp hdue
    exact h tag args hholds
  all_goals exact congrArg Host.Outcome.next (State.executeRequest_of_not_holds h _)

theorem isRequestCode_eq_false {c : Byte} (h : ∀ r : Request, r.code ≠ c) : isRequestCode c = false := by
  unfold isRequestCode
  rw [List.any_eq_false]
  intro r _
  simpa using h r

/-- The reply of an owner that answers a code of its own, known or not. -/
theorem State.answers_reply_code (s : State) (q : PortId) (code tag : Byte) (a : Answer) :
    s.answers (s.reply q code tag a) q (replyCode code) tag a := by
  have hbody : s.replyBody q code tag a = s.replyIn (s.reply q code tag a) q (replyCode code) tag a := by
    simp [State.replyBody, State.replyIn, State.holderByte, bitsOf_three]
  unfold State.answers
  rw [← hbody]
  rfl

/-- Settles O16: the conditions of `State.dueRequest`, and UNKNOWN's owner. -/
theorem waitingAndUnknownRequests : Obligations.WaitingAndUnknownRequests := by
  unfold Obligations.WaitingAndUnknownRequests
  refine ⟨fun s q r => exec_command_of_not_holds, fun s q => State.dueRequest_eq_none, fun s q code tag args =>
    State.dueRequest_eq_some, fun s q code tag args hdue hcode => ?_⟩
  have hexec : s.execute q (fun c => !isRequestCode c) ownerUnknown = s.reply q code tag (.plain .unknown) := by
    simp [State.execute, hdue, isRequestCode_eq_false hcode, ownerUnknown, State.refuse]
  exact ⟨_, congrArg Host.Outcome.next hexec, s.answers_reply_code q code tag _, rfl⟩

/-! ### The assembler's next byte (R161, R162) -/

/-- The assembler, the framing latch and the held request of a port after what a byte has made of its frame. -/
theorem Port.gathered_eq (x : Port) (g : Gathering) :
    x.gathered g = { x with assembler := (x.gathered g).assembler, framing := (x.gathered g).framing,
                            held := (x.gathered g).held } := by
  cases g <;> rfl

/-- The test of a gathered value, on the whole list of values. -/
theorem checkGathered_append (values : List Byte) (v : Byte) :
    checkGathered (values ++ [v]) =
      (let all := values ++ [v]
      let n := (all.getD 0 0).toNat
      if n < 2 ∨ 40 < n then .discards .hunting
      else if all.length < n + 3 then .goesOn (.inFrame false all)
      else if all.drop (n + 1) = crcBytes (all.take (n + 1)) then .valid ((all.take (n + 1)).drop 1)
      else .discards .hunting) := by
  cases hall : values ++ [v] with
  | nil => simp at hall
  | cons len rest => simp [checkGathered]

theorem isEscaped_iff (b : Byte) : isEscaped b = true ↔ 0x85 ≤ b.toNat ∧ b.toNat ≤ 0x89 := by
  simp [isEscaped]

theorem State.assemble_of_held {s : State} {q : PortId} {body : List Byte} (h : (s.port q).held = some body) :
    s.assemble q = s := by
  unfold State.assemble
  split
  · rfl
  · next hheld _ _ =>
    rw [h] at hheld
    cases hheld
  · rfl

theorem State.assemble_of_rx {s : State} {q : PortId} {b : RxByte} {rest : List RxByte} (hp : s.power ≠ .inReset)
    (hheld : (s.port q).held = none) (hrx : (s.port q).rx = b :: rest) :
    s.assemble q = (s.modPort q fun x => (({ x with rx := rest } : Port).gathered (x.assembler.onRxByte b)).fillFell).restartLapse q
      ((s.port q).assembler.onRxByte b) := by
  unfold State.assemble
  rw [hheld, hrx]
  cases h : s.power
  · exact absurd h hp
  all_goals rfl

/-- A valid frame of the holder restarts the lapse timer, and nothing else does. -/
theorem State.restartLapse_eq (s : State) (q : PortId) (x : Port) (hx : x.held = none) (g : Gathering) :
    s.restartLapse q g = { s with
      lapse := if (x.gathered g).held.isSome = true ∧ s.holder = some q then .running 2000 else s.lapse } := by
  cases g with
  | valid body => by_cases h : s.holder = some q <;> simp [State.restartLapse, Port.gathered, h, Config.lapseTime]
  | goesOn a => simp [State.restartLapse, Port.gathered, hx]
  | discards a => simp [State.restartLapse, Port.gathered, hx]

/-- What the next byte makes of a gathered list that it joins, from a framing latch `f`: the length, then the CRC (R161). -/
def judges (all : List Byte) (f : Bool) (A : Assembler) (F : Bool) (H : Option (List Byte)) : Prop :=
  let n := (all.getD 0 0).toNat
  if n < 2 ∨ 40 < n then A = .hunting ∧ F = true ∧ H = none
  else if all.length < n + 3 then A = .inFrame false all ∧ F = f ∧ H = none
  else if all.drop (n + 1) = crcBytes (all.take (n + 1)) then A = .hunting ∧ F = f ∧ H = some ((all.take (n + 1)).drop 1)
  else A = .hunting ∧ F = true ∧ H = none

theorem Port.checkGathered_judges {x : Port} (hx : x.held = none) (values : List Byte) (v : Byte) :
    let y := x.gathered (checkGathered (values ++ [v]))
    judges (values ++ [v]) x.framing y.assembler y.framing y.held := by
  rw [checkGathered_append]
  unfold judges
  dsimp only
  split
  · exact ⟨rfl, rfl, hx⟩
  · split
    · exact ⟨rfl, rfl, hx⟩
    · split
      · exact ⟨rfl, rfl, rfl⟩
      · exact ⟨rfl, rfl, hx⟩

/-- What an unfaulted byte `v` makes of an assembler that is in a frame (R161). -/
def gathers (escaped : Bool) (values : List Byte) (f : Bool) (v : Byte) (A : Assembler) (F : Bool) (H : Option (List Byte)) : Prop :=
  if v = 0xA5 then A = .inFrame false [] ∧ F = true ∧ H = none
  else if escaped = false ∧ v = 0xA6 then A = .inFrame true values ∧ F = f ∧ H = none
  else if escaped = true ∧ ¬ (0x85 ≤ v.toNat ∧ v.toNat ≤ 0x89) then A = .hunting ∧ F = true ∧ H = none
  else judges (values ++ [if escaped then v ^^^ 0x20 else v]) f A F H

theorem Port.inFrame_gathers {x : Port} (hx : x.held = none) (escaped : Bool) (values : List Byte) (v : Byte) :
    let y := x.gathered ((Assembler.inFrame escaped values).onByte v)
    gathers escaped values x.framing v y.assembler y.framing y.held := by
  unfold Assembler.onByte gathers
  dsimp only
  by_cases hstart : v = 0xA5
  · rw [if_pos (show v = startByte from hstart), if_pos hstart]
    exact ⟨rfl, rfl, hx⟩
  rw [if_neg (show ¬ v = startByte from hstart), if_neg hstart]
  cases escaped with
  | true =>
    by_cases hesc : isEscaped v = true
    · rw [if_neg (by simp), if_neg (by simpa using (isEscaped_iff v).mp hesc)]
      simpa [hesc] using Port.checkGathered_judges hx values (v ^^^ 0x20)
    · rw [if_neg (by simp), if_pos ⟨rfl, (isEscaped_iff v).not.mp hesc⟩]
      simpa [hesc, Port.gathered] using hx
  | false =>
    by_cases hesc : v = 0xA6
    · rw [if_pos ⟨rfl, hesc⟩]
      simpa [show v = escByte from hesc, Port.gathered] using hx
    · rw [if_neg (fun h => hesc h.2), if_neg (by simp)]
      simpa [show ¬ v = escByte from hesc] using Port.checkGathered_judges hx values v

theorem Port.hunting_onByte {x : Port} (hx : x.held = none) (v : Byte) :
    let y := x.gathered (Assembler.hunting.onByte v)
    if v = 0xA5 then y.assembler = .inFrame false [] ∧ y.framing = x.framing ∧ y.held = none
    else y.assembler = .hunting ∧ y.framing = true ∧ y.held = none := by
  unfold Assembler.onByte
  by_cases h : v = 0xA5
  · rw [if_pos (show v = startByte from h)]
    exact (if_pos h).mpr ⟨rfl, rfl, hx⟩
  · rw [if_neg (show ¬ v = startByte from h)]
    exact (if_neg h).mpr ⟨rfl, rfl, hx⟩

/-- Port `x` once the assembler has taken byte `b`, with `rest` left in the FIFO: a GO is owed where the fill has fallen to 16. -/
def Port.took (x : Port) (b : RxByte) (rest : List RxByte) : Port :=
  let y := x.gathered (x.assembler.onRxByte b)
  if rest.length ≤ 16 ∧ x.inboundHeld = true then
    { x with rx := rest, assembler := y.assembler, framing := y.framing, held := y.held, inboundHeld := false,
             owed := x.owed ++ [.go] }
  else { x with rx := rest, assembler := y.assembler, framing := y.framing, held := y.held }

theorem Port.took_eq (x : Port) (b : RxByte) (rest : List RxByte) :
    (({ x with rx := rest } : Port).gathered (x.assembler.onRxByte b)).fillFell = x.took b rest := by
  unfold Port.took
  cases x.assembler.onRxByte b <;> rfl

/-- The assembler's take changes its port, and by a valid frame of the holder the lapse timer. -/
theorem State.assemble_eq {s : State} {q : PortId} {b : RxByte} {rest : List RxByte} (hp : s.power ≠ .inReset)
    (hheld : (s.port q).held = none) (hrx : (s.port q).rx = b :: rest) :
    s.assemble q = { s with
      ports := s.ports.set q ((s.port q).took b rest)
      lapse := if ((s.port q).gathered ((s.port q).assembler.onRxByte b)).held.isSome = true ∧ s.holder = some q
        then .running 2000 else s.lapse } := by
  rw [State.assemble_of_rx hp hheld hrx, State.restartLapse_eq _ q (s.port q) hheld, ← Port.took_eq]
  rfl

/-- Settles O12: what the byte makes of the assembler, then the fill of the FIFO and the lapse timer. -/
theorem assemblerTakesByte : Obligations.AssemblerTakesByte := by
  unfold Obligations.AssemblerTakesByte
  constructor
  · intro s q body hheld
    exact congrArg Host.Outcome.next (State.assemble_of_held hheld)
  · intro s q b rest hp hheld hrx
    let y := (s.port q).gathered ((s.port q).assembler.onRxByte b)
    refine ⟨_, y.assembler, y.framing, y.held, congrArg Host.Outcome.next (State.assemble_eq hp hheld hrx), rfl, rfl, rfl, ?_, ?_⟩
    · intro hfault
      simpa [y, Assembler.onRxByte, hfault, Port.gathered] using hheld
    · intro hfault
      have hon : (s.port q).assembler.onRxByte b = (s.port q).assembler.onByte b.value := by
        simp [Assembler.onRxByte, hfault]
      cases ha : (s.port q).assembler with
      | hunting =>
        have hy : y = (s.port q).gathered (Assembler.hunting.onByte b.value) := by rw [← ha, ← hon]
        rw [hy]
        exact Port.hunting_onByte hheld b.value
      | inFrame escaped values =>
        have hy : y = (s.port q).gathered ((Assembler.inFrame escaped values).onByte b.value) := by rw [← ha, ← hon]
        rw [hy]
        exact Port.inFrame_gathers hheld escaped values b.value

end Sys2Proof.Machine

/-! O13 and O15: a composed frame through the assembler, value by value, and the choice and the frame of a watch update. -/

namespace Sys2Proof.Machine

set_option Elab.async false

/-! ### Lists of commands -/

theorem execAll_append {cs ds : List Instr} {s t : State} (h : execAll cs s = .next t) :
    execAll (cs ++ ds) s = execAll ds t := by
  induction cs generalizing s with
  | nil =>
    obtain rfl := Host.Outcome.next.inj h
    rfl
  | cons c cs ih =>
    simp only [execAll, List.cons_append] at h ⊢
    split at h
    · exact ih h
    · cases h
    · cases h

theorem execAll_single {c : Instr} {s t : State} (h : exec c s = .next t) : execAll [c] s = .next t := by
  simp [execAll, h]

/-! ### Takes of the assembler -/

/-- Between `s` and `t` port `q` has taken bytes that made `g` of its frame, with `rest` left in the FIFO: nothing else has changed
but the flow control of the port (R161 to R163, R172). -/
structure State.readsOn (s t : State) (q : PortId) (g : Gathering) (rest : List RxByte) : Prop where
  rx : (t.port q).rx = rest
  assembler : (t.port q).assembler = ((s.port q).gathered g).assembler
  held : (t.port q).held = ((s.port q).gathered g).held
  framing : (t.port q).framing = ((s.port q).gathered g).framing
  overrun : (t.port q).overrun = (s.port q).overrun
  tx : (t.port q).tx = (s.port q).tx
  lapse : t.lapse = if ((s.port q).gathered g).held.isSome = true ∧ s.holder = some q then .running 2000 else s.lapse
  kept : { t with ports := s.ports, lapse := s.lapse } = s
  others : ∀ x, x ≠ q → t.port x = s.port x

theorem Port.took_fields (x : Port) (b : RxByte) (rest : List RxByte) :
    (x.took b rest).rx = rest ∧ (x.took b rest).assembler = (x.gathered (x.assembler.onRxByte b)).assembler ∧
    (x.took b rest).held = (x.gathered (x.assembler.onRxByte b)).held ∧
    (x.took b rest).framing = (x.gathered (x.assembler.onRxByte b)).framing ∧
    (x.took b rest).overrun = x.overrun ∧ (x.took b rest).tx = x.tx := by
  unfold Port.took
  dsimp only
  split <;> exact ⟨rfl, rfl, rfl, rfl, rfl, rfl⟩

/-- One take reads one byte. -/
theorem State.readsOn_take {s : State} {q : PortId} {b : RxByte} {rest : List RxByte} (hp : s.power ≠ .inReset)
    (hheld : (s.port q).held = none) (hrx : (s.port q).rx = b :: rest) :
    ∃ t, execAll [.frameAssemblerTake q] s = .next t ∧ s.readsOn t q ((s.port q).assembler.onRxByte b) rest := by
  refine ⟨s.assemble q, execAll_single rfl, ?_⟩
  rw [State.assemble_eq hp hheld hrx]
  obtain ⟨h1, h2, h3, h4, h5, h6⟩ := (s.port q).took_fields b rest
  have hq : (s.ports.set q ((s.port q).took b rest)).get q = (s.port q).took b rest := Table.get_set_self _ _ _
  exact ⟨(congrArg Port.rx hq).trans h1, (congrArg Port.assembler hq).trans h2, (congrArg Port.held hq).trans h3,
    (congrArg Port.framing hq).trans h4, (congrArg Port.overrun hq).trans h5, (congrArg Port.tx hq).trans h6, rfl, rfl,
    fun x hx => Table.get_set_of_ne _ _ hx⟩

/-- Two ports with the same framing latch and held request come out of a gathering alike. -/
theorem Port.gathered_congr {x y : Port} (hf : x.framing = y.framing) (hh : x.held = y.held) (g : Gathering) :
    (x.gathered g).assembler = (y.gathered g).assembler ∧ (x.gathered g).held = (y.gathered g).held ∧
      (x.gathered g).framing = (y.gathered g).framing := by
  cases g <;> simp [Port.gathered, hf, hh]

/-- Bytes that leave a frame open, and then bytes that make `g` of it. -/
theorem State.readsOn.trans {s t u : State} {q : PortId} {a : Assembler} {g : Gathering} {r r' : List RxByte}
    (h1 : s.readsOn t q (.goesOn a) r) (h2 : t.readsOn u q g r') (hheld : (s.port q).held = none) : s.readsOn u q g r' := by
  have hlapse : t.lapse = s.lapse := by
    rw [h1.lapse, if_neg]
    simp [Port.gathered, hheld]
  have hholder : t.holder = s.holder := (congrArg State.holder h1.kept :)
  obtain ⟨ha, hh, hf⟩ := Port.gathered_congr (x := t.port q) (y := s.port q) h1.framing h1.held g
  refine ⟨h2.rx, h2.assembler.trans ha, h2.held.trans hh, h2.framing.trans hf, h2.overrun.trans h1.overrun, h2.tx.trans h1.tx, ?_,
    ?_, fun x hx => (h2.others x hx).trans (h1.others x hx)⟩
  · rw [h2.lapse, hh, hholder, hlapse]
  · calc { u with ports := s.ports, lapse := s.lapse }
        = { ({ u with ports := t.ports, lapse := t.lapse } : State) with ports := s.ports, lapse := s.lapse } := rfl
      _ = { t with ports := s.ports, lapse := s.lapse } := by rw [h2.kept]
      _ = s := h1.kept

theorem State.readsOn.power {s t : State} {q : PortId} {g : Gathering} {r : List RxByte} (h : s.readsOn t q g r) :
    t.power = s.power :=
  (congrArg State.power h.kept :)

/-! ### One value of a frame -/

/-- A value as it stands in the receive FIFO without a framing fault. -/
def RxByte.clean (v : Byte) : RxByte :=
  { value := v, faulted := false }

/-- A reserved value goes as ESC and a byte that may follow one, and is read back whole (section 9.2). -/
theorem escaped_reserved (v : Byte) (h : isReserved v = true) :
    v ^^^ 0x20 ≠ startByte ∧ isEscaped (v ^^^ 0x20) = true ∧ (v ^^^ 0x20) ^^^ 0x20 = v := by
  revert v
  decide

theorem plain_of_not_reserved {v : Byte} (h : isReserved v = false) : v ≠ startByte ∧ v ≠ escByte := by
  constructor
  · rintro rfl
    exact absurd h (by decide)
  · rintro rfl
    exact absurd h (by decide)

/-- The takes of one value, escaped or not, make of the frame what the value's test says. -/
theorem State.readsOn_value {s : State} {q : PortId} {values : List Byte} {v : Byte} {rest : List RxByte}
    (hp : s.power ≠ .inReset) (hheld : (s.port q).held = none) (ha : (s.port q).assembler = .inFrame false values)
    (hrx : (s.port q).rx = (escapeByte v).map RxByte.clean ++ rest) :
    ∃ t, execAll (List.replicate (escapeByte v).length (.frameAssemblerTake q)) s = .next t ∧
      s.readsOn t q (checkGathered (values ++ [v])) rest := by
  unfold escapeByte at hrx ⊢
  cases hv : isReserved v with
  | false =>
    obtain ⟨hstart, hesc⟩ := plain_of_not_reserved hv
    simp only [hv, Bool.false_eq_true, if_false, List.map_cons, List.map_nil, List.singleton_append] at hrx ⊢
    obtain ⟨t, he, ht⟩ := State.readsOn_take hp hheld hrx
    have hg : (s.port q).assembler.onRxByte (RxByte.clean v) = checkGathered (values ++ [v]) := by
      simp [ha, Assembler.onRxByte, RxByte.clean, Assembler.onByte, hstart, hesc]
    exact ⟨t, he, hg ▸ ht⟩
  | true =>
    obtain ⟨hstart, hesc, hback⟩ := escaped_reserved v hv
    simp only [hv, if_true, List.map_cons, List.map_nil, List.cons_append, List.nil_append] at hrx ⊢
    obtain ⟨t, he, ht⟩ := State.readsOn_take hp hheld hrx
    have hg : (s.port q).assembler.onRxByte (RxByte.clean escByte) = .goesOn (.inFrame true values) := by
      simp [ha, Assembler.onRxByte, RxByte.clean, Assembler.onByte, escByte, startByte]
    rw [hg] at ht
    obtain ⟨u, he', hu⟩ := State.readsOn_take (ht.power ▸ hp) (ht.held.trans hheld) ht.rx
    have hg' : (t.port q).assembler.onRxByte (RxByte.clean (v ^^^ 0x20)) = checkGathered (values ++ [v]) := by
      rw [ht.assembler]
      exact (if_neg hstart).trans ((if_pos hesc).trans (congrArg (fun x => checkGathered (values ++ [x])) hback))
    exact ⟨u, (execAll_append he).trans he', ht.trans (hg' ▸ hu) hheld⟩

/-! ### A whole frame -/

/-- A proper part of a frame, the length at least, leaves the frame open; the whole of it is valid (R161). -/
theorem checkGathered_frame {body done todo : List Byte} {v : Byte} (hlow : 2 ≤ body.length) (hhigh : body.length ≤ 40)
    (hall : done ++ v :: todo = framePayload body ++ crcBytes (framePayload body)) :
    checkGathered (done ++ [v]) = if todo = [] then .valid body else .goesOn (.inFrame false (done ++ [v])) := by
  have hwhole : (done ++ [v]) ++ todo = byteOf body.length :: (body ++ crcBytes (framePayload body)) := by
    simpa [framePayload] using hall
  have hlength : (done ++ [v]).length + todo.length = body.length + 3 := by
    rw [← List.length_append, hwhole]
    simp
  have hfirst : (done ++ [v]).getD 0 0 = byteOf body.length := by
    cases hd : done ++ [v] with
    | nil => simp at hd
    | cons len rest =>
      rw [hd, List.cons_append] at hwhole
      exact (List.cons.inj hwhole).1
  have hn : ((done ++ [v]).getD 0 0).toNat = body.length := by
    rw [hfirst, byteOf, BitVec.toNat_ofNat]
    omega
  rw [checkGathered_append]
  dsimp only
  rw [hn, if_neg (by omega)]
  cases todo with
  | nil =>
    have hframe : done ++ [v] = framePayload body ++ crcBytes (framePayload body) := by simpa using hall
    have hpayload : (framePayload body).length = body.length + 1 := by simp [framePayload]
    rw [if_neg (by simp only [List.length_nil] at hlength; omega), hframe, List.drop_left' hpayload,
      List.take_left' hpayload, if_pos rfl, if_pos rfl]
    rfl
  | cons w todo =>
    rw [if_pos (by simp only [List.length_cons] at hlength; omega), if_neg (List.cons_ne_nil w todo)]

/-- The takes of a frame's values after those already gathered make the frame valid (R161). -/
theorem State.readsOn_values {q : PortId} {body : List Byte} {more : List RxByte} (hlow : 2 ≤ body.length)
    (hhigh : body.length ≤ 40) (v : Byte) (todo : List Byte) :
    ∀ {s : State} {done : List Byte}, s.power ≠ .inReset → (s.port q).held = none →
      (s.port q).assembler = .inFrame false done →
      done ++ v :: todo = framePayload body ++ crcBytes (framePayload body) →
      (s.port q).rx = (escapeBytes (v :: todo)).map RxByte.clean ++ more →
      ∃ t, execAll (List.replicate (escapeBytes (v :: todo)).length (.frameAssemblerTake q)) s = .next t ∧
        s.readsOn t q (.valid body) more := by
  induction todo generalizing v with
  | nil =>
    intro s done hp hheld ha hall hrx
    rw [escapeBytes_cons, escapeBytes_nil, List.append_nil] at hrx ⊢
    obtain ⟨t, he, ht⟩ := State.readsOn_value hp hheld ha hrx
    rw [checkGathered_frame hlow hhigh hall, if_pos rfl] at ht
    exact ⟨t, he, ht⟩
  | cons w todo ih =>
    intro s done hp hheld ha hall hrx
    rw [escapeBytes_cons, List.map_append, List.append_assoc] at hrx
    obtain ⟨t, he, ht⟩ := State.readsOn_value hp hheld ha hrx
    rw [checkGathered_frame hlow hhigh hall, if_neg (List.cons_ne_nil w todo)] at ht
    obtain ⟨u, he', hu⟩ := ih w (ht.power ▸ hp) (ht.held.trans hheld) ht.assembler (by simpa using hall) ht.rx
    refine ⟨u, ?_, ht.trans hu hheld⟩
    rw [escapeBytes_cons v, List.length_append, List.replicate_add, execAll_append he, he']

/-- Settles O13: START opens the frame, and the values of the payload and the CRC complete it. -/
theorem assemblerReadsFrame : Obligations.AssemblerReadsFrame := by
  unfold Obligations.AssemblerReadsFrame
  intro s q body more hp hheld ha hlow hhigh hrx
  obtain ⟨t, he, ht⟩ := State.readsOn_take hp hheld hrx
  have hg : (s.port q).assembler.onRxByte (RxByte.clean startByte) = .goesOn (.inFrame false []) := by
    simp [ha, Assembler.onRxByte, RxByte.clean, Assembler.onByte]
  have ht : s.readsOn t q (.goesOn (.inFrame false [])) _ := hg ▸ ht
  obtain ⟨u, he', hu⟩ := State.readsOn_values hlow hhigh (byteOf body.length) (body ++ crcBytes (framePayload body))
    (ht.power ▸ hp) (ht.held.trans hheld) ht.assembler rfl ht.rx
  have hall := ht.trans hu hheld
  refine ⟨u, ?_, hall.held, hall.rx, hall.assembler, hall.framing, hall.overrun, hall.tx, hall.lapse.trans ?_, hall.kept, hall.others⟩
  · exact (execAll_append he).trans he'
  · simp [Port.gathered]

/-! ### The watch update (R168, R184) -/

/-- The first member of an ascending list that passes a test is the one that `find?` gives. -/
theorem find?_of_ascending {n : Nat} {l : List (Fin n)} (hl : l.Pairwise (· < ·)) {test : Fin n → Bool} {k : Fin n} (hk : k ∈ l)
    (htest : test k = true) (hfirst : ∀ j ∈ l, j < k → test j = false) : l.find? test = some k := by
  obtain ⟨before, after, rfl⟩ := List.append_of_mem hk
  rw [List.find?_eq_some_iff_append]
  refine ⟨htest, before, after, rfl, fun j hj => ?_⟩
  rw [List.pairwise_append] at hl
  obtain ⟨-, -, hcross⟩ := hl
  simp [hfirst j (List.mem_append_left _ hj) (hcross j hj k List.mem_cons_self)]

theorem WatchState.nextOwed_eq_some {w : WatchState} {k : Fin 48} (hk : w.owed.get (w.pointer + 1 + k) = true)
    (hfirst : ∀ j : Fin 48, j < k → w.owed.get (w.pointer + 1 + j) = false) : w.nextOwed = some (w.pointer + 1 + k) := by
  have hcomm : ∀ j : Fin 48, w.pointer + j + 1 = w.pointer + 1 + j := fun j => add_right_comm _ _ _
  have hfind := find?_of_ascending (test := fun j => w.owed.get (w.pointer + 1 + j)) (List.pairwise_lt_finRange 48)
    (List.mem_finRange k) hk fun j _ => hfirst j
  simp [WatchState.nextOwed, WatchState.servingOrder, hcomm, List.find?_map, hfind]

theorem WatchState.nextOwed_eq_none {w : WatchState} (h : ∀ p, w.owed.get p = false) : w.nextOwed = none := by
  simp [WatchState.nextOwed, h]

theorem State.update_of_due {s : State} {q : PortId} {p : Pos} (hp : s.power ≠ .inReset) (hheld : (s.port q).held = none)
    (howed : (s.watches.get q).nextOwed = some p) (hroom : (s.port q).tx.length ≤ 7) : s.update q = s.serve q p := by
  unfold State.update
  rw [hheld, howed]
  cases h : s.power
  · exact absurd h hp
  all_goals exact if_pos (by simp only [Config.updateRoom, Config.txSize]; omega)

theorem State.update_of_not_due {s : State} {q : PortId}
    (h : (s.port q).held.isSome = true ∨ 7 < (s.port q).tx.length ∨ ∀ p, (s.watches.get q).owed.get p = false) :
    s.update q = s := by
  unfold State.update
  split
  · rfl
  · next p hheld howed _ =>
    rcases h with h | h | h
    · simp [hheld] at h
    · exact if_neg (by simp only [Config.updateRoom, Config.txSize]; omega)
    · rw [WatchState.nextOwed_eq_none h] at howed
      cases howed
  · rfl

/-- Settles O15: the choice of the position, then the one update that serves it. -/
theorem updateFrameServed : Obligations.UpdateFrameServed := by
  unfold Obligations.UpdateFrameServed
  intro s q hp
  constructor
  · intro k hheld hroom hfirst hk
    have hserve := State.update_of_due hp hheld (WatchState.nextOwed_eq_some hk hfirst) hroom
    exact ⟨_, congrArg Host.Outcome.next hserve, rfl, rfl, rfl⟩
  · intro h
    exact congrArg Host.Outcome.next (State.update_of_not_due h)

end Sys2Proof.Machine

/-! O17, O18 and O37: the refusals of a request, and the argument lists that each request takes. -/

namespace Sys2Proof.Machine

set_option Elab.async false

/-! ### The owner of each request -/

/-- The owner that answers a request of each kind at a port. -/
def Request.owner (q : PortId) : Request → State → List Byte → State × Answer
  | .readRoster => ownerReadRoster
  | .readColumn => ownerReadColumn
  | .readCar => ownerReadCar
  | .readSegment => ownerReadSegment
  | .readGroup => ownerReadGroup
  | .readPlan => ownerReadPlan
  | .readLimits => ownerReadLimits
  | .readStop => ownerReadStop
  | .noticeNext => ownerNoticeNext q
  | .noticeSet => ownerNoticeSet q
  | .watch => ownerWatch q
  | .unwatch => ownerUnwatch q
  | .claim => ownerClaim q
  | .yield => ownerYield q
  | .stop => ownerStop q
  | .map => ownerMap q
  | .unmap => ownerUnmap q
  | .link => ownerLink q
  | .confirm => ownerConfirm q
  | .echo => ownerEcho q
  | .approach => ownerApproach q
  | .run => ownerRun q
  | .pause => ownerPause q
  | .setdown => ownerSetdown q
  | .retract => ownerRetract q
  | .jog => ownerJog q
  | .rearm => ownerRearm q
  | .planLeg => ownerPlanLeg q
  | .planCut => ownerPlanCut q
  | .limitSet => ownerLimitSet q

/-- Every request but CLAIM is executed by its owner alone (R165). -/
theorem exec_command {r : Request} (hr : r ≠ .claim) (q : PortId) (s : State) :
    exec (r.command q) s = .next (s.executeRequest q r (r.owner q)) := by
  cases r
  case claim => exact absurd rfl hr
  all_goals rfl

/-- A due request that its owner refuses only answers. -/
theorem State.onlyAnswers_of_refused {s : State} {q : PortId} {r : Request} {tag : Byte} {args : List Byte} {a : Answer}
    (hdue : s.holds q r tag args) (hr : r ≠ .claim) (howner : r.owner q s args = (s, a)) : s.onlyAnswers q r tag a :=
  State.onlyAnswers_of_owner (exec_command hr q s) hdue howner

/-! ### The first checks (R4, R66, R100, R142, R153) -/

theorem State.rosterRefusal_refuses {s : State} {q : PortId} {c : ResultCode} (h : s.rosterRefusal q = some c) {r : Request}
    (hr : r ∈ [Request.map, .unmap, .link, .confirm]) (args : List Byte) : r.owner q s args = (s, .plain c) := by
  cases r
  case map => simp [Request.owner, ownerMap, h, State.refuse]
  case unmap => simp [Request.owner, ownerUnmap, h, State.refuse]
  case link => simp [Request.owner, ownerLink, h, State.refuse]
  case confirm => simp [Request.owner, ownerConfirm, h, State.refuse]
  all_goals simp at hr

theorem State.turnedAway_refuses {s : State} {q : PortId} {c : ResultCode} (h : s.turnedAway q = some c) {r : Request}
    (hr : r.needsImage = true) (args : List Byte) : r.owner q s args = (s, .plain c) := by
  cases r
  case approach => simp [Request.owner, ownerApproach, State.groupRefusal, h, State.refuse]
  case run => simp [Request.owner, ownerRun, State.groupRefusal, h, State.refuse]
  case pause => simp [Request.owner, ownerPause, State.groupRefusal, h, State.refuse]
  case setdown => simp [Request.owner, ownerSetdown, State.groupRefusal, h, State.refuse]
  case retract => simp [Request.owner, ownerRetract, State.groupRefusal, h, State.refuse]
  case jog => simp [Request.owner, ownerJog, h, State.refuse]
  case rearm => simp [Request.owner, ownerRearm, h, State.refuse]
  case planLeg => simp [Request.owner, ownerPlanLeg, State.planRefusal, h, State.refuse]
  case planCut => simp [Request.owner, ownerPlanCut, State.planRefusal, h, State.refuse]
  case limitSet => simp [Request.owner, ownerLimitSet, h, State.refuse]
  all_goals simp [Request.needsImage] at hr

/-- A holder-only request from another port is turned away (section 9.6). -/
theorem State.notHolder_refuses {s : State} {q : PortId} (h : s.holder ≠ some q) {r : Request} (hr : r.holderOnly = true)
    (args : List Byte) : r.owner q s args = (s, .plain .notHolder) := by
  have haway : s.turnedAway q = some .notHolder := if_pos h
  have hroster : s.rosterRefusal q = some .notHolder := if_pos h
  by_cases himage : r.needsImage = true
  · exact State.turnedAway_refuses haway himage args
  · cases r
    case map => exact State.rosterRefusal_refuses hroster (by simp) args
    case unmap => exact State.rosterRefusal_refuses hroster (by simp) args
    case link => exact State.rosterRefusal_refuses hroster (by simp) args
    case confirm => exact State.rosterRefusal_refuses hroster (by simp) args
    case echo => exact if_pos h
    all_goals simp [Request.holderOnly, Request.needsImage] at hr himage

theorem Request.holderOnly_of_mem : ∀ r ∈ [Request.map, .unmap, .link, .confirm, .echo, .approach, .run, .pause, .setdown,
    .retract, .jog, .rearm, .planLeg, .planCut, .limitSet], r.holderOnly = true := by
  decide

theorem Request.needsImage_of_mem : ∀ r ∈ [Request.approach, .run, .pause, .setdown, .retract, .jog, .rearm, .planLeg, .planCut,
    .limitSet], r.needsImage = true := by
  decide

/-- Settles O17: the two first checks of each owner. -/
theorem notHolderThenBusy : Obligations.NotHolderThenBusy := by
  unfold Obligations.NotHolderThenBusy
  intro s q r tag args hdue
  constructor
  · intro hholder hr
    have honly := Request.holderOnly_of_mem r hr
    have hclaim : r ≠ .claim := by
      rintro rfl
      cases honly
    exact State.onlyAnswers_of_refused hdue hclaim (State.notHolder_refuses hholder honly args)
  · intro hholder hp hr
    have himage := Request.needsImage_of_mem r hr
    have hclaim : r ≠ .claim := by
      rintro rfl
      cases himage
    have haway : s.turnedAway q = some .busy := by simp [State.turnedAway, hholder, hp]
    exact State.onlyAnswers_of_refused hdue hclaim (State.turnedAway_refuses haway himage args)

/-! ### Argument bytes (R195) -/

theorem eq_none_of_forall {α : Type} {x : Option α} (h : ∀ a, x ≠ some a) : x = none :=
  Option.eq_none_iff_forall_ne_some.mpr h

theorem byteOf_toNat (b : Byte) : byteOf b.toNat = b := by
  simp [byteOf]

theorem fromZero_some {n : Nat} {b : Byte} {i : Fin n} (h : fromZero n b = some i) : b = byteOf i.val := by
  unfold fromZero at h
  split at h
  · cases h
    exact (byteOf_toNat b).symm
  · cases h

theorem fromOne_some {n : Nat} {b : Byte} {i : Fin n} (h : fromOne n b = some i) : b = byteOf (i.val + 1) := by
  unfold fromOne at h
  split at h
  · next hrange =>
    cases h
    rw [Nat.sub_add_cancel hrange.1]
    exact (byteOf_toNat b).symm
  · cases h

theorem be16_word16 (a b : Byte) : be16 (word16 a b) = [a, b] := by
  have ha := a.isLt
  have hb := b.isLt
  simp only [be16, word16, byteOf, List.cons.injEq, and_true]
  constructor
  · apply BitVec.eq_of_toNat_eq
    rw [BitVec.toNat_ofNat]
    omega
  · apply BitVec.eq_of_toNat_eq
    rw [BitVec.toNat_ofNat]
    omega

theorem be32_word32 (a b c d : Byte) : be32 (word32 a b c d).toNat = [a, b, c, d] := by
  have ha := a.isLt
  have hb := b.isLt
  have hc := c.isLt
  have hd := d.isLt
  have hn : (word32 a b c d).toNat = ((a.toNat * 256 + b.toNat) * 256 + c.toNat) * 256 + d.toNat := by
    rw [word32, BitVec.toNat_ofNat]
    omega
  rw [hn]
  simp only [be32, byteOf, List.cons.injEq, and_true]
  refine ⟨?_, ?_, ?_, ?_⟩
  all_goals
    apply BitVec.eq_of_toNat_eq
    rw [BitVec.toNat_ofNat]
    omega

/-! ### The argument lists (R195, R196) -/

theorem posArgs_some {args : List Byte} {p : Pos} (h : posArgs args = some p) : args = [byteOf p.val] := by
  unfold posArgs at h
  split at h
  · rw [fromZero_some h]
  · cases h

theorem legArgs_some {args : List Byte} {i : Fin 16} (h : legArgs args = some i) : args = [byteOf i.val] := by
  unfold legArgs at h
  split at h
  · rw [fromZero_some h]
  · cases h

theorem carArgs_some {args : List Byte} {c : CarId} {v : Fin 2} (h : carArgs args = some (c, v)) :
    args = [byteOf (c.val + 1), byteOf v.val] := by
  unfold carArgs at h
  split at h
  · simp only [Option.bind_eq_bind, Option.bind_eq_some_iff, Option.some.injEq, Prod.mk.injEq] at h
    obtain ⟨car, hcar, view, hview, rfl, rfl⟩ := h
    rw [fromOne_some hcar, fromZero_some hview]
  · cases h

theorem segmentArgs_some {args : List Byte} {g : SegId} {v : Fin 13} (h : segmentArgs args = some (g, v)) :
    args = [byteOf (g.val + 1), byteOf v.val] := by
  unfold segmentArgs at h
  split at h
  · simp only [Option.bind_eq_bind, Option.bind_eq_some_iff, Option.some.injEq, Prod.mk.injEq] at h
    obtain ⟨seg, hseg, view, hview, rfl, rfl⟩ := h
    rw [fromOne_some hseg, fromZero_some hview]
  · cases h

theorem linkArgs_some {args : List Byte} {k : JointId} {f : Bool} (h : linkArgs args = some (k, f)) :
    ∃ b, args = [byteOf (k.val + 1), b] ∧ f = flagArg b := by
  unfold linkArgs at h
  split at h
  · next b =>
    simp only [Option.bind_eq_bind, Option.bind_eq_some_iff, Option.some.injEq, Prod.mk.injEq] at h
    obtain ⟨joint, hjoint, rfl, rfl⟩ := h
    exact ⟨b, by rw [fromOne_some hjoint], rfl⟩
  · cases h

theorem noticeSetArgs_some {args : List Byte} {c : Fin 16} {e : Bool} {l : Fin 4} (h : noticeSetArgs args = some (c, e, l)) :
    ∃ b, args = [byteOf c.val, b, byteOf l.val] := by
  unfold noticeSetArgs at h
  split at h
  · next b _ =>
    simp only [Option.bind_eq_bind, Option.bind_eq_some_iff, Option.some.injEq, Prod.mk.injEq] at h
    obtain ⟨cat, hcat, level, hlevel, rfl, -, rfl⟩ := h
    exact ⟨b, by rw [fromZero_some hcat, fromZero_some hlevel]⟩
  · cases h

theorem watchArgs_some {args : List Byte} {w : Table Bool 48 × Nat × Nat} (h : watchArgs args = some w) :
    ∃ (set : List Byte) (height load : Nat), set.length = 6 ∧ 1 ≤ height ∧ height ≤ 2000 ∧ 1 ≤ load ∧ load ≤ 60000 ∧
      args = set ++ be16 height ++ be16 load := by
  unfold watchArgs at h
  split at h
  · next s0 s1 s2 s3 s4 s5 h0 h1 l0 l1 =>
    split at h
    · next hrange =>
      obtain ⟨hlow, hhigh, llow, lhigh⟩ := hrange
      exact ⟨[s0, s1, s2, s3, s4, s5], word16 h0 h1, word16 l0 l1, rfl, hlow, hhigh, llow, lhigh, by
        rw [be16_word16, be16_word16]; rfl⟩
    · cases h
  · cases h

/-- Settles O18: each owner finds its argument list unreadable. -/
theorem openRequestBadArguments : Obligations.OpenRequestBadArguments := by
  unfold Obligations.OpenRequestBadArguments
  intro s q r tag args hdue hbad
  cases r
  case readRoster =>
    have hargs : posArgs args = none := eq_none_of_forall fun p h => hbad ⟨p, posArgs_some h⟩
    exact State.onlyAnswers_of_refused hdue nofun (by simp [Request.owner, ownerReadRoster, hargs, State.refuse])
  case readColumn =>
    have hargs : posArgs args = none := eq_none_of_forall fun p h => hbad ⟨p, posArgs_some h⟩
    exact State.onlyAnswers_of_refused hdue nofun (by simp [Request.owner, ownerReadColumn, hargs, State.refuse])
  case readCar =>
    have hargs : carArgs args = none := eq_none_of_forall fun (c, v) h => hbad ⟨c, v, carArgs_some h⟩
    exact State.onlyAnswers_of_refused hdue nofun (by simp [Request.owner, ownerReadCar, hargs, State.refuse])
  case readSegment =>
    have hargs : segmentArgs args = none := eq_none_of_forall fun (g, v) h => hbad ⟨g, v, segmentArgs_some h⟩
    exact State.onlyAnswers_of_refused hdue nofun (by simp [Request.owner, ownerReadSegment, hargs, State.refuse])
  case readPlan =>
    have hargs : legArgs args = none := eq_none_of_forall fun i h => hbad ⟨i, legArgs_some h⟩
    exact State.onlyAnswers_of_refused hdue nofun (by simp [Request.owner, ownerReadPlan, hargs, State.refuse])
  case noticeSet =>
    have hargs : noticeSetArgs args = none := eq_none_of_forall fun (c, e, l) h =>
      (noticeSetArgs_some h).elim fun b hb => hbad ⟨c, b, l, hb⟩
    exact State.onlyAnswers_of_refused hdue nofun (by simp [Request.owner, ownerNoticeSet, hargs, State.refuse])
  case watch =>
    have hargs : watchArgs args = none := eq_none_of_forall fun w h => hbad (watchArgs_some h)
    exact State.onlyAnswers_of_refused hdue nofun (by simp [Request.owner, ownerWatch, hargs, State.refuse])
  case readGroup => exact State.onlyAnswers_of_refused hdue nofun (if_pos hbad)
  case readLimits => exact State.onlyAnswers_of_refused hdue nofun (if_pos hbad)
  case readStop => exact State.onlyAnswers_of_refused hdue nofun (if_pos hbad)
  case noticeNext => exact State.onlyAnswers_of_refused hdue nofun (if_pos hbad)
  case unwatch => exact State.onlyAnswers_of_refused hdue nofun (if_pos hbad)
  all_goals exact hbad.elim

/-! ### The argument lists of the holder's requests (R196) -/

theorem mapArgs_some {args : List Byte} {a : MapArgs} (h : mapArgs args = some a) :
    args = [byteOf a.pos.val, byteOf (a.seg.val + 1), byteOf (a.drop.val + 1)]
      ++ (match a.serial with | some x => be32 x.toNat | none => []) := by
  unfold mapArgs at h
  split at h
  · simp only [Option.bind_eq_bind, Option.bind_eq_some_iff, Option.some.injEq] at h
    obtain ⟨pos, hpos, seg, hseg, drop, hdrop, rfl⟩ := h
    rw [fromZero_some hpos, fromOne_some hseg, fromOne_some hdrop]
    rfl
  · simp only [Option.bind_eq_bind, Option.bind_eq_some_iff, Option.some.injEq] at h
    obtain ⟨pos, hpos, seg, hseg, drop, hdrop, rfl⟩ := h
    rw [fromZero_some hpos, fromOne_some hseg, fromOne_some hdrop]
    simp [be32_word32]
  · cases h

/-- What a JOG names, as its kind and its number (R196). -/
theorem jogArgs_some {args : List Byte} {t : JogTarget} {d : Int} (h : jogArgs args = some (t, d)) :
    ∃ a b, d = int16 a b ∧ ((∃ p : Pos, t = .column p ∧ args = [0, byteOf p.val, a, b]) ∨
      ∃ c : CarId, t = .car c ∧ args = [1, byteOf (c.val + 1), a, b]) := by
  unfold jogArgs at h
  split at h
  · next k _ a b =>
    split at h
    · next hk =>
      simp only [Option.map_eq_some_iff, Prod.mk.injEq] at h
      obtain ⟨p, hp, rfl, rfl⟩ := h
      exact ⟨a, b, rfl, .inl ⟨p, rfl, by rw [hk, fromZero_some hp]⟩⟩
    · split at h
      · next hk =>
        simp only [Option.map_eq_some_iff, Prod.mk.injEq] at h
        obtain ⟨c, hc, rfl, rfl⟩ := h
        exact ⟨a, b, rfl, .inr ⟨c, rfl, by rw [hk, fromOne_some hc]⟩⟩
      · cases h
  · cases h

theorem planLegArgs_some {args : List Byte} {a : PlanLegArgs} (h : planLegArgs args = some a) :
    ∃ b rest, args = b :: rest ∧ rest.length = 7 ∧ a.index = b.toNat := by
  unfold planLegArgs at h
  split at h
  · cases h
    exact ⟨_, _, rfl, rfl, rfl⟩
  · cases h

theorem planCutArgs_some {args : List Byte} {k : Nat} (h : planCutArgs args = some k) : ∃ b, args = [b] ∧ k = b.toNat := by
  unfold planCutArgs at h
  split at h
  · cases h
    exact ⟨_, rfl, rfl⟩
  · cases h

theorem limitArgs_some {args : List Byte} {i : Fin 17} {v : Nat} (h : limitArgs args = some (i, v)) :
    ∃ a b, args = [byteOf i.val, a, b] ∧ v = word16 a b := by
  unfold limitArgs at h
  split at h
  · next a b =>
    simp only [Option.bind_eq_bind, Option.bind_eq_some_iff, Option.some.injEq, Prod.mk.injEq] at h
    obtain ⟨id, hid, rfl, rfl⟩ := h
    exact ⟨a, b, by rw [fromZero_some hid], rfl⟩
  · cases h

/-! ### Phases and then arguments (section 4.3, R167) -/

theorem State.turnedAway_eq_none {s : State} {q : PortId} (hholder : s.holder = some q) (hp : s.power = .running) :
    s.turnedAway q = none := by
  simp [State.turnedAway, hholder, hp]

/-- A group request outside its phases is WRONG_PHASE, and in them one with arguments is BAD_ARG. -/
theorem State.groupRefusal_phases {s : State} {q : PortId} {taken : Phase → Bool} {phases : List Phase}
    (hholder : s.holder = some q) (hp : s.power = .running) (htaken : ∀ ph, taken ph = decide (ph ∈ phases)) (args : List Byte) :
    (s.phase ∉ phases → s.groupRefusal q taken args = some .wrongPhase) ∧
    (s.phase ∈ phases → args ≠ [] → s.groupRefusal q taken args = some .badArg) ∧
    (s.phase ∈ phases → args = [] → s.groupRefusal q taken args = none) := by
  unfold State.groupRefusal
  rw [State.turnedAway_eq_none hholder hp, htaken]
  exact ⟨fun h => by simp [h], fun h ha => by simp [h, ha], fun h ha => by simp [h, ha]⟩

/-- An owner that refuses in two steps, by the phase and then by the arguments, meets the statement of O37. -/
theorem State.onlyAnswers_phases {s : State} {q : PortId} {r : Request} {tag : Byte} {args : List Byte} {phases : List Phase}
    {bad : Prop} (hdue : s.holds q r tag args) (hr : r ≠ .claim)
    (hphase : s.phase ∉ phases → r.owner q s args = (s, .plain .wrongPhase))
    (hargs : s.phase ∈ phases → bad → r.owner q s args = (s, .plain .badArg)) :
    (s.phase ∉ phases → s.onlyAnswers q r tag (.plain .wrongPhase)) ∧
    (s.phase ∈ phases → bad → s.onlyAnswers q r tag (.plain .badArg)) :=
  ⟨fun h => State.onlyAnswers_of_refused hdue hr (hphase h), fun h hb => State.onlyAnswers_of_refused hdue hr (hargs h hb)⟩

theorem State.groupRefusal_refuses {s : State} {q : PortId} {c : ResultCode} {args : List Byte} :
    (s.groupRefusal q Phase.takesApproach args = some c → ownerApproach q s args = (s, .plain c)) ∧
    (s.groupRefusal q Phase.takesRun args = some c → ownerRun q s args = (s, .plain c)) ∧
    (s.groupRefusal q Phase.takesPause args = some c → ownerPause q s args = (s, .plain c)) ∧
    (s.groupRefusal q Phase.takesSetdown args = some c → ownerSetdown q s args = (s, .plain c)) ∧
    (s.groupRefusal q Phase.takesRetract args = some c → ownerRetract q s args = (s, .plain c)) := by
  refine ⟨fun h => ?_, fun h => ?_, fun h => ?_, fun h => ?_, fun h => ?_⟩
  · simp [ownerApproach, h, State.refuse]
  · simp [ownerRun, h, State.refuse]
  · simp [ownerPause, h, State.refuse]
  · simp [ownerSetdown, h, State.refuse]
  · simp [ownerRetract, h, State.refuse]

/-- A roster edit outside IDLE is WRONG_PHASE, and in IDLE it looks at its arguments (R4). -/
theorem State.rosterRefusal_phases {s : State} {q : PortId} (hholder : s.holder = some q) :
    (s.phase ∉ [Phase.idle] → s.rosterRefusal q = some .wrongPhase) ∧ (s.phase ∈ [Phase.idle] → s.rosterRefusal q = none) := by
  constructor
  · intro h
    simp [State.rosterRefusal, hholder, show s.phase ≠ .idle by simpa using h]
  · intro h
    exact State.rosterRefusal_eq_none hholder (by simpa using h)

/-- A plan edit is refused in LIFTING, LOWERING and DWELL alone (R100, R102). -/
theorem State.planRefusal_phases {s : State} {q : PortId} (hholder : s.holder = some q) (hp : s.power = .running) :
    let phases := [Phase.idle, .approach, .aligned, .holding, .landed, .retracting, .stopped]
    (s.phase ∉ phases → s.planRefusal q = some .wrongPhase) ∧ (s.phase ∈ phases → s.planRefusal q = none) := by
  have hedit : ∀ ph : Phase, ph.refusesPlanEdit =
      !decide (ph ∈ [Phase.idle, .approach, .aligned, .holding, .landed, .retracting, .stopped]) := by
    rintro ⟨⟩ <;> rfl
  unfold State.planRefusal
  rw [State.turnedAway_eq_none hholder hp, hedit]
  exact ⟨fun h => by simp [h], fun h => by simp [h]⟩

/-! The phases that take each group request, as the table of section 4.3 has them. -/

theorem Phase.takesApproach_eq (ph : Phase) : ph.takesApproach = decide (ph ∈ [Phase.idle]) := by
  cases ph <;> rfl

theorem Phase.takesRun_eq (ph : Phase) :
    ph.takesRun = decide (ph ∈ [Phase.aligned, .holding, .lifting, .lowering]) := by
  cases ph <;> rfl

theorem Phase.takesPause_eq (ph : Phase) : ph.takesPause = decide (ph ∈ [Phase.lifting, .lowering, .dwell]) := by
  cases ph <;> rfl

theorem Phase.takesSetdown_eq (ph : Phase) : ph.takesSetdown = decide (ph ∈ [Phase.aligned, .holding]) := by
  cases ph <;> rfl

theorem Phase.takesRetract_eq (ph : Phase) : ph.takesRetract = decide (ph ∈ [Phase.aligned, .landed]) := by
  cases ph <;> rfl

theorem Phase.isMotion_eq (ph : Phase) :
    ph.isMotion = !decide (ph ∈ [Phase.idle, .aligned, .holding, .landed, .stopped]) := by
  cases ph <;> rfl

theorem ownerJog_badArg {s : State} {q : PortId} {args : List Byte} (haway : s.turnedAway q = none) (hphase : s.phase = .holding)
    (hbad : (¬ ∃ (p : Pos) (a b : Byte), args = [0, byteOf p.val, a, b] ∧ s.validPos p = true) ∧
      ¬ ∃ (c : CarId) (a b : Byte), args = [1, byteOf (c.val + 1), a, b] ∧ s.carPresent c = true) :
    ownerJog q s args = (s, .plain .badArg) := by
  obtain ⟨hcolumn, hcar⟩ := hbad
  cases hargs : jogArgs args with
  | none => simp [ownerJog, haway, hphase, hargs, State.refuse]
  | some x =>
    obtain ⟨t, d⟩ := x
    have hadmits : s.jogAdmits t = false := by
      obtain ⟨a, b, -, ⟨p, rfl, hp⟩ | ⟨c, rfl, hc⟩⟩ := jogArgs_some hargs
      · exact Bool.eq_false_iff.mpr fun hv => hcolumn ⟨p, a, b, hp, hv⟩
      · exact Bool.eq_false_iff.mpr fun hv => hcar ⟨c, a, b, hc, hv⟩
    simp [ownerJog, haway, hphase, hargs, hadmits, State.refuse]

theorem ownerPlanLeg_badArg {s : State} {q : PortId} {args : List Byte} (hcheck : s.planRefusal q = none)
    (hbad : ¬ ∃ (i : Fin 16) (rest : List Byte), args = byteOf i.val :: rest ∧ rest.length = 7 ∧ i.val ≤ s.plan.count) :
    ownerPlanLeg q s args = (s, .plain .badArg) := by
  cases hargs : planLegArgs args with
  | none => simp [ownerPlanLeg, hcheck, hargs, State.refuse]
  | some a =>
    obtain ⟨b, rest, hlist, hlen, hindex⟩ := planLegArgs_some hargs
    have hout : ∀ hi : a.index < 16, s.plan.count < a.index := fun hi => Nat.lt_of_not_le fun hle =>
      hbad ⟨⟨a.index, hi⟩, rest, by simp only [hlist, hindex, byteOf_toNat], hlen, hle⟩
    by_cases hi : a.index < 16
    · simp [ownerPlanLeg, hcheck, hargs, hi, hout hi, State.refuse]
    · simp [ownerPlanLeg, hcheck, hargs, hi, State.refuse]

theorem ownerPlanCut_badArg {s : State} {q : PortId} {args : List Byte} (hcheck : s.planRefusal q = none)
    (hbad : ¬ ∃ k : Byte, args = [k] ∧ k.toNat ≤ s.plan.count) : ownerPlanCut q s args = (s, .plain .badArg) := by
  cases hargs : planCutArgs args with
  | none => simp [ownerPlanCut, hcheck, hargs, State.refuse]
  | some k =>
    obtain ⟨b, hlist, hk⟩ := planCutArgs_some hargs
    have hout : s.plan.count < k := Nat.lt_of_not_le fun hle => hbad ⟨b, hlist, hk ▸ hle⟩
    simp [ownerPlanCut, hcheck, hargs, hout, State.refuse]

theorem ownerMap_badArg {s : State} {q : PortId} {args : List Byte} (hcheck : s.rosterRefusal q = none)
    (hbad : ¬ ∃ (p : Pos) (g : SegId) (d : DropId) (serial : Option (BitVec 32)),
      args = [byteOf p.val, byteOf (g.val + 1), byteOf (d.val + 1)] ++ (match serial with | some x => be32 x.toNat | none => [])) :
    ownerMap q s args = (s, .plain .badArg) := by
  have hargs : mapArgs args = none := eq_none_of_forall fun a ha =>
    hbad ⟨a.pos, a.seg, a.drop, a.serial, mapArgs_some ha⟩
  simp [ownerMap, hcheck, hargs, State.refuse]

/-- Settles O37: the phase check and then the argument list of each owner. -/
theorem wrongPhaseThenBadArgument : Obligations.WrongPhaseThenBadArgument := by
  unfold Obligations.WrongPhaseThenBadArgument
  intro s q r tag args phases hdue hholder hready hphases
  obtain ⟨hrosterOut, hrosterIn⟩ := State.rosterRefusal_phases hholder
  obtain ⟨happroach, hrun, hpause, hsetdown, hretract⟩ := State.groupRefusal_refuses (s := s) (q := q) (c := .wrongPhase) (args := args)
  obtain ⟨happroach', hrun', hpause', hsetdown', hretract'⟩ := State.groupRefusal_refuses (s := s) (q := q) (c := .badArg) (args := args)
  by_cases hroster : r ∈ [Request.map, .unmap, .link, .confirm]
  · cases r
    case map =>
      subst hphases
      exact State.onlyAnswers_phases hdue nofun (fun h => State.rosterRefusal_refuses (hrosterOut h) hroster args)
        fun h => ownerMap_badArg (hrosterIn h)
    case unmap =>
      subst hphases
      refine State.onlyAnswers_phases hdue nofun (fun h => State.rosterRefusal_refuses (hrosterOut h) hroster args) fun h hbad => ?_
      have hargs : posArgs args = none := eq_none_of_forall fun p hp => hbad ⟨p, posArgs_some hp⟩
      simp [Request.owner, ownerUnmap, hrosterIn h, hargs, State.refuse]
    case link =>
      subst hphases
      refine State.onlyAnswers_phases hdue nofun (fun h => State.rosterRefusal_refuses (hrosterOut h) hroster args) fun h hbad => ?_
      have hargs : linkArgs args = none := eq_none_of_forall fun (k, f) hk =>
        (linkArgs_some hk).elim fun b ⟨hb, _⟩ => hbad ⟨k, b, hb⟩
      exact ownerLink_badArg (hrosterIn h) hargs
    case confirm =>
      subst hphases
      refine State.onlyAnswers_phases hdue nofun (fun h => State.rosterRefusal_refuses (hrosterOut h) hroster args) fun h hbad => ?_
      simp [Request.owner, ownerConfirm, hrosterIn h, hbad, State.refuse]
    all_goals simp at hroster
  · have hp : s.power = .running := hready.resolve_left hroster
    have haway := State.turnedAway_eq_none hholder hp
    obtain ⟨hplanOut, hplanIn⟩ := State.planRefusal_phases hholder hp
    cases r
    case approach =>
      subst hphases
      obtain ⟨hout, hin, -⟩ := State.groupRefusal_phases hholder hp Phase.takesApproach_eq args
      exact State.onlyAnswers_phases hdue nofun (fun h => happroach (hout h)) fun h hbad => happroach' (hin h hbad)
    case run =>
      subst hphases
      obtain ⟨hout, hin, -⟩ := State.groupRefusal_phases hholder hp Phase.takesRun_eq args
      exact State.onlyAnswers_phases hdue nofun (fun h => hrun (hout h)) fun h hbad => hrun' (hin h hbad)
    case pause =>
      subst hphases
      obtain ⟨hout, hin, -⟩ := State.groupRefusal_phases hholder hp Phase.takesPause_eq args
      exact State.onlyAnswers_phases hdue nofun (fun h => hpause (hout h)) fun h hbad => hpause' (hin h hbad)
    case setdown =>
      subst hphases
      obtain ⟨hout, hin, -⟩ := State.groupRefusal_phases hholder hp Phase.takesSetdown_eq args
      exact State.onlyAnswers_phases hdue nofun (fun h => hsetdown (hout h)) fun h hbad => hsetdown' (hin h hbad)
    case retract =>
      subst hphases
      obtain ⟨hout, hin, -⟩ := State.groupRefusal_phases hholder hp Phase.takesRetract_eq args
      exact State.onlyAnswers_phases hdue nofun (fun h => hretract (hout h)) fun h hbad => hretract' (hin h hbad)
    case jog =>
      subst hphases
      refine State.onlyAnswers_phases hdue nofun (fun h => ?_) fun h hbad => ownerJog_badArg haway (by simpa using h) hbad
      simp [Request.owner, ownerJog, haway, show s.phase ≠ .holding by simpa using h, State.refuse]
    case planLeg =>
      subst hphases
      refine State.onlyAnswers_phases hdue nofun (fun h => ?_) fun h hbad => ownerPlanLeg_badArg (hplanIn h) hbad
      simp [Request.owner, ownerPlanLeg, hplanOut h, State.refuse]
    case planCut =>
      subst hphases
      refine State.onlyAnswers_phases hdue nofun (fun h => ?_) fun h hbad => ownerPlanCut_badArg (hplanIn h) hbad
      simp [Request.owner, ownerPlanCut, hplanOut h, State.refuse]
    case limitSet =>
      subst hphases
      refine State.onlyAnswers_phases hdue nofun (fun h => ?_) fun h hbad => ?_
      · simp [Request.owner, ownerLimitSet, haway, Phase.isMotion_eq, h, State.refuse]
      · have hargs : limitArgs args = none := eq_none_of_forall fun (i, v) hi =>
          (limitArgs_some hi).elim fun a ⟨b, hb, _⟩ => hbad ⟨i, a, b, hb⟩
        simp [Request.owner, ownerLimitSet, haway, Phase.isMotion_eq, h, hargs, State.refuse]
    all_goals simp at hroster hphases

end Sys2Proof.Machine

/-! O19, O20 and O23: the layouts of the reads and of the notices (section 12.2). -/

namespace Sys2Proof

/-- A list over the rows of a table is one over their numbers. -/
theorem Table.rows_map {α β : Type} {n : Nat} (t : Table α n) (f : α → β) :
    t.rows.map f = (List.finRange n).map fun i => f (t.get i) := by
  rw [Table.rows_eq, List.ofFn_eq_map, List.map_map]
  rfl

end Sys2Proof

namespace Sys2Proof.Machine

set_option Elab.async false

/-! ### The argument bytes read back -/

theorem Timer.isRunning_eq (t : Timer) : t.isRunning = decide (t ≠ .stopped) := by
  cases t <;> rfl

theorem posArgs_byteOf (p : Pos) : posArgs [byteOf p.val] = some p :=
  fromZero_byteOf (n := 48) (by decide) p

theorem legArgs_byteOf (i : Fin 16) : legArgs [byteOf i.val] = some i :=
  fromZero_byteOf (n := 16) (by decide) i

theorem carArgs_byteOf (c : CarId) (v : Fin 2) : carArgs [byteOf (c.val + 1), byteOf v.val] = some (c, v) := by
  simp [carArgs, fromOne_byteOf (n := 12) (by decide), fromZero_byteOf (n := 2) (by decide)]

theorem segmentArgs_byteOf (g : SegId) (v : Fin 13) : segmentArgs [byteOf (g.val + 1), byteOf v.val] = some (g, v) := by
  simp [segmentArgs, fromOne_byteOf (n := 4) (by decide), fromZero_byteOf (n := 13) (by decide)]

/-! ### The layouts of the tables (R19 to R22, R45, R103, R144) -/

theorem State.rosterData_eq (s : State) (p : Pos) : s.rosterData p =
    [entryByte (s.entry p)] ++ serialBytes ((s.entry p).bind fun e => e.serial)
      ++ [byteOf s.roster.confirmed.toNat, byteOf s.validPositions.length] ++ be16 (bitsOf s.roster.links.rows)
      ++ be16 (bitsOf ((List.finRange 11).map s.linkEffective)) ++ be16 (bitsOf ((List.finRange 12).map s.carPresent)) := by
  simp [State.rosterData, State.validCount, State.effectiveBits, State.presenceBits]

theorem State.columnData_eq (s : State) (p : Pos) : s.columnData p =
    (let c := s.col p
    [byteOf (c.link.code + 128 * c.cap.serial.isSome.toNat)] ++ serialBytes c.cap.serial ++ opt16 c.cap.stroke
      ++ opt16 c.cap.rated ++ opt16 c.cap.maxSpeed ++ opt16 c.height ++ opt16 c.load
      ++ [byteOf (bitsOf [c.range, c.flags.moving, c.flags.upperLimit, c.flags.lowerLimit, c.flags.driveFault])]
      ++ opt16 c.contact ++ optSigned24 c.rel ++ signed16 c.offset ++ optSigned24 c.lag
      ++ [byteOf (c.cls.code + 4 * c.mark.toNat)] ++ signed16 c.demand
      ++ [byteOf (bitsOf [c.jog, c.parked, c.share, c.wasLost])] ++ opt16 c.creep ++ [entryByte (s.entry p)]) := by
  simp [State.columnData, Column.bytes, Capability.bytes, DriveFlags.bits]

theorem State.jointFlags_eq (s : State) (j : Option JointId) :
    s.jointFlags j = [j.any s.roster.links.get, j.any s.linkEffective] := by
  cases j <;> rfl

theorem State.carSummary_eq (s : State) (k : CarId) : s.carSummary k =
    (let lost := fun i => (s.col (posOf k i)).wasLost
    let share := fun i => (s.col (posOf k i)).share
    [byteOf (bitsOf [s.carPresent k, (jointBefore k).any s.roster.links.get, (jointBefore k).any s.linkEffective,
        (jointAfter k).any s.roster.links.get, (jointAfter k).any s.linkEffective]),
      byteOf (bitsOf [lost 0, lost 1, lost 2, lost 3, share 0, share 1, share 2, share 3])]
      ++ [s.pointByte (posOf k 0), s.pointByte (posOf k 1), s.pointByte (posOf k 2), s.pointByte (posOf k 3)]
      ++ opt24 (s.spread.get k) ++ opt24 (s.totalLoad k) ++ opt24 (s.endBalance (jointBefore k))
      ++ opt24 (s.endBalance (jointAfter k))) := by
  simp [State.carSummary, State.jointFlags_eq, carPositions]

theorem State.carPoints_eq (s : State) (k : CarId) : s.carPoints k =
    (let point := fun i => opt16 (s.col (posOf k i)).height ++ opt16 (s.col (posOf k i)).load
      ++ optSigned24 (s.col (posOf k i)).rel
    point 0 ++ point 1 ++ point 2 ++ point 3) := by
  simp [State.carPoints, carPositions]

theorem Segment.lineData_eq (sg : Segment) : sg.lineData =
    [byteOf (bitsOf [decide (sg.mode = .quiet), decide (sg.quietTimer ≠ .stopped), sg.overrun, sg.allstopOwed]
        + 16 * sg.echo.code), byteOf (sg.discovery.val + 1)] ++ echoResultBytes sg.lastEcho
      ++ sg.drops.rows.map fun d => byteOf (d.link.code + 8 * d.miss + 32 * d.page.val) := by
  simp [Segment.lineData, Segment.isQuiet, Timer.isRunning_eq, Drop.statusByte]

theorem State.dropData_eq (s : State) (g : SegId) (d : DropId) : s.dropData g d =
    (let x := s.drop g d
    [byteOf (x.link.code + 8 * x.miss + 32 * x.page.val)] ++ opt8 ((s.mappedAt g d).map fun p => p.val)
      ++ [byteOf x.cap.serial.isSome.toNat] ++ serialBytes x.cap.serial ++ opt16 x.cap.stroke ++ opt16 x.cap.rated
      ++ opt16 x.cap.maxSpeed) := by
  simp [State.dropData, Drop.statusByte, Capability.bytes]

theorem dropOfView_succ (d : DropId) : dropOfView ⟨d.val + 1, by omega⟩ = some d := by
  simp [dropOfView]

theorem ownerReadCar_of_args {s : State} {args : List Byte} {c : CarId} {v : Fin 2} (h : carArgs args = some (c, v)) :
    ownerReadCar s args = (s, .doneWith (if v = 0 then s.carSummary c else s.carPoints c)) := by
  simp only [ownerReadCar, h]

theorem ownerReadSegment_of_args {s : State} {args : List Byte} {g : SegId} {v : Fin 13} (h : segmentArgs args = some (g, v)) :
    ownerReadSegment s args = (s, .doneWith (s.segmentData g v)) := by
  simp only [ownerReadSegment, h]

/-- Settles O19: each read's argument and the layout of its data. -/
theorem readsOfTables : Obligations.ReadsOfTables := by
  unfold Obligations.ReadsOfTables
  intro s q tag
  refine ⟨fun p hdue => ?_, fun p hdue => ?_, fun k hdue => ?_, fun k hdue => ?_, fun g hdue => ?_, fun g d hdue => ?_,
    fun i hdue => ?_, fun hdue => ?_⟩
  · rw [← State.rosterData_eq]
    exact State.onlyAnswers_of_refused hdue nofun (by simp [Request.owner, ownerReadRoster, posArgs_byteOf])
  · rw [← State.columnData_eq]
    exact State.onlyAnswers_of_refused hdue nofun (by simp [Request.owner, ownerReadColumn, posArgs_byteOf])
  · rw [← State.carSummary_eq]
    exact State.onlyAnswers_of_refused hdue nofun (ownerReadCar_of_args (carArgs_byteOf k 0))
  · rw [← State.carPoints_eq]
    exact State.onlyAnswers_of_refused hdue nofun (ownerReadCar_of_args (carArgs_byteOf k 1))
  · rw [← Segment.lineData_eq]
    exact State.onlyAnswers_of_refused hdue nofun (ownerReadSegment_of_args (segmentArgs_byteOf g 0))
  · have hdata : s.segmentData g ⟨d.val + 1, by omega⟩ = s.dropData g d := by
      simp [State.segmentData, dropOfView_succ]
    rw [← State.dropData_eq, ← hdata]
    exact State.onlyAnswers_of_refused hdue nofun (ownerReadSegment_of_args (segmentArgs_byteOf g ⟨d.val + 1, by omega⟩))
  · exact State.onlyAnswers_of_refused hdue nofun (by simp [Request.owner, ownerReadPlan, legArgs_byteOf, State.planData])
  · exact State.onlyAnswers_of_refused hdue nofun (by simp [Request.owner, ownerReadLimits, State.limitsData_eq])

/-! ### The layouts of the records (R84, R157) -/

theorem StopUnit.data_eq (u : StopUnit) : u.data =
    [byteOf (bitsOf [u.record.isSome, u.previous.isSome, contactOpen u.stopIn, contactOpen u.stopOut])] ++ u.recordBlock
      ++ u.previousBlock := rfl

theorem stopBlock_eq (r : StopRecord) (f : Table Bool 14) : stopBlock r f =
    [byteOf r.cause.code.val] ++ opt8 (r.pos.map fun p => p.val) ++ opt8 (r.car.map fun c => c.val + 1)
      ++ optSigned24 r.value ++ [byteOf r.phase.code] ++ be16 r.h ++ [byteOf r.legIndex]
      ++ opt8 (r.port.map fun x => x.val) ++ be16 (bitsOf f.rows) := by
  simp [stopBlock, causeSet]

theorem State.dwellLeft_outside {s : State} (h : s.phase ≠ .dwell) : s.dwellLeft = none := by
  unfold State.dwellLeft
  split
  · next hd => exact absurd hd h
  all_goals rfl

theorem clampNat_bounds {lo hi x : Nat} (h : lo ≤ hi) : lo ≤ clampNat lo hi x ∧ clampNat lo hi x ≤ hi := by
  unfold clampNat
  repeat' split
  all_goals omega

/-- In DWELL the time left lies between 1 and the whole dwell, whatever the free value (log entry 2). -/
theorem State.dwellLeft_dwell {s : State} (h : s.phase = .dwell) :
    ∃ k, s.dwellLeft = some k ∧ 1 ≤ k ∧ k ≤ max 1 (10 * s.ref.dwell) := by
  refine ⟨clampNat 1 (max 1 (10 * s.ref.dwell)) (Config.dwellTenthsLeft s.fresh), by simp [State.dwellLeft, h],
    clampNat_bounds (le_max_left _ _)⟩

theorem Direction.isDown_eq (d : Direction) : d.isDown = decide (d = .down) := by
  cases d <;> rfl

theorem State.groupData_eq (s : State) : s.groupData =
    [byteOf s.phase.code, byteOf (bitsOf [s.pausePending, s.ref.setDown, decide (s.ref.dir = .down), s.ref.arrived,
        s.segs.rows.any fun sg => decide (sg.echo ≠ .none), contactOpen s.stop.stopIn, contactOpen s.stop.stopOut,
        s.roster.confirmed]), byteOf s.plan.index, byteOf s.plan.count]
      ++ opt16 s.ref.target ++ opt16 s.ref.speed ++ be32 s.ref.fine ++ be16 s.ref.h ++ be16 s.ref.vEff ++ opt16 s.dwellLeft
      ++ [byteOf s.holdCount, byteOf s.outCount,
        byteOf (s.validPositions.filter fun p => decide ((s.col p).link = .enrolled)).length] := by
  rw [← Direction.isDown_eq]
  rfl

/-- Settles O20: the layouts, and the free value that a READ_GROUP in DWELL uses up. -/
theorem readsOfRecords : Obligations.ReadsOfRecords := by
  unfold Obligations.ReadsOfRecords
  intro s q tag
  refine ⟨fun hdue => ?_, fun r hr => ?_, fun hr => ?_, fun r f hr => ?_, fun hr => ?_, stopBlock_eq, fun hdue => ?_⟩
  · exact State.onlyAnswers_of_refused hdue nofun rfl
  · simp [StopUnit.recordBlock, hr]
  · simp [StopUnit.recordBlock, hr, absentBlock]
  · simp [StopUnit.previousBlock, hr]
  · simp [StopUnit.previousBlock, hr, absentBlock]
  · refine ⟨s.dwellLeft, State.dwellLeft_outside, State.dwellLeft_dwell, ?_⟩
    rw [← State.groupData_eq]
    refine State.executes_of_owner rfl hdue rfl ?_ ⟨?_, fun hphase => ?_⟩
    · split <;> rfl
    · split <;> rfl
    · simp [State.dwellLeft_outside hphase]

/-! ### The contents of the notices (R179) -/

theorem bitsOf_append (l m : List Bool) : bitsOf (l ++ m) = bitsOf l + 2 ^ l.length * bitsOf m := by
  induction l with
  | nil => simp [bitsOf]
  | cons b l ih =>
    simp only [List.cons_append, bitsOf, ih, List.length_cons, pow_succ]
    ring

theorem positionSet_eq (t : Table Bool 48) : positionSet t =
    (List.finRange 6).map fun j : Fin 6 => byteOf (bitsOf ((List.finRange 8).map
      fun i : Fin 8 => t.get ⟨8 * j.val + i.val, by omega⟩)) := by
  have h6 : List.finRange 6 = [0, 1, 2, 3, 4, 5] := by decide
  have h8 : List.finRange 8 = [0, 1, 2, 3, 4, 5, 6, 7] := by decide
  have hrows : t.rows = (List.finRange 48).map t.get := by rw [Table.rows_eq, List.ofFn_eq_map]
  rw [positionSet, hrows, h6, h8]
  rfl

/-- The set of positions whose column record meets a test, byte by byte. -/
theorem State.positionSet_positionsWith (s : State) (test : Column → Bool) : positionSet (s.positionsWith test) =
    (List.finRange 6).map fun j : Fin 6 => byteOf (bitsOf ((List.finRange 8).map
      fun i : Fin 8 => test (s.col ⟨8 * j.val + i.val, by omega⟩))) := by
  simp [positionSet_eq, State.positionsWith, State.col]

theorem State.mismatched_eq (s : State) (p : Pos) : s.mismatched p = (s.entry p).any fun e =>
    decide ((s.drop e.seg e.drop).link = .ready) && e.serial.isSome
      && decide ((s.drop e.seg e.drop).cap.serial ≠ e.serial) := by
  unfold State.mismatched
  split
  · next h => rw [h]; rfl
  · next h => rw [h]; rfl

theorem State.dropsIn_eq (s : State) (g : SegId) (l : LinkState) :
    (s.seg g).dropsIn l = bitsOf ((List.finRange 12).map fun d => decide ((s.drop g d).link = l)) := by
  rw [Segment.dropsIn, Table.rows_map]
  rfl

theorem State.enrolContent_eq (s : State) : s.noticeContent .enrol = ((List.finRange 4).map fun g =>
    be24 (bitsOf ((List.finRange 12).map fun d => decide ((s.drop g d).link = .ready))
      + 4096 * bitsOf ((List.finRange 12).map fun d => decide ((s.drop g d).link = .refused)))).flatten := by
  rw [State.noticeContent, Table.rows_map]
  refine congrArg List.flatten (List.map_congr_left fun g _ => ?_)
  rw [Segment.enrolContent, ← State.dropsIn_eq, ← State.dropsIn_eq]
  rfl

theorem State.cycleOverrunContent_eq (s : State) : s.noticeContent .cycleOverrun =
    [byteOf (bitsOf ((List.finRange 4).map fun g => (s.seg g).overrun)
      + 16 * bitsOf ((List.finRange 4).map fun g => decide ((s.seg g).mode = .quiet)))] := by
  rw [State.noticeContent, bitsOf_append, Table.rows_map, Table.rows_map]
  rfl

/-- Settles O23: the content of each category. -/
theorem noticeContents : Obligations.NoticeContents := by
  unfold Obligations.NoticeContents
  intro s set block
  have hset : ∀ test : Column → Bool, positionSet (s.positionsWith test) = set fun p => test (s.col p) :=
    s.positionSet_positionsWith
  refine ⟨?_, ?_, ?_, ?_, ?_, ?_, ?_, ?_, ?_, ?_, ?_, ?_, s.enrolContent_eq, s.cycleOverrunContent_eq, ?_, fun h => ?_, fun k h => ?_⟩
  case refine_3 => simp only [State.noticeContent, hset]
  case refine_7 => exact (positionSet_eq _).trans (by simp only [Table.get_build, State.mismatched_eq, set])
  case refine_14 => simp only [State.noticeContent, h, creepContent]
  case refine_15 => simp [State.noticeContent, h, creepContent]
  case refine_4 => exact hset _
  case refine_5 => exact hset _
  case refine_6 => exact hset _
  all_goals rfl

end Sys2Proof.Machine

/-! O25 and O26: WATCH, UNWATCH and the watches' test. -/

namespace Sys2Proof.Machine

set_option Elab.async false

/-! ### Numbers and sets through their bytes (R195) -/

theorem byteOf_val {n : Nat} (h : n < 256) : (byteOf n).toNat = n := by
  rw [byteOf, BitVec.toNat_ofNat]
  omega

/-- A 16-bit number is read back from its two bytes. -/
theorem word16_byteOf {n : Nat} (h : n < 65536) : word16 (byteOf (n / 256)) (byteOf n) = n := by
  rw [word16, byteOf, byteOf, BitVec.toNat_ofNat, BitVec.toNat_ofNat]
  omega

theorem bitsOf_testBit (l : List Bool) (i : Nat) : (bitsOf l).testBit i = l.getD i false := by
  induction l generalizing i with
  | nil => simp [bitsOf]
  | cons b l ih =>
    cases i with
    | zero => cases b <;> simp [bitsOf, Nat.testBit_zero]
    | succ i =>
      rw [bitsOf, Nat.testBit_succ]
      have hhalf : (b.toNat + 2 * bitsOf l) / 2 = bitsOf l := by
        have hb : b.toNat < 2 := Bool.toNat_lt b
        omega
      rw [hhalf, ih]
      rfl

theorem byteOf_getLsbD (n : Nat) {i : Nat} (h : i < 8) : (byteOf n).getLsbD i = n.testBit i := by
  rw [byteOf, BitVec.getLsbD_ofNat]
  simp [h]

/-- Flag `i` of a byte of eight flags. -/
theorem byteOf_bitsOf_getLsbD (l : List Bool) {i : Nat} (h : i < 8) : (byteOf (bitsOf l)).getLsbD i = l.getD i false := by
  rw [byteOf_getLsbD _ h, bitsOf_testBit]

/-- A set of positions is read back from its six bytes. -/
theorem positionSet_getLsbD (t : Table Bool 48) (p : Pos) :
    ((positionSet t).getD (p.val / 8) 0).getLsbD (p.val % 8) = t.get p := by
  have hdiv : p.val / 8 < 6 := by omega
  have hmod : p.val % 8 < 8 := Nat.mod_lt _ (by decide)
  have hbyte : (positionSet t).getD (p.val / 8) 0 = byteOf (bitsOf ((List.finRange 8).map
      fun i : Fin 8 => t.get ⟨8 * (p.val / 8) + i.val, by omega⟩)) := by
    rw [positionSet_eq]
    simp [List.getD_eq_getElem?_getD, hdiv]
  rw [hbyte, byteOf_bitsOf_getLsbD _ hmod]
  simp [List.getD_eq_getElem?_getD, hmod, Nat.div_add_mod]

theorem watchArgs_bytes (set : Table Bool 48) {h l : Nat} (hlow : 1 ≤ h) (hhigh : h ≤ 2000) (llow : 1 ≤ l) (lhigh : l ≤ 60000) :
    watchArgs (positionSet set ++ be16 h ++ be16 l) = some (set, h, l) := by
  have hh : word16 (byteOf (h / 256)) (byteOf h) = h := word16_byteOf (by omega)
  have hl : word16 (byteOf (l / 256)) (byteOf l) = l := word16_byteOf (by omega)
  have hset : (Table.build fun p : Pos => ((positionSet set).getD (p.val / 8) 0).getLsbD (p.val % 8)) = set := by
    ext p
    rw [Table.get_build, positionSet_getLsbD]
  have hrange : 1 ≤ word16 (byteOf (h / 256)) (byteOf h) ∧ word16 (byteOf (h / 256)) (byteOf h) ≤ 2000 ∧
      1 ≤ word16 (byteOf (l / 256)) (byteOf l) ∧ word16 (byteOf (l / 256)) (byteOf l) ≤ 60000 := by
    rw [hh, hl]
    exact ⟨hlow, hhigh, llow, lhigh⟩
  have hargs : watchArgs (positionSet set ++ be16 h ++ be16 l) = some ((Table.build fun p : Pos =>
      ((positionSet set).getD (p.val / 8) 0).getLsbD (p.val % 8)), word16 (byteOf (h / 256)) (byteOf h),
      word16 (byteOf (l / 256)) (byteOf l)) :=
    if_pos hrange
  rw [hargs, hset, hh, hl]

/-! ### WATCH and UNWATCH (R181, R182) -/

/-- Settles O25: the new watch of each request. -/
theorem watchAndUnwatch : Obligations.WatchAndUnwatch := by
  unfold Obligations.WatchAndUnwatch
  intro s q tag
  constructor
  · intro set h l hlow hhigh llow lhigh hdue
    have howner : ownerWatch q s (positionSet set ++ be16 h ++ be16 l) = (s.modWatch q fun _ => s.newWatch set h l, .plain .done) := by
      simp only [ownerWatch, watchArgs_bytes set hlow hhigh llow lhigh]
    refine State.executes_of_owner rfl hdue howner rfl ⟨⟨s.newWatch set h l, rfl, rfl, rfl, rfl, rfl, fun p => ⟨?_, ?_⟩⟩, rfl⟩
    · exact Table.get_fill _ _
    · exact Table.get_build _ _
  · intro hdue
    have howner : ownerUnwatch q s [] = (s.modWatch q WatchState.emptied, .plain .done) := rfl
    refine State.executes_of_owner rfl hdue howner rfl ⟨⟨(s.watches.get q).emptied, rfl, ?_⟩, rfl⟩
    by_cases hempty : (s.watches.get q).watched = .fill 48 false
    · have hw : (s.watches.get q).emptied = s.watches.get q := if_pos hempty
      rw [hw, hempty]
      refine ⟨rfl, rfl, fun p => Table.get_fill _ _, fun ⟨p, hp⟩ => ?_, fun _ => rfl⟩
      rw [Table.get_fill] at hp
      cases hp
    · have hw : (s.watches.get q).emptied = { s.watches.get q with
          watched := .fill 48 false, lastSent := .fill 48 none, owed := .fill 48 false, pointer := 47 } := if_neg hempty
      rw [hw]
      refine ⟨rfl, rfl, fun p => Table.get_fill _ _, fun _ => ⟨rfl, fun p => ⟨Table.get_fill _ _, Table.get_fill _ _⟩⟩,
        fun h => absurd ?_ hempty⟩
      ext p
      rw [h p, Table.get_fill]

/-! ### The watches' test (R183) -/

theorem natDistance_eq (a b : Nat) : (natDistance a b : Int) = |(a : Int) - b| := by
  unfold natDistance
  rcases le_total a b with h | h
  · rw [abs_of_nonpos (by omega)]
    omega
  · rw [abs_of_nonneg (by omega)]
    omega

/-- A value differs in presence, or by at least the deadband. -/
theorem movedBy_iff (band : Nat) (x y : Option Nat) : movedBy band x y = true ↔
    x.isSome ≠ y.isSome ∨ ∃ a b, x = some a ∧ y = some b ∧ (band : Int) ≤ |(a : Int) - b| := by
  have hle : ∀ a b : Nat, band ≤ natDistance a b ↔ (band : Int) ≤ |(a : Int) - b| := fun a b => by
    rw [← natDistance_eq]
    omega
  cases x <;> cases y <;> simp [movedBy, hle]

/-- The five conditions of R183. -/
theorem WatchState.differs_iff (w : WatchState) (p : Pos) (c : Column) : w.differs p c = true ↔
    match w.lastSent.get p with
    | none => True
    | some k =>
      c.height.isSome ≠ k.height.isSome ∨
      (∃ a b, c.height = some a ∧ k.height = some b ∧ (w.heightBand : Int) ≤ |(a : Int) - b|) ∨
      c.load.isSome ≠ k.load.isSome ∨
      (∃ a b, c.load = some a ∧ k.load = some b ∧ (w.loadBand : Int) ≤ |(a : Int) - b|) ∨
      c.link ≠ k.link ∨ c.cls ≠ k.cls ∨ c.mark ≠ k.mark := by
  unfold WatchState.differs
  cases w.lastSent.get p with
  | none => simp
  | some k => simp only [Bool.or_eq_true, movedBy_iff, decide_eq_true_eq, or_assoc]

/-- Settles O26: the test at one station sets one flag of the owed set, or nothing. -/
theorem watchTestOwes : Obligations.WatchTestOwes := by
  unfold Obligations.WatchTestOwes
  intro s p
  refine ⟨rfl, fun q => ?_⟩
  rw [State.watches_testWatches]
  have hdiffers := (s.watches.get q).differs_iff p (s.col p)
  unfold WatchState.tested
  by_cases h : (s.watches.get q).watched.get p = true ∧ (s.watches.get q).differs p (s.col p) = true
  · obtain ⟨hwatched, hdiff⟩ := h
    rw [if_pos (by rw [hwatched, hdiff]; rfl)]
    refine ⟨rfl, fun x hx => Table.get_set_of_ne _ _ hx, fun _ => .inr ⟨hwatched, hdiffers.mp hdiff⟩, fun _ => ?_⟩
    exact Table.get_set_self _ _ _
  · rw [if_neg (by simpa using h)]
    exact ⟨rfl, fun _ _ => rfl, .inl, fun ho => ho.elim id fun ⟨hwatched, hd⟩ => absurd ⟨hwatched, hdiffers.mpr hd⟩ h⟩

end Sys2Proof.Machine

/-! O27 to O30: CLAIM, YIELD and the lapse of command, and the first, further and early stops. -/

namespace Sys2Proof.Machine

set_option Elab.async false

/-! ### A reply behind an effect -/

/-- A reply changes the ports alone. -/
theorem State.reply_ports_back {s u : State} (h : u.ports = s.ports) (q : PortId) (code tag : Byte) (a : Answer) :
    { u.reply q code tag a with ports := s.ports } = u := by
  rw [← h]
  rfl

/-! ### Stops (R146 to R149) -/

/-- Settles O29: each source offers its stop, and a stop offered outside STOPPED is a first stop. -/
theorem firstStopEffect : Obligations.FirstStopEffect := by
  unfold Obligations.FirstStopEffect
  intro s hp hphase
  refine ⟨fun q tag args hdue => ?_, fun q => ?_, fun hin => ?_⟩
  · have hoffer := s.offerStop_first (plainOffer .stopRequest (some q)) hp hphase
    have hports : (s.firstStop (plainOffer .stopRequest (some q))).ports = s.ports := by
      rw [← hoffer]
      exact State.ports_of_desk (s.offerStop_desk _)
    refine State.executes_of_owner rfl hdue (by rw [ownerStop, hoffer]) hports ?_
    rw [State.reply_ports_back hports]
    exact s.firstStop_spec _ hp hphase
  · have hbyte : s.stopByte q = s.firstStop (plainOffer .stopByte (some q)) := by
      rw [← s.offerStop_first _ hp hphase]
      simp [State.stopByte, hp]
    exact ⟨_, congrArg Host.Outcome.next hbyte, s.firstStop_spec _ hp hphase⟩
  · have hopens : s.stopInOpens = (s.setStopIn .opened).firstStop (plainOffer .stopIn none) := by
      rw [← State.offerStop_first _ _ (show (s.setStopIn .opened).power = .running from hp) hphase]
      simp [State.stopInOpens, hin]
    exact ⟨_, congrArg Host.Outcome.next hopens, State.firstStop_spec _ _ hp hphase⟩

/-- In STOPPED an offered cause joins the further causes, unless the record has it (R149). -/
theorem State.offerStop_joined {s : State} {r : StopRecord} (hp : s.power = .running) (hphase : s.phase = .stopped)
    (hr : s.stop.record = some r) (o : Offer) : s.offerStop o = { s with stop := { s.stop with
      further := if r.cause = o.cause then s.stop.further else s.stop.further.set o.cause.code true } } := by
  rw [s.offerStop_further o hp hphase]
  have hcause : s.stop.recordCause = some r.cause := by simp [StopUnit.recordCause, hr]
  rw [hcause]
  by_cases h : r.cause = o.cause
  · rw [if_pos (congrArg some h), if_pos h]
  · rw [if_neg (fun e => h (Option.some.inj e)), if_neg h]

/-- Settles O30: the further cause of a stop in STOPPED, and the sources before the image is read. -/
theorem furtherAndEarlyStops : Obligations.FurtherAndEarlyStops := by
  unfold Obligations.FurtherAndEarlyStops
  constructor
  · intro s r hp hphase hr
    refine ⟨fun q tag args hdue => ?_, fun q => ?_, fun hin => ?_⟩
    · have hoffer := State.offerStop_joined hp hphase hr (plainOffer .stopRequest (some q))
      exact State.executes_of_owner rfl hdue (congrArg (fun u => (u, Answer.plain .done)) hoffer) rfl rfl
    · have hoffer := State.offerStop_joined hp hphase hr (plainOffer .stopByte (some q))
      have hbyte : s.stopByte q = s.offerStop (plainOffer .stopByte (some q)) := by simp [State.stopByte, hp]
      exact congrArg Host.Outcome.next (hbyte.trans hoffer)
    · have hoffer := State.offerStop_joined (s := s.setStopIn .opened) hp hphase hr (plainOffer .stopIn none)
      have hopens : s.stopInOpens = (s.setStopIn .opened).offerStop (plainOffer .stopIn none) := by
        simp [State.stopInOpens, hin]
      exact congrArg Host.Outcome.next (hopens.trans hoffer)
  · intro s
    refine ⟨fun hp => ⟨fun q tag args hdue => ?_, fun q => ?_, fun hin => ?_⟩, rfl, fun hin => ?_⟩
    · exact State.onlyAnswers_of_owner rfl hdue (by rw [ownerStop, State.offerStop_unread _ _ hp])
    · have hbyte : s.stopByte q = s := by
        unfold State.stopByte
        split
        · rfl
        all_goals exact State.offerStop_unread _ _ hp
      exact congrArg Host.Outcome.next hbyte
    · have hopens : s.stopInOpens = s.setStopIn .opened := by
        unfold State.stopInOpens
        rw [hin]
        exact State.offerStop_unread _ _ hp
      exact congrArg Host.Outcome.next hopens
    · have hopens : s.stopInOpens = s := by simp [State.stopInOpens, hin]
      exact congrArg Host.Outcome.next hopens

/-! ### YIELD and the lapse (R171, R173) -/

theorem Phase.isMotion_iff (ph : Phase) :
    ph.isMotion = true ↔ ph ∈ [Phase.approach, .lifting, .lowering, .dwell, .retracting] := by
  cases ph <;> decide

theorem State.clearHolder_eq (s : State) :
    s.clearHolder = { s with holder := none, lapse := .stopped, notices := s.noticesWith .authority } := rfl

/-- Settles O28: the branches of YIELD's owner, and of the lapse timer's expiry. -/
theorem yieldAndLapse : Obligations.YieldAndLapse := by
  unfold Obligations.YieldAndLapse
  constructor
  · intro s q tag args hdue
    simp only [← Phase.isMotion_iff]
    refine ⟨fun hholder hmotion => ?_, fun hargs hrest => ?_, fun hargs hother => ?_, fun hargs hholder hrest => ?_⟩
    · exact State.onlyAnswers_of_owner rfl hdue (if_pos ⟨hholder, hmotion⟩)
    · exact State.onlyAnswers_of_owner rfl hdue ((if_neg fun ⟨h, hm⟩ => hrest h hm).trans (if_pos hargs))
    · have howner : ownerYield q s args = (s, .plain .done) := by simp [ownerYield, hargs, hother]
      exact State.onlyAnswers_of_owner rfl hdue howner
    · have howner : ownerYield q s args = (s.clearHolder, .plain .done) := by
        simp [ownerYield, hargs, hholder, Bool.not_eq_true _ ▸ hrest]
      exact State.executes_of_owner rfl hdue howner rfl ⟨rfl, rfl, rfl, rfl⟩
  · intro s ms hlapse
    simp only [← Phase.isMotion_iff]
    constructor
    · intro hrest
      have hexpiry : s.lapseExpiry = s.clearHolder := by
        unfold State.lapseExpiry
        rw [hlapse]
        exact if_neg hrest
      exact congrArg Host.Outcome.next hexpiry
    · intro hmotion hp
      have hphase : s.phase ≠ .stopped := by
        intro h
        rw [h] at hmotion
        cases hmotion
      have hexpiry : s.lapseExpiry = s.clearHolder.firstStop (plainOffer .authorityLapse s.holder) := by
        rw [← State.offerStop_first _ _ (show s.clearHolder.power = .running from hp) hphase]
        unfold State.lapseExpiry
        rw [hlapse]
        exact if_pos hmotion
      exact ⟨_, congrArg Host.Outcome.next hexpiry, State.firstStop_spec s.clearHolder _ hp hphase⟩

/-! ### CLAIM (R170) -/

theorem ownerClaim_args {s : State} {q : PortId} {args : List Byte} (h : args ≠ []) :
    ownerClaim q s args = (s, .plain .badArg) :=
  if_pos h

theorem ownerClaim_free {s : State} {q : PortId} (h : s.holder = none) :
    ownerClaim q s [] = (s.grant q, .plain .done) := by
  simp [ownerClaim, h]

theorem ownerClaim_own {s : State} {q : PortId} (h : s.holder = some q) : ownerClaim q s [] = (s, .plain .done) := by
  simp [ownerClaim, h]

theorem ownerClaim_held {s : State} {q h : PortId} (hh : s.holder = some h) (hne : h ≠ q) :
    ownerClaim q s [] = (s, .plain .held) := by
  simp [ownerClaim, hh, hne, State.refuse]

/-- Where none of the listed ports has a CLAIM due, none is taken. -/
theorem State.foldl_takeClaim_none {s : State} {l : List PortId} (h : ∀ y ∈ l, ∀ tg ar, ¬ s.holds y .claim tg ar) :
    l.foldl State.takeClaim s = s := by
  induction l with
  | nil => rfl
  | cons y l ih =>
    rw [List.foldl_cons, State.takeClaim, State.executeRequest_of_not_holds (h y List.mem_cons_self)]
    exact ih fun z hz => h z (List.mem_cons_of_mem _ hz)

theorem mem_portsBelow {q x : PortId} : x ∈ portsBelow q ↔ x < q := by
  simp [portsBelow]

/-- With no lower CLAIM due, a port's CLAIM is the port's own execution. -/
theorem exec_claim_alone {s : State} {q : PortId} {tag : Byte} {args : List Byte} (hdue : s.holds q .claim tag args)
    (hlower : ∀ x < q, ∀ tg ar, ¬ s.holds x .claim tg ar) :
    exec (Request.claim.command q) s = .next (s.executeRequest q .claim (ownerClaim q)) := by
  have hclaim : s.claim q = s.takeClaim q := by
    unfold State.claim
    rw [if_pos (State.claimDue_iff.mpr ⟨tag, args, hdue⟩),
      State.foldl_takeClaim_none fun y hy => hlower y (mem_portsBelow.mp hy)]
  exact congrArg Host.Outcome.next hclaim

/-- Between `u` and `v` only ports other than `x` and `q` have changed. -/
structure State.passesOver (u v : State) (x q : PortId) : Prop where
  kept : { v with ports := u.ports } = u
  first : v.port x = u.port x
  own : v.port q = u.port q

/-- A CLAIM of another port than the holder is answered without a change. -/
theorem State.takeClaim_refused {u : State} {x y : PortId} (hholder : u.holder = some x) (hy : x ≠ y) :
    { u.takeClaim y with ports := u.ports } = u ∧ ∀ z, z ≠ y → (u.takeClaim y).port z = u.port z := by
  unfold State.takeClaim State.executeRequest State.execute
  split
  · exact ⟨rfl, fun _ _ => rfl⟩
  · next code tag args _ =>
    split
    · have howner : (ownerClaim y u args).1 = u := by
        by_cases hargs : args = []
        · rw [hargs, ownerClaim_held hholder hy]
        · rw [ownerClaim_args hargs]
      rw [howner]
      exact ⟨rfl, fun z hz => State.port_modPort_of_ne u _ hz⟩
    · exact ⟨rfl, fun _ _ => rfl⟩

theorem State.passesOver_foldl {x q : PortId} {l : List PortId} :
    ∀ {u : State}, u.holder = some x → (∀ y ∈ l, y ≠ x ∧ y ≠ q) → u.passesOver (l.foldl State.takeClaim u) x q := by
  induction l with
  | nil => exact fun _ _ => ⟨rfl, rfl, rfl⟩
  | cons y l ih =>
    intro u hholder hl
    obtain ⟨hyx, hyq⟩ := hl y List.mem_cons_self
    obtain ⟨hkept, hports⟩ := State.takeClaim_refused hholder hyx.symm
    have hholder' : (u.takeClaim y).holder = some x := (congrArg State.holder hkept :).trans hholder
    obtain ⟨hk, hf, ho⟩ := ih hholder' fun z hz => hl z (List.mem_cons_of_mem _ hz)
    rw [List.foldl_cons]
    refine ⟨?_, hf.trans (hports x hyx.symm), ho.trans (hports q hyq.symm)⟩
    calc { (l.foldl State.takeClaim (u.takeClaim y)) with ports := u.ports }
        = { ({ (l.foldl State.takeClaim (u.takeClaim y)) with ports := (u.takeClaim y).ports } : State) with
            ports := u.ports } := rfl
      _ = { u.takeClaim y with ports := u.ports } := by rw [hk]
      _ = u := hkept

theorem portsBelow_ascending (q : PortId) : (portsBelow q).Pairwise (· < ·) :=
  (List.pairwise_lt_finRange 4).filter _

/-- CLAIMs waiting below `q`, the lowest at `x`: `x` is granted command, and the ports between `x` and `q` change nothing else. -/
theorem State.claimsBelow_spec {s : State} {q x : PortId} {tagx : Byte} (hx : x < q) (hdue : s.holds x .claim tagx [])
    (hfirst : ∀ y < x, ∀ tg ar, ¬ s.holds y .claim tg ar) (hholder : s.holder = none) :
    ((s.grant x).reply x Request.claim.code tagx (.plain .done)).passesOver ((portsBelow q).foldl State.takeClaim s) x q := by
  obtain ⟨before, after, hsplit⟩ := List.append_of_mem (mem_portsBelow.mpr hx)
  have hsorted := portsBelow_ascending q
  have hmem : ∀ y, y ∈ before ++ x :: after → y < q := fun y hy => mem_portsBelow.mp (hsplit ▸ hy)
  rw [hsplit, List.pairwise_append, List.pairwise_cons] at hsorted
  obtain ⟨-, ⟨hafter, -⟩, hbefore⟩ := hsorted
  have hnone : before.foldl State.takeClaim s = s :=
    State.foldl_takeClaim_none fun y hy => hfirst y (hbefore y hy x List.mem_cons_self)
  have htake : s.takeClaim x = (s.grant x).reply x Request.claim.code tagx (.plain .done) := by
    rw [State.takeClaim, State.executeRequest_of_holds hdue, ownerClaim_free hholder]
  rw [hsplit, List.foldl_append, hnone, List.foldl_cons, htake]
  refine State.passesOver_foldl rfl fun y hy => ⟨(hafter y hy).ne', ?_⟩
  exact (hmem y (List.mem_append_right _ (List.mem_cons_of_mem _ hy))).ne

/-- A request due at a port stays due while the power state and the port stay. -/
theorem State.dueRequest_congr {s t : State} {q : PortId} (hp : t.power = s.power) (hq : t.port q = s.port q) :
    t.dueRequest q = s.dueRequest q := by
  unfold State.dueRequest
  rw [hp, hq]

/-- The body of a reply, from any state that shows the same header (R166). -/
theorem State.replyBody_eq {s u t : State} {q : PortId} (hport : u.port q = s.port q) (hphase : u.phase = t.phase)
    (hholder : u.holder = t.holder) (hnotices : u.notices = t.notices) (r : Request) (tag : Byte) (a : Answer) :
    u.replyBody q r.code tag a = s.replyIn t q (r.code + 0x80) tag a := by
  simp [State.replyBody, State.replyIn, State.holderByte, replyCode_code, bitsOf_three, hport, hphase, hholder, hnotices]

/-- A CLAIM behind a lower one is answered HELD, and the lower port has command. -/
theorem State.claim_behind {s : State} {q x : PortId} {tag tagx : Byte} (hx : x < q) (hdue : s.holds q .claim tag [])
    (hduex : s.holds x .claim tagx []) (hfirst : ∀ y < x, ∀ tg ar, ¬ s.holds y .claim tg ar) (hfree : s.holder = none) :
    ∃ t, exec (.claim q) s = .next t ∧ t.holder = some x ∧ t.lapse = .running 2000 ∧
      t.notices = s.noticesWith .authority ∧ (t.port x).held = none ∧ (t.port q).held = none ∧
      (t.port x).tx = (s.port x).tx ++ stationFrame (s.replyIn t x (Request.claim.code + 0x80) tagx (.plain .done)) ∧
      (t.port q).tx = (s.port q).tx ++ stationFrame (s.replyIn t q (Request.claim.code + 0x80) tag (.plain .held)) ∧
      { t with ports := s.ports, holder := s.holder, lapse := s.lapse, notices := s.notices } = s := by
  obtain ⟨hkept, hportx, hportq⟩ := State.claimsBelow_spec hx hduex hfirst hfree
  generalize hv : (portsBelow q).foldl State.takeClaim s = v at hkept hportx hportq
  have hpower : v.power = s.power := (congrArg State.power hkept :)
  have hphase : v.phase = s.phase := (congrArg State.phase hkept :)
  have hholder : v.holder = some x := (congrArg State.holder hkept :)
  have hlapse : v.lapse = .running 2000 := (congrArg State.lapse hkept :)
  have hnotices : v.notices = s.noticesWith .authority := (congrArg State.notices hkept :)
  have hvq : v.port q = s.port q := hportq.trans (State.port_modPort_of_ne _ _ hx.ne')
  have hvx : v.port x = { s.port x with
      tx := (s.port x).tx ++ stationFrame ((s.grant x).replyBody x Request.claim.code tagx (.plain .done))
      held := none, overrun := false, framing := false } := hportx.trans (State.port_modPort_self _ _ _)
  have hclaim : s.claim q = v.reply q Request.claim.code tag (.plain .held) := by
    unfold State.claim
    rw [if_pos (State.claimDue_iff.mpr ⟨tag, [], hdue⟩), hv, State.takeClaim,
      State.executeRequest_of_holds ((State.dueRequest_congr hpower hvq).trans hdue), ownerClaim_held hholder hx.ne]
  have hx' : (v.reply q Request.claim.code tag (.plain .held)).port x = v.port x := State.port_modPort_of_ne _ _ hx.ne
  have hq' : (v.reply q Request.claim.code tag (.plain .held)).port q = _ := State.port_modPort_self _ _ _
  refine ⟨_, congrArg Host.Outcome.next hclaim, hholder, hlapse, hnotices, ?_, ?_, ?_, ?_, ?_⟩
  · rw [hx', hvx]
  · rw [hq']
  · rw [hx', hvx, State.replyBody_eq (s := s) (u := s.grant x) (t := v.reply q Request.claim.code tag (.plain .held)) rfl
      hphase.symm hholder.symm hnotices.symm]
  · rw [hq', State.replyBody_eq (s := s) (t := v.reply q Request.claim.code tag (.plain .held)) hvq rfl rfl rfl, hvq]
  · calc { v.reply q Request.claim.code tag (.plain .held) with
          ports := s.ports, holder := s.holder, lapse := s.lapse, notices := s.notices }
        = { ({ v with ports := ((s.grant x).reply x Request.claim.code tagx (.plain .done)).ports } : State) with
            ports := s.ports, holder := s.holder, lapse := s.lapse, notices := s.notices } := rfl
      _ = { (s.grant x).reply x Request.claim.code tagx (.plain .done) with
            ports := s.ports, holder := s.holder, lapse := s.lapse, notices := s.notices } := by rw [hkept]
      _ = s := rfl

/-- Settles O27: the port's own CLAIM, and a CLAIM behind a lower one. -/
theorem claimEffect : Obligations.ClaimEffect := by
  unfold Obligations.ClaimEffect
  constructor
  · intro s q tag args hdue hargs hlower
    exact State.onlyAnswers_of_owner (exec_claim_alone hdue hlower) hdue (ownerClaim_args hargs)
  · intro s q tag hdue
    refine ⟨fun hlower => ⟨fun hfree => ?_, fun hown => ?_, fun h hne hheld => ?_⟩, fun x hx tagx hduex hfirst hfree => ?_⟩
    · exact State.executes_of_owner (exec_claim_alone hdue hlower) hdue (ownerClaim_free hfree) rfl ⟨rfl, rfl, rfl, rfl⟩
    · exact State.onlyAnswers_of_owner (exec_claim_alone hdue hlower) hdue (ownerClaim_own hown)
    · exact State.onlyAnswers_of_owner (exec_claim_alone hdue hlower) hdue (ownerClaim_held hheld hne)
    · exact State.claim_behind hx hdue hduex hfirst hfree

end Sys2Proof.Machine

/-! O38, O44 and O45: APPROACH and RETRACT, the plan edits and LIMIT_SET. -/

namespace Sys2Proof.Machine

set_option Elab.async false

/-! ### The first valid position that meets a test -/

theorem State.validPositions_ascending (s : State) : s.validPositions.Pairwise (· < ·) :=
  (List.pairwise_lt_finRange 48).filter _

theorem State.find?_first {s : State} {test : Pos → Bool} {p : Pos} (hp : s.validPos p = true) (htest : test p = true)
    (hfirst : ∀ x < p, s.validPos x = true → test x = false) : s.validPositions.find? test = some p :=
  find?_of_ascending s.validPositions_ascending (State.mem_validPositions.mpr hp) htest fun x hx hlt =>
    hfirst x hlt (State.mem_validPositions.mp hx)

theorem State.find?_none {s : State} {test : Pos → Bool} (h : ∀ p, s.validPos p = true → test p = false) :
    s.validPositions.find? test = none := by
  rw [List.find?_eq_none]
  intro p hp
  simp [h p (State.mem_validPositions.mp hp)]

theorem State.firstWith_first {s : State} {test : Pos → Bool} {p : Pos} (hp : s.validPos p = true) (htest : test p = true)
    (hfirst : ∀ x < p, s.validPos x = true → test x = false) (r : Reason) :
    s.firstWith test r = some (.incomplete r (some p)) := by
  simp [State.firstWith, State.find?_first hp htest hfirst]

theorem State.firstWith_none {s : State} {test : Pos → Bool} (h : ∀ p, s.validPos p = true → test p = false) (r : Reason) :
    s.firstWith test r = none := by
  simp [State.firstWith, State.find?_none h]

/-! ### A phase change behind a reply -/

/-- A reply leaves what a phase change has done. -/
theorem State.changesPhase.reply {s u : State} {new : Phase} (h : s.changesPhase u new) (q : PortId) (code tag : Byte)
    (a : Answer) : s.changesPhase (u.reply q code tag a) new :=
  ⟨h.kept, h.phase, h.pause, h.columns, h.starts, h.plan, h.reference, h.counts, h.spread, h.notices, h.written, h.polling⟩

/-- A due request whose owner changes the phase of the running part. -/
theorem State.executes_of_changePhase {s u : State} {q : PortId} {r : Request} {tag : Byte} {args : List Byte} {new : Phase}
    (hr : r ≠ .claim) (hdue : s.holds q r tag args) (howner : r.owner q s args = (u.changePhase new, .plain .done))
    (hports : u.ports = s.ports) (hp : u.power = .running) (hne : u.phase ≠ new) :
    s.executes q r tag (.plain .done) fun t => u.changesPhase t new := by
  have hspec := u.changePhase_spec new hne hp
  have hports' : (u.changePhase new).ports = s.ports := by
    rw [← hports]
    exact State.ports_of_desk (u.changePhase_desk new)
  exact State.executes_of_owner (exec_command hr q s) hdue howner hports' (hspec.reply q _ _ _)

/-! ### APPROACH and RETRACT (R67, R81) -/

theorem State.echoStands_iff {s : State} : s.echoStands = true ↔ ¬ ∀ g, (s.seg g).echo = .none := by
  unfold State.echoStands
  simp only [List.any_eq_true, Table.mem_rows, decide_eq_true_eq, not_forall]
  constructor
  · rintro ⟨sg, ⟨g, rfl⟩, h⟩
    exact ⟨g, h⟩
  · rintro ⟨g, h⟩
    exact ⟨_, ⟨g, rfl⟩, h⟩

theorem ownerApproach_of_check {s : State} {q : PortId} (hcheck : s.groupRefusal q Phase.takesApproach [] = none) :
    (∀ a, s.approachRefusal = some a → ownerApproach q s [] = (s, a)) ∧
    (s.approachRefusal = none → ownerApproach q s [] = (s.changePhase .approach, .plain .done)) :=
  ⟨fun a h => by simp [ownerApproach, hcheck, h], fun h => by simp [ownerApproach, hcheck, h]⟩

/-- Settles O38: the conditions of APPROACH in their order, and the two phase changes. -/
theorem approachAndRetract : Obligations.ApproachAndRetract := by
  unfold Obligations.ApproachAndRetract
  intro s q tag hholder hp
  constructor
  · intro hdue hphase quietLines away
    obtain ⟨-, -, hnone⟩ := State.groupRefusal_phases hholder hp Phase.takesApproach_eq []
    obtain ⟨hrefused, haccepted⟩ := ownerApproach_of_check (hnone (by simp [hphase]) rfl)
    refine ⟨fun h => ?_, fun hquiet hunconfirmed => ?_, fun hquiet hconfirmed => ⟨fun p haway hfirst => ?_, fun hall => ?_⟩⟩
    · refine State.onlyAnswers_of_owner rfl hdue (hrefused _ ?_)
      simp [State.approachRefusal, State.echoStands_iff.mpr h]
    · have hecho : s.echoStands = false := Bool.eq_false_iff.mpr fun h => State.echoStands_iff.mp h hquiet
      refine State.onlyAnswers_of_owner rfl hdue (hrefused _ ?_)
      simp [State.approachRefusal, hecho, hunconfirmed]
    · have hecho : s.echoStands = false := Bool.eq_false_iff.mpr fun h => State.echoStands_iff.mp h hquiet
      have hfind : s.firstNotEnrolled = some p := State.find?_first haway.1 (decide_eq_true haway.2) fun x hx hv =>
        decide_eq_false fun hl => hfirst x hx ⟨hv, hl⟩
      refine State.onlyAnswers_of_owner rfl hdue (hrefused _ ?_)
      simp [State.approachRefusal, hecho, hconfirmed, hfind]
    · have hecho : s.echoStands = false := Bool.eq_false_iff.mpr fun h => State.echoStands_iff.mp h hquiet
      have hfind : s.firstNotEnrolled = none := State.find?_none fun x hv => decide_eq_false fun hl => hall x ⟨hv, hl⟩
      constructor
      · intro hin
        refine State.onlyAnswers_of_owner rfl hdue (hrefused _ ?_)
        simp [State.approachRefusal, hecho, hconfirmed, hfind, hin]
      · intro hin
        have hpass : s.approachRefusal = none := by simp [State.approachRefusal, hecho, hconfirmed, hfind, hin]
        exact State.executes_of_changePhase nofun hdue (haccepted hpass) rfl hp (by rw [hphase]; decide)
  · intro hdue hphase
    obtain ⟨-, -, hnone⟩ := State.groupRefusal_phases hholder hp Phase.takesRetract_eq []
    have howner : ownerRetract q s [] = (s.changePhase .retracting, .plain .done) := by
      simp [ownerRetract, hnone (by simpa using hphase) rfl]
    refine State.executes_of_changePhase nofun hdue howner rfl hp ?_
    rcases hphase with h | h <;> rw [h] <;> decide

/-! ### The plan edits and LIMIT_SET (R100 to R102, R142) -/

theorem clampNat_eq (lo hi x : Nat) (h : lo ≤ hi) : clampNat lo hi x = max lo (min x hi) := by
  unfold clampNat
  repeat' split
  all_goals omega

theorem planLegArgs_bytes (i : Fin 16) {target speed dwell : Nat} (c : Byte) (ht : target < 65536) (hs : speed < 65536)
    (hd : dwell < 65536) : planLegArgs (byteOf i.val :: be16 target ++ be16 speed ++ be16 dwell ++ [c]) =
      some { index := i.val, target := target, speed := speed, dwell := dwell, continues := decide (c ≠ 0) } := by
  have hargs : planLegArgs (byteOf i.val :: be16 target ++ be16 speed ++ be16 dwell ++ [c]) =
      some { index := (byteOf i.val).toNat, target := word16 (byteOf (target / 256)) (byteOf target),
             speed := word16 (byteOf (speed / 256)) (byteOf speed), dwell := word16 (byteOf (dwell / 256)) (byteOf dwell),
             continues := flagArg c } := rfl
  rw [hargs, byteOf_val (by omega), word16_byteOf ht, word16_byteOf hs, word16_byteOf hd]
  rfl

theorem PlanLegArgs.clamps_eq (a : PlanLegArgs) :
    a.clamps = decide (40000 < a.target ∨ a.speed < 10 ∨ 400 < a.speed ∨ 600 < a.dwell) := by
  rw [Bool.eq_iff_iff]
  simp only [PlanLegArgs.clamps, PlanLegArgs.clampedLeg, clampNat_eq 10 400 _ (by decide), Bool.or_eq_true, decide_eq_true_eq]
  omega

/-- An accepted PLAN_LEG writes the clamped entry, and an append raises n. -/
theorem ownerPlanLeg_done {s : State} {q : PortId} {args : List Byte} {i : Fin 16} {a : PlanLegArgs} (hp : s.power = .running)
    (hcheck : s.planRefusal q = none) (hargs : planLegArgs args = some a) (hindex : a.index = i.val) (hle : i.val ≤ s.plan.count) :
    ownerPlanLeg q s args =
      ({ s with
        plan := s.plan.write i a.clampedLeg
        retention := s.retention.triggered ({ s with plan := s.plan.write i a.clampedLeg } : State).image },
      { result := .done, clamped := a.clamps, data := [] }) := by
  have hlt : a.index < 16 := by omega
  have hi : (⟨a.index, hlt⟩ : Fin 16) = i := Fin.ext hindex
  have howner : ownerPlanLeg q s args =
      (({ s with plan := s.plan.write i a.clampedLeg } : State).trigger, { result := .done, clamped := a.clamps, data := [] }) := by
    simp [ownerPlanLeg, hcheck, hargs, hlt, hi, show ¬ s.plan.count < a.index by omega]
  rw [howner, State.trigger_running _ (show ({ s with plan := s.plan.write i a.clampedLeg } : State).power = .running from hp)]

theorem Plan.write_eq {p : Plan} {i : Fin 16} (h : i.val ≤ p.count) (leg : Leg) :
    p.write i leg = { p with legs := p.legs.set i leg, count := max p.count (i.val + 1) } := by
  have hcount : (if i.val = p.count then p.count + 1 else p.count) = max p.count (i.val + 1) := by
    split <;> omega
  rw [Plan.write, hcount]

/-- Settles O44: the entry written, the plan cut, and the cut at n. -/
theorem planEdits : Obligations.PlanEdits := by
  unfold Obligations.PlanEdits
  intro s q tag hholder hp hphase
  have hcheck : s.planRefusal q = none := (State.planRefusal_phases hholder hp).2 (by
    cases h : s.phase <;> simp [h] at hphase ⊢)
  refine ⟨fun i target speed dwell c hle ht hs hd hdue => ?_, fun k hk hdue => ?_, fun k hk hdue => ?_⟩
  · have howner := ownerPlanLeg_done hp hcheck (planLegArgs_bytes i c ht hs hd) rfl hle
    rw [PlanLegArgs.clamps_eq, Plan.write_eq hle, PlanLegArgs.clampedLeg, clampNat_eq 10 400 speed (by decide)] at howner
    exact State.executes_of_owner rfl hdue howner rfl ⟨rfl, rfl, rfl⟩
  · have howner : ownerPlanCut q s [k] = (({ s with plan := s.plan.cut k.toNat } : State).trigger, .plain .done) := by
      simp [ownerPlanCut, hcheck, planCutArgs, hk.ne, hk.not_gt]
    rw [State.trigger_running _ (show ({ s with plan := s.plan.cut k.toNat } : State).power = .running from hp)] at howner
    exact State.executes_of_owner rfl hdue howner rfl ⟨rfl, rfl, rfl⟩
  · have howner : ownerPlanCut q s [k] = (s, .plain .done) := by
      simp [ownerPlanCut, hcheck, planCutArgs, hk]
    exact State.onlyAnswers_of_owner rfl hdue howner

theorem limitArgs_bytes (i : Fin 17) {v : Nat} (hv : v < 65536) : limitArgs (byteOf i.val :: be16 v) = some (i, v) := by
  have hargs : limitArgs (byteOf i.val :: be16 v) =
      (fromZero 17 (byteOf i.val)).bind fun id => some (id, word16 (byteOf (v / 256)) (byteOf v)) := rfl
  rw [hargs, fromZero_byteOf (n := 17) (by decide), word16_byteOf hv]
  rfl

theorem limitRanges_ordered (i : Fin 17) : (limitRanges.get i).1 ≤ (limitRanges.get i).2 := by
  revert i
  decide

theorem limitsOrdered_iff (l : Table Nat 17) : limitsOrdered l = true ↔ l.get 1 ≤ l.get 0 ∧ l.get 0 < l.get 2 := by
  unfold limitsOrdered
  rw [Bool.and_eq_true]
  exact and_congr decide_eq_true_iff decide_eq_true_iff

/-- Settles O45: the clamped value, the order of the windows, and the write on a change. -/
theorem limitSetEffect : Obligations.LimitSetEffect := by
  unfold Obligations.LimitSetEffect
  intro s q tag i v w hholder hp hphase hv hdue hw new answer
  have haway := State.turnedAway_eq_none hholder hp
  have hrest : s.phase.isMotion = false := Bool.eq_false_iff.mpr fun h => hphase (s.phase.isMotion_iff.mp h)
  have hclamp : clampLimit i v = w := by rw [clampLimit, clampNat_eq _ _ _ (limitRanges_ordered i), hw]
  have hargs := limitArgs_bytes i hv
  refine ⟨fun hbad => ?_, fun h1 h2 => ⟨fun hsame => ?_, fun hdiff => ?_⟩⟩
  · have hbad' : limitsOrdered new = false := Bool.eq_false_iff.mpr fun h => hbad ((limitsOrdered_iff new).mp h)
    have howner : ownerLimitSet q s (byteOf i.val :: be16 v) = (s, .plain .badArg) := by
      simp [ownerLimitSet, haway, hrest, hargs, hclamp, show limitsOrdered (s.limits.set i w) = false from hbad', State.refuse]
    exact State.onlyAnswers_of_owner rfl hdue howner
  · have hok : limitsOrdered (s.limits.set i w) = true := (limitsOrdered_iff new).mpr ⟨h1, h2⟩
    have howner : ownerLimitSet q s (byteOf i.val :: be16 v) = (s, answer) := by
      simp [ownerLimitSet, haway, hrest, hargs, hclamp, hok, hsame.symm, answer]
    exact State.onlyAnswers_of_owner rfl hdue howner
  · have hok : limitsOrdered (s.limits.set i w) = true := (limitsOrdered_iff new).mpr ⟨h1, h2⟩
    have howner : ownerLimitSet q s (byteOf i.val :: be16 v) = (({ s with limits := new } : State).trigger, answer) := by
      simp [ownerLimitSet, haway, hrest, hargs, hclamp, hok, hdiff.symm, answer, new]
    rw [State.trigger_running _ (show ({ s with limits := new } : State).power = .running from hp)] at howner
    exact State.executes_of_owner rfl hdue howner rfl ⟨rfl, rfl, rfl⟩

end Sys2Proof.Machine

/-! O31 and O32: REARM, its refusals and its effect. -/

namespace Sys2Proof.Machine

set_option Elab.async false

/-! ### The refusals (R153) -/

theorem State.allContact_iff {s : State} :
    s.allContact = true ↔ ∀ p, s.validPos p = true → (s.col p).contact.isSome = true := by
  simp [State.allContact, State.mem_validPositions]

theorem State.overloaded_iff {s : State} {p : Pos} :
    s.overloaded p = true ↔ ∃ l r, (s.col p).load = some l ∧ (s.col p).cap.rated = some r ∧ r < l := by
  unfold State.overloaded
  split
  · next l r hl hr => simp [hl, hr]
  · next h =>
    constructor
    · nofun
    · rintro ⟨l, r, hl, hr, -⟩
      exact absurd hr (h l r hl)

theorem State.unloaded_iff {s : State} {p : Pos} :
    s.unloaded p = true ↔ ∃ l, (s.col p).load = some l ∧ l < s.limit .contactLoad := by
  unfold State.unloaded
  split
  · next l hl => simp [hl]
  · next hl => simp [hl]

theorem ownerRearm_of_stopped {s : State} {q : PortId} (hholder : s.holder = some q) (hp : s.power = .running)
    (hphase : s.phase = .stopped) :
    (∀ a, s.rearmRefusal = some a → ownerRearm q s [] = (s, a)) ∧
    (s.rearmRefusal = none → ownerRearm q s [] = (s.acceptRearm, .plain .done)) := by
  have haway := State.turnedAway_eq_none hholder hp
  exact ⟨fun a h => by simp [ownerRearm, haway, hphase, h], fun h => by simp [ownerRearm, haway, hphase, h]⟩

/-- The chain of REARM's tests once STOP_IN is closed: each test is reached when the ones before it find nothing. -/
theorem State.rearmRefusal_eq {s : State} (hin : s.stop.stopIn = .closed) : s.rearmRefusal =
    (s.firstWith (fun p => decide ((s.col p).link ≠ .enrolled)) .dropNotReady
      <|> s.firstWith (fun p => (s.col p).flags.driveFault) .driveFault
      <|> s.firstWith s.overloaded .overload
      <|> if s.rearmTestsLoad then s.firstWith s.unloaded .loadLost else none) := by
  simp [State.rearmRefusal, hin, State.firstWith, State.firstNotEnrolled]

/-- REARM would lead to HOLDING outside the set-down band. -/
theorem State.rearmTestsLoad_iff {s : State} {r : StopRecord} (hr : s.stop.record = some r) : s.rearmTestsLoad = true ↔
    s.allContact = true ∧ r.phase ≠ .aligned ∧ r.phase ≠ .retracting ∧
      ¬ (s.ref.setDown = true ∧ s.reseatedH ≤ s.limit .setDownBand) := by
  have hphase : s.rearmPhase = .holding ↔ s.allContact = true ∧ r.phase ≠ .aligned ∧ r.phase ≠ .retracting := by
    unfold State.rearmPhase State.phaseAtStop
    rw [hr]
    cases s.allContact
    · simp
    · cases h : r.phase <;> simp [h]
  unfold State.rearmTestsLoad
  rw [Bool.and_eq_true, decide_eq_true_iff, hphase]
  simp only [and_assoc, Bool.not_eq_true', Bool.and_eq_false_iff, decide_eq_false_iff_not, not_and_or, Bool.not_eq_true]

/-- Settles O31: the order of the checks, each with the first position that it finds. -/
theorem rearmRefusals : Obligations.RearmRefusals := by
  unfold Obligations.RearmRefusals
  intro s q tag args hdue hholder hp
  have haway := State.turnedAway_eq_none hholder hp
  refine ⟨fun hphase => ?_, fun hphase hargs => ?_, fun hphase hargs => ?_⟩
  · have howner : ownerRearm q s args = (s, .plain .wrongPhase) := by simp [ownerRearm, haway, hphase, State.refuse]
    exact State.onlyAnswers_of_owner rfl hdue howner
  · have howner : ownerRearm q s args = (s, .plain .badArg) := by simp [ownerRearm, haway, hphase, hargs, State.refuse]
    exact State.onlyAnswers_of_owner rfl hdue howner
  · subst hargs
    intro first none_ away fault heavy light
    obtain ⟨hrefused, -⟩ := ownerRearm_of_stopped hholder hp hphase
    have hfirst : ∀ {P : Pos → Prop} {test : Pos → Bool}, (∀ p, test p = true ↔ P p) → ∀ (r : Reason) {p : Pos},
        first P p → s.firstWith test r = some (.incomplete r (some p)) := fun htest r p ⟨hv, hp, hlow⟩ =>
      State.firstWith_first hv ((htest p).mpr hp) (fun x hx hvx => Bool.eq_false_iff.mpr fun h => hlow x hx hvx ((htest x).mp h)) r
    have hnone : ∀ {P : Pos → Prop} {test : Pos → Bool}, (∀ p, test p = true ↔ P p) → ∀ (r : Reason),
        none_ P → s.firstWith test r = none := fun htest r h =>
      State.firstWith_none (fun x hv => Bool.eq_false_iff.mpr fun hx => h x hv ((htest x).mp hx)) r
    have haway' : ∀ p, decide ((s.col p).link ≠ .enrolled) = true ↔ away p := fun p => decide_eq_true_iff
    have hfault' : ∀ p, (s.col p).flags.driveFault = true ↔ fault p := fun p => Iff.rfl
    refine ⟨fun hin => ?_, fun hin => ⟨fun p h => ?_, fun p h1 h => ?_, fun p h1 h2 h => ?_,
      fun p r h1 h2 h3 hr hwhole haligned hretracting hband h => ?_⟩⟩
    · exact State.onlyAnswers_of_owner rfl hdue (hrefused _ (by simp [State.rearmRefusal, hin]))
    · refine State.onlyAnswers_of_owner rfl hdue (hrefused _ ?_)
      rw [State.rearmRefusal_eq hin, hfirst haway' _ h]
      rfl
    · refine State.onlyAnswers_of_owner rfl hdue (hrefused _ ?_)
      rw [State.rearmRefusal_eq hin, hnone haway' _ h1, hfirst hfault' _ h]
      rfl
    · refine State.onlyAnswers_of_owner rfl hdue (hrefused _ ?_)
      rw [State.rearmRefusal_eq hin, hnone haway' _ h1, hnone hfault' _ h2, hfirst (fun _ => State.overloaded_iff) _ h]
      rfl
    · refine State.onlyAnswers_of_owner rfl hdue (hrefused _ ?_)
      have htests := (State.rearmTestsLoad_iff hr).mpr ⟨State.allContact_iff.mpr hwhole, haligned, hretracting, hband⟩
      rw [State.rearmRefusal_eq hin, hnone haway' _ h1, hnone hfault' _ h2, hnone (fun _ => State.overloaded_iff) _ h3,
        if_pos htests, hfirst (fun _ => State.unloaded_iff) _ h]
      rfl

/-! ### The effect (R154, R155) -/

theorem clampInt_eq (lo hi x : Int) (h : lo ≤ hi) : clampInt lo hi x = max lo (min hi x) := by
  unfold clampInt
  repeat' split
  all_goals omega

/-- The reseated H: the mean of rel less offset, floored and clamped (R155). -/
theorem State.reseatedH_eq {s : State} (h : s.validPositions ≠ []) :
    (s.reseatedH : Int) = max 0 (min 40000 ((s.validPositions.map fun p => (s.col p).rel.getD 0 - (s.col p).offset).sum
      / (s.validPositions.length : Int))) := by
  have hdiv : ∀ x : Int, x.fdiv s.validPositions.length = x / (s.validPositions.length : Int) := fun x =>
    Int.fdiv_eq_ediv_of_nonneg x (Int.natCast_nonneg _)
  unfold State.reseatedH
  rw [if_neg h, hdiv, clampInt_eq _ _ _ (by decide), Int.toNat_of_nonneg (le_max_left _ _)]
  rfl

theorem State.rearmRefusal_eq_none {s : State} (hin : s.stop.stopIn = .closed)
    (hfit : ∀ p, s.validPos p = true → (s.col p).link = .enrolled ∧ (s.col p).flags.driveFault = false ∧
      ∀ l k, (s.col p).load = some l → (s.col p).cap.rated = some k → l ≤ k)
    (hload : s.rearmTestsLoad = true → ∀ p l, s.validPos p = true → (s.col p).load = some l → s.limit .contactLoad ≤ l) :
    s.rearmRefusal = none := by
  have h1 : s.firstWith (fun p => decide ((s.col p).link ≠ .enrolled)) .dropNotReady = none :=
    State.firstWith_none (fun p hv => by simp [(hfit p hv).1]) _
  have h2 : s.firstWith (fun p => (s.col p).flags.driveFault) .driveFault = none :=
    State.firstWith_none (fun p hv => (hfit p hv).2.1) _
  have h3 : s.firstWith s.overloaded .overload = none := State.firstWith_none (fun p hv => by
    refine Bool.eq_false_iff.mpr fun ho => ?_
    obtain ⟨l, k, hl, hk, hlt⟩ := State.overloaded_iff.mp ho
    exact absurd ((hfit p hv).2.2 l k hl hk) (Nat.not_le.mpr hlt)) _
  rw [State.rearmRefusal_eq hin, h1, h2, h3]
  by_cases htests : s.rearmTestsLoad = true
  · have h4 : s.firstWith s.unloaded .loadLost = none := State.firstWith_none (fun p hv => by
      refine Bool.eq_false_iff.mpr fun hu => ?_
      obtain ⟨l, hl, hlt⟩ := State.unloaded_iff.mp hu
      exact absurd (hload htests p l hv hl) (Nat.not_le.mpr hlt)) _
    rw [if_pos htests, h4]
    rfl
  · rw [if_neg htests]
    rfl

/-- The state that a REARM's phase change starts from: the record moved, STOP_OUT closed, the latches clear, and the reference
reseated on the way to HOLDING (R154, R155). -/
def State.rearmed (s : State) (r : StopRecord) (new : Phase) : State :=
  { s with
    stop := { s.stop with record := none, further := .fill 14 false, previous := some (r, s.stop.further), stopOut := .closed }
    cols := s.cols.map fun c => { c with wasLost := false }
    ref := if new = .holding then { s.ref with h := s.reseatedH, fine := 100 * s.reseatedH, vEff := 0 } else s.ref }

theorem State.acceptRearm_eq {s : State} {r : StopRecord} (hr : s.stop.record = some r) (hsome : s.validPositions ≠ []) :
    s.acceptRearm = (s.rearmed r s.rearmPhase).changePhase s.rearmPhase := by
  have hstop : s.stop.rearmed = { s.stop with
      record := none, further := .fill 14 false, previous := some (r, s.stop.further), stopOut := .closed } := by
    simp [StopUnit.rearmed, hr]
  let t : State := ({ s with stop := s.stop.rearmed } : State).clearLatches
  have hvalid : t.validPositions = s.validPositions := State.validPositions_congr rfl
  have hcol : ∀ p, t.col p = { s.col p with wasLost := false } := fun p => State.col_mapCols _ _ p
  have hrel : t.relLessOffset = s.relLessOffset := funext fun p => by simp only [State.relLessOffset, hcol]
  have hseat : t.reseatedH = s.reseatedH := by
    unfold State.reseatedH State.reseatSum
    rw [hvalid, hrel]
    rfl
  have hbase : (if s.rearmPhase = .holding then t.reseat else t) = s.rearmed r s.rearmPhase := by
    unfold State.rearmed
    rw [← hstop]
    split
    · have hre : t.reseat = { t with ref := { t.ref with h := t.reseatedH, fine := 100 * t.reseatedH, vEff := 0 } } := by
        unfold State.reseat
        rw [hvalid]
        exact if_neg hsome
      rw [hre, hseat]
      rfl
    · rfl
  exact congrArg (fun u => u.changePhase s.rearmPhase) hbase

/-- Settles O32: a REARM with nothing in its way, and the phase that it leads to. -/
theorem rearmEffect : Obligations.RearmEffect := by
  unfold Obligations.RearmEffect
  intro s q tag r hdue hholder hp hphase hr hin hrphase hsome hfit whole
  refine ⟨State.reseatedH_eq hsome, fun new hpart haligned hretracting hholding hload => ?_⟩
  have hnew : new = s.rearmPhase := by
    unfold State.rearmPhase State.phaseAtStop
    rw [hr]
    by_cases hw : whole
    · rw [if_pos (State.allContact_iff.mpr hw)]
      by_cases h1 : r.phase = .aligned
      · rw [haligned hw h1, Option.map_some, h1]
      · by_cases h2 : r.phase = .retracting
        · rw [hretracting hw h2, Option.map_some, h2]
        · rw [hholding hw h1 h2]
          cases h : r.phase <;> simp_all
    · rw [if_neg (fun h => hw (State.allContact_iff.mp h)), hpart hw]
  have hne : new ≠ .stopped := by
    by_cases hw : whole
    · by_cases h1 : r.phase = .aligned
      · rw [haligned hw h1]
        decide
      · by_cases h2 : r.phase = .retracting
        · rw [hretracting hw h2]
          decide
        · rw [hholding hw h1 h2]
          decide
    · rw [hpart hw]
      decide
  have hpass : s.rearmRefusal = none := by
    refine State.rearmRefusal_eq_none hin hfit fun htests => ?_
    obtain ⟨hw, h1, h2, hband⟩ := (State.rearmTestsLoad_iff hr).mp htests
    exact hload (hholding (State.allContact_iff.mp hw) h1 h2) hband
  obtain ⟨-, haccepted⟩ := ownerRearm_of_stopped hholder hp hphase
  have howner : ownerRearm q s [] = ((s.rearmed r new).changePhase new, .plain .done) := by
    rw [haccepted hpass, State.acceptRearm_eq hr hsome, hnew]
  exact State.executes_of_changePhase nofun hdue howner rfl hp fun h => hne (h.symm.trans hphase)

end Sys2Proof.Machine

/-! O39 to O42: a leg's start, its completion, the pause and the dwell, and the reference step. -/

namespace Sys2Proof.Machine

set_option Elab.async false

/-! ### The completion test (R71, R72, R79, R112) -/

theorem Phase.isLeg_iff (ph : Phase) : ph.isLeg = true ↔ ph = .lifting ∨ ph = .lowering := by
  cases ph <;> decide

theorem State.legComplete_iff {s : State} :
    s.legComplete = true ↔ (s.phase = .lifting ∨ s.phase = .lowering) ∧ s.ref.arrived = true ∧ s.outCount = 0 := by
  simp [State.legComplete, Phase.isLeg_iff, and_assoc]

theorem State.completeLegs_of_not {s : State} (h : s.legComplete = false) (n : Nat) : State.completeLegs n s = s := by
  cases n with
  | zero => rfl
  | succ n => simp [State.completeLegs, h]

theorem State.testCompletion_of_not {s : State} (h : s.legComplete = false) : s.testCompletion = s :=
  State.completeLegs_of_not h _

theorem State.testCompletion_eq {s : State} (h : s.legComplete = true) : s.testCompletion =
    if s.finishLeg.2 then State.completeLegs (s.plan.count - s.plan.index) (s.finishLeg.1.startLeg false) else s.finishLeg.1 := by
  rw [State.testCompletion, State.completeLegs, if_pos h]

/-- A counted leg of the running part: the index, the notice, and the write of that point of the event (R71, log entry 28). -/
theorem State.countLeg_eq {s : State} (hp : s.power = .running) : s.countLeg =
    (let plan : Plan := { s.plan with index := s.plan.index + 1 }
    { s with notices := s.noticesWith .legDone, plan := plan, retention := s.retention.triggered { s.image with plan := plan } }) := by
  exact State.trigger_running ({ s.raise .legDone with plan := { s.plan with index := s.plan.index + 1 } } : State) hp

/-- A leg taken writes the notice, the reference and, with no valid position, the counter of free values, and nothing else. -/
theorem State.takeLeg_eq (s : State) (down : Bool) : ∃ n, s.takeLeg down = { s with
    notices := if s.legClamped down then s.noticesWith .planClamped else s.notices, ref := s.legReference down, fresh := n } ∧
    (s.rises ≠ [] → s.maxSpeeds ≠ [] → n = s.fresh) := by
  have hspend : ∀ u : State, u.spendForLeg = { u with
      fresh := if u.rises = [] ∨ u.maxSpeeds = [] then u.fresh + 1 else u.fresh } := fun u => by
    unfold State.spendForLeg
    split <;> rfl
  refine ⟨if s.rises = [] ∨ s.maxSpeeds = [] then s.fresh + 1 else s.fresh, ?_, fun h1 h2 => if_neg (by simp [h1, h2])⟩
  unfold State.takeLeg
  rw [hspend]
  split <;> rfl

/-- A change to a phase of a leg leaves the plan and the out-of-position count alone. -/
theorem State.changePhase_of_isLeg (s : State) {ph : Phase} (h : ph.isLeg = true) :
    (s.changePhase ph).plan = s.plan ∧ (s.changePhase ph).outCount = s.outCount := by
  have hrest : ph ≠ .idle ∧ ph ≠ .aligned ∧ ph.isTracked = true := by
    rcases ph.isLeg_iff.mp h with rfl | rfl
    all_goals decide
  obtain ⟨hidle, haligned, htracked⟩ := hrest
  by_cases hsame : s.phase = ph
  · subst hsame
    rw [State.changePhase_self]
    exact ⟨rfl, rfl⟩
  · rw [State.changePhase_plan s ph hsame, (State.changePhase_counts s ph hsame).2, if_neg (by simp [hidle, haligned]), if_pos htracked]
    exact ⟨rfl, rfl⟩

theorem Direction.phase_isLeg (d : Direction) : d.phase.isLeg = true := by
  cases d <;> rfl

/-- A leg's start leaves the plan and the out-of-position count alone. -/
theorem State.startLeg_kept (s : State) (down : Bool) :
    (s.startLeg down).plan = s.plan ∧ (s.startLeg down).outCount = s.outCount := by
  obtain ⟨n, hn, -⟩ := s.takeLeg_eq down
  have htake : (s.takeLeg down).plan = s.plan ∧ (s.takeLeg down).outCount = s.outCount := by
    rw [hn]
    exact ⟨rfl, rfl⟩
  obtain ⟨hplan, hout⟩ := State.changePhase_of_isLeg (s.takeLeg down) (s.takeLeg down).ref.dir.phase_isLeg
  unfold State.startLeg
  exact ⟨(State.runStepTimer_plan _).trans (hplan.trans htake.1), (State.runStepTimer_outCount _).trans (hout.trans htake.2)⟩

/-- The entry to DWELL: a phase change with the dwell timer started (R113). -/
theorem State.startDwell_spec {s : State} (hne : s.phase ≠ .dwell) (hp : s.power = .running) :
    ({ s with ref := { s.ref with dwellTimer := .running (1000 * s.ref.dwell) } } : State).changesPhase s.startDwell .dwell := by
  have h := State.changePhase_spec s .dwell hne hp
  have href : s.startDwell.ref = { (s.changePhase .dwell).ref with
      dwellTimer := .running (1000 * (s.changePhase .dwell).ref.dwell) } := rfl
  refine ⟨?_, h.phase, h.pause, h.columns, h.starts, h.plan, ?_, h.counts, h.spread, h.notices, h.written, h.polling⟩
  · exact congrArg (fun u : State => { u with ref := { s.ref with dwellTimer := .running (1000 * s.ref.dwell) } }) h.kept
  · rw [href, h.reference]
    rfl

/-- Settles O40: the set-down leg, and a plan leg by what follows it. -/
theorem legCompletion : Obligations.LegCompletion := by
  unfold Obligations.LegCompletion
  intro s hp
  constructor
  · intro h
    exact State.testCompletion_of_not (Bool.eq_false_iff.mpr fun hc => h (State.legComplete_iff.mp hc))
  · intro hleg harrived hout told plan counted
    have hcomplete : s.legComplete = true := State.legComplete_iff.mpr ⟨hleg, harrived, hout⟩
    have hne : ∀ {ph : Phase}, ph.isLeg = false → s.phase ≠ ph := by
      rintro ph hph rfl
      rw [(s.phase.isLeg_iff).mpr hleg] at hph
      cases hph
    rw [State.testCompletion_eq hcomplete]
    constructor
    · intro hdown
      have hfinish : s.finishLeg = (told.changePhase .landed, false) := by
        unfold State.finishLeg
        exact if_pos hdown
      rw [hfinish]
      exact State.changePhase_spec told .landed (hne rfl) hp
    · intro hdown
      have hcount : s.countLeg = counted := State.countLeg_eq hp
      have hfinish : s.finishLeg = if counted.pausePending then (counted.changePhase .holding, false)
          else if 0 < counted.ref.dwell then (counted.startDwell, false) else counted.afterDwell := by
        rw [← hcount]
        unfold State.finishLeg
        exact if_neg (by simp [hdown])
      refine ⟨fun hpause => ?_, fun hpause hdwell => ?_, fun hpause hdwell => ⟨fun hcont hmore => ?_, fun hend => ?_⟩⟩
      · rw [hfinish, if_pos (show counted.pausePending = true from hpause)]
        exact State.changePhase_spec counted .holding (hne rfl) hp
      · rw [hfinish, if_neg (show ¬ counted.pausePending = true by simpa [counted, told] using hpause),
          if_pos (show 0 < counted.ref.dwell from hdwell)]
        exact State.startDwell_spec (s := counted) (hne rfl) hp
      · have hafter : s.finishLeg = (counted, true) := by
          rw [hfinish, if_neg (show ¬ counted.pausePending = true by simpa [counted, told] using hpause),
            if_neg (show ¬ 0 < counted.ref.dwell by simpa [counted, told] using hdwell)]
          exact if_pos (by simpa [counted, told, plan] using ⟨hcont, hmore⟩)
        rw [hafter, if_pos rfl]
        have hfuel : s.plan.count - s.plan.index = (counted.startLeg false).plan.count - (counted.startLeg false).plan.index + 1 := by
          rw [(State.startLeg_kept counted false).1]
          show s.plan.count - s.plan.index = s.plan.count - (s.plan.index + 1) + 1
          omega
        rw [State.testCompletion, ← hfuel]
      · have hafter : s.finishLeg = (counted.changePhase .holding, false) := by
          rw [hfinish, if_neg (show ¬ counted.pausePending = true by simpa [counted, told] using hpause),
            if_neg (show ¬ 0 < counted.ref.dwell by simpa [counted, told] using hdwell)]
          refine if_neg fun h => ?_
          rw [Bool.and_eq_true, decide_eq_true_iff] at h
          rcases hend with hc | hn
          · exact absurd (h.1.symm.trans hc) (by decide)
          · exact absurd h.2 (Nat.not_lt.mpr hn)
        rw [hafter]
        exact State.changePhase_spec counted .holding (hne rfl) hp

/-! ### A leg's start (R69, R70, R78, R105 to R108) -/

/-- The smallest of a list bounds every member and is one of them. -/
theorem smallest_spec {l : List Int} {m : Int} (h : smallest l = some m) : m ∈ l ∧ ∀ x ∈ l, m ≤ x := by
  induction l generalizing m with
  | nil => cases h
  | cons x xs ih =>
    unfold smallest at h
    split at h
    · next hnone =>
      cases h
      cases xs with
      | nil => simp
      | cons y ys =>
        unfold smallest at hnone
        split at hnone <;> cases hnone
    · next y hsome =>
      cases h
      obtain ⟨hmem, hleast⟩ := ih hsome
      constructor
      · rcases min_choice x y with h | h
        · rw [h]
          exact List.mem_cons_self
        · rw [h]
          exact List.mem_cons_of_mem _ hmem
      · intro z hz
        rcases List.mem_cons.mp hz with rfl | hz
        · exact min_le_left _ _
        · exact (min_le_right _ _).trans (hleast z hz)

theorem smallest_of_mem {l : List Int} {x : Int} (h : x ∈ l) : ∃ m, smallest l = some m := by
  cases l with
  | nil => cases h
  | cons y ys =>
    unfold smallest
    split
    · exact ⟨_, rfl⟩
    · exact ⟨_, rfl⟩

theorem State.mem_rises {s : State} {x : Int} : x ∈ s.rises ↔ ∃ p st k, s.validPos p = true ∧ (s.col p).cap.stroke = some st ∧
    (s.col p).contact = some k ∧ x = (st : Int) - k - (s.col p).offset := by
  unfold State.rises
  rw [List.mem_filterMap]
  constructor
  · rintro ⟨p, hp, hx⟩
    split at hx
    · next st k hst hk => exact ⟨p, st, k, State.mem_validPositions.mp hp, hst, hk, (Option.some.inj hx).symm⟩
    · cases hx
  · rintro ⟨p, st, k, hp, hst, hk, rfl⟩
    exact ⟨p, State.mem_validPositions.mpr hp, by rw [hst, hk]⟩

theorem State.mem_maxSpeeds {s : State} {x : Int} : x ∈ s.maxSpeeds ↔ ∃ (p : Pos) (v : Nat), s.validPos p = true ∧
    (s.col p).cap.maxSpeed = some v ∧ x = v := by
  unfold State.maxSpeeds
  rw [List.mem_filterMap]
  constructor
  · rintro ⟨p, hp, hx⟩
    cases hv : (s.col p).cap.maxSpeed with
    | none =>
      rw [hv] at hx
      cases hx
    | some v =>
      rw [hv] at hx
      exact ⟨p, v, State.mem_validPositions.mp hp, hv, (Option.some.inj hx).symm⟩
  · rintro ⟨p, v, hp, hv, rfl⟩
    exact ⟨p, State.mem_validPositions.mpr hp, by rw [hv]; rfl⟩

/-- The ceiling is the least room over the valid positions, 0 where it is below 0 (R105). -/
theorem State.ceiling_eq {s : State} {ceiling : Nat}
    (h : let room := fun (p : Pos) (stroke contact : Nat) => ((stroke : Int) - contact - (s.col p).offset).toNat
      (∀ p x k, s.validPos p = true → (s.col p).cap.stroke = some x → (s.col p).contact = some k → ceiling ≤ room p x k) ∧
        ∃ p x k, s.validPos p = true ∧ (s.col p).cap.stroke = some x ∧ (s.col p).contact = some k ∧ ceiling = room p x k) :
    s.ceiling = ceiling ∧ s.rises ≠ [] := by
  obtain ⟨hleast, p, x, k, hp, hx, hk, heq⟩ := h
  have hmem : (x : Int) - k - (s.col p).offset ∈ s.rises := State.mem_rises.mpr ⟨p, x, k, hp, hx, hk, rfl⟩
  obtain ⟨m, hm⟩ := smallest_of_mem hmem
  obtain ⟨hmem', hmin⟩ := smallest_spec hm
  refine ⟨?_, List.ne_nil_of_mem hmem⟩
  obtain ⟨p', x', k', hp', hx', hk', rfl⟩ := State.mem_rises.mp hmem'
  have h1 := hleast p' x' k' hp' hx' hk'
  have h2 := hmin _ hmem
  simp only [State.ceiling, hm]
  dsimp only at h1 heq
  omega

/-- The speed limit of the group is three quarters of the slowest drive's max speed (R106). -/
theorem State.speedLimit_eq {s : State} {slowest : Nat}
    (hleast : ∀ p v, s.validPos p = true → (s.col p).cap.maxSpeed = some v → slowest ≤ v)
    (hsome : ∃ p, s.validPos p = true ∧ (s.col p).cap.maxSpeed = some slowest) :
    s.speedLimit = slowest * 3 / 4 ∧ s.maxSpeeds ≠ [] := by
  obtain ⟨p, hp, hv⟩ := hsome
  have hmem : (slowest : Int) ∈ s.maxSpeeds := State.mem_maxSpeeds.mpr ⟨p, slowest, hp, hv, rfl⟩
  obtain ⟨m, hm⟩ := smallest_of_mem hmem
  obtain ⟨hmem', hmin⟩ := smallest_spec hm
  refine ⟨?_, List.ne_nil_of_mem hmem⟩
  obtain ⟨p', v', hp', hv', rfl⟩ := State.mem_maxSpeeds.mp hmem'
  have h1 := hleast p' v' hp' hv'
  have h2 := hmin _ hmem
  have h3 : v' = slowest := by omega
  simp only [State.speedLimit, hm, h3, Int.toNat_natCast]

/-- The state of a leg that has been taken, before its phase: the notice and the reference, the step timer running (R107, R70). -/
def State.begun (s : State) (down : Bool) : State :=
  { s with
    notices := if s.legClamped down then s.noticesWith .planClamped else s.notices
    ref := { s.legReference down with stepTimer := .running 10 } }

/-- A leg's start is the leg taken and a change to the phase of its direction, where that is another (R70). -/
theorem State.startLeg_spec {s : State} {down : Bool} (hp : s.power = .running) (hrises : s.rises ≠ [])
    (hspeeds : s.maxSpeeds ≠ []) :
    ((s.legReference down).dir.phase ≠ s.phase → (s.begun down).changesPhase (s.startLeg down) (s.legReference down).dir.phase) ∧
    ((s.legReference down).dir.phase = s.phase → s.startLeg down = s.begun down) := by
  obtain ⟨n, htake, hn⟩ := s.takeLeg_eq down
  rw [hn hrises hspeeds] at htake
  have hphase : (s.takeLeg down).phase = s.phase := by rw [htake]
  have href : (s.takeLeg down).ref = s.legReference down := by rw [htake]
  have hstart : s.startLeg down = ((s.takeLeg down).changePhase (s.legReference down).dir.phase).runStepTimer := by
    rw [State.startLeg, href]
  constructor
  · intro hne
    have h := State.changePhase_spec (s.takeLeg down) (s.legReference down).dir.phase (hphase ▸ hne.symm)
      (by rw [htake]; exact hp)
    rw [hstart]
    rw [htake] at h ⊢
    refine ⟨?_, h.phase, h.pause, h.columns, h.starts, h.plan, ?_, h.counts, h.spread, h.notices, h.written, h.polling⟩
    · exact congrArg (fun u : State => { u with ref := { s.legReference down with stepTimer := .running 10 } }) h.kept
    · have hleg := (s.legReference down).dir.phase_isLeg
      unfold State.runStepTimer
      dsimp only
      rw [h.reference]
      unfold Reference.changed
      rw [if_pos hleg, if_pos hleg]
      rfl
  · intro hsame
    rw [hstart, hsame, ← hphase, State.changePhase_self, htake]
    rfl

theorem State.legClamped_iff {s : State} {down : Bool} : s.legClamped down = true ↔
    s.effectiveTarget down ≠ (s.legFields down).target ∨ s.effectiveSpeed down ≠ (s.legFields down).speed := by
  simp only [State.legClamped, Bool.or_eq_true, decide_eq_true_eq]

/-- Whether a leg that has just started is complete at once (R108). -/
theorem State.startLeg_complete {s : State} {down : Bool} (hp : s.power = .running) (hrises : s.rises ≠ [])
    (hspeeds : s.maxSpeeds ≠ []) :
    (s.startLeg down).legComplete = true ↔ s.effectiveTarget down = s.ref.h ∧ s.outCount = 0 := by
  obtain ⟨hnew, hsame⟩ := State.startLeg_spec (down := down) hp hrises hspeeds
  have hleg := (s.legReference down).dir.phase_isLeg
  have hfacts : (s.startLeg down).phase.isLeg = true ∧ (s.startLeg down).ref.arrived = decide (s.effectiveTarget down = s.ref.h) := by
    by_cases h : (s.legReference down).dir.phase = s.phase
    · rw [hsame h]
      exact ⟨show s.phase.isLeg = true from h ▸ hleg, rfl⟩
    · have hspec := hnew h
      rw [hspec.phase, hspec.reference]
      refine ⟨hleg, if_neg ?_⟩
      rintro (h | h) <;> rw [h] at hleg <;> cases hleg
  rw [State.legComplete_iff, ← Phase.isLeg_iff, (s.startLeg_kept down).2, hfacts.2, decide_eq_true_iff]
  exact ⟨fun h => h.2, fun h => ⟨hfacts.1, h⟩⟩

/-- The owner of RUN and of SETDOWN in ALIGNED and HOLDING (R69, R78). -/
theorem owner_startLeg {s : State} {q : PortId} (down : Bool) (hholder : s.holder = some q) (hp : s.power = .running)
    (hphase : s.phase = .aligned ∨ s.phase = .holding) (hmore : down = true ∨ s.plan.index < s.plan.count) :
    (if down then Request.setdown else .run).owner q s [] = ((s.startLeg down).testCompletion, .plain .done) := by
  cases down with
  | true =>
    obtain ⟨-, -, hnone⟩ := State.groupRefusal_phases hholder hp Phase.takesSetdown_eq []
    have hcheck := hnone (by simpa using hphase) rfl
    simp [Request.owner, ownerSetdown, hcheck]
  | false =>
    obtain ⟨-, -, hnone⟩ := State.groupRefusal_phases hholder hp Phase.takesRun_eq []
    have hcheck := hnone (by rcases hphase with h | h <;> simp [h]) rfl
    have hrest : s.phase.isLeg = false := by rcases hphase with h | h <;> rw [h] <;> rfl
    have hindex : ¬ s.plan.count ≤ s.plan.index := Nat.not_le.mpr (hmore.resolve_left (by decide))
    simp [Request.owner, ownerRun, hcheck, hrest, hindex]

/-- Settles O39: the leg's fields by the two clamps, and the requests that start it. -/
theorem legStart : Obligations.LegStart := by
  unfold Obligations.LegStart
  constructor
  · intro s q tag hdue hholder hp hphase hend
    obtain ⟨-, -, hnone⟩ := State.groupRefusal_phases hholder hp Phase.takesRun_eq []
    have hcheck := hnone (by rcases hphase with h | h <;> simp [h]) rfl
    have hrest : s.phase.isLeg = false := by rcases hphase with h | h <;> rw [h] <;> rfl
    have howner : ownerRun q s [] = (s, .plain .planEnd) := by simp [ownerRun, hcheck, hrest, hend, State.refuse]
    exact State.onlyAnswers_of_owner rfl hdue howner
  · intro s down leg ceiling slowest hp hleg hceiling hslowest target speed dir begun new
    obtain ⟨hceil, hrises⟩ := State.ceiling_eq hceiling
    obtain ⟨hlimit, hspeeds⟩ := State.speedLimit_eq hslowest.1 hslowest.2
    have hfields : s.legFields down = leg := hleg.symm
    have htarget : s.effectiveTarget down = target := by rw [State.effectiveTarget, hfields, hceil]
    have hspeed : s.effectiveSpeed down = speed := by rw [State.effectiveSpeed, hfields, hlimit]
    have hdir : (s.legReference down).dir = dir := by
      show legDirection (s.effectiveTarget down) s.ref.h down = dir
      rw [htarget]
      rfl
    have hbegun : s.begun down = begun := by
      unfold State.begun State.legReference
      simp only [State.legClamped_iff, htarget, hspeed, hfields]
      rfl
    have hphase : (s.legReference down).dir.phase = new := by
      rw [hdir]
      rfl
    obtain ⟨hother, hsame⟩ := State.startLeg_spec (down := down) hp hrises hspeeds
    rw [hphase, hbegun] at hother hsame
    refine ⟨hother, hsame, fun q tag hdue hholder hready hmore => ?_⟩
    have howner := owner_startLeg down hholder hp hready hmore
    have hclaim : (if down then Request.setdown else .run) ≠ .claim := by cases down <;> decide
    have hports : (s.startLeg down).testCompletion.ports = s.ports := State.ports_of_desk (by simp)
    refine State.executes_of_owner (exec_command hclaim q s) hdue howner hports ?_
    rw [State.reply_ports_back hports]
    split
    · rfl
    · next h =>
      refine State.testCompletion_of_not (Bool.eq_false_iff.mpr fun hc => h ?_)
      have hdone := (State.startLeg_complete hp hrises hspeeds).mp hc
      exact ⟨htarget ▸ hdone.1, hdone.2⟩

/-! ### The pause and the dwell (R72, R73, R75) -/

theorem State.dwellExpiry_of_dwell {s : State} {ms : Nat} (hphase : s.phase = .dwell) (ht : s.ref.dwellTimer = .running ms) :
    s.dwellExpiry = if s.afterDwell.2 then (s.afterDwell.1.startLeg false).testCompletion else s.afterDwell.1 := by
  simp only [State.dwellExpiry, hphase, ht]

theorem State.dwellExpiry_of_not {s : State} (h : s.phase ≠ .dwell ∨ s.ref.dwellTimer = .stopped) : s.dwellExpiry = s := by
  unfold State.dwellExpiry
  split
  · next hphase ht =>
    rcases h with h | h
    · exact absurd hphase h
    · rw [h] at ht
      cases ht
  · rfl

/-- Settles O41: each request and each branch of the expiry. -/
theorem pauseAndDwell : Obligations.PauseAndDwell := by
  unfold Obligations.PauseAndDwell
  intro s q tag hp
  refine ⟨fun hholder hphase => ⟨fun hdue => ?_, fun hdue => ?_⟩, fun hholder hphase hdue => ?_, fun ms hphase ht => ?_, fun h => ?_⟩
  · obtain ⟨-, -, hnone⟩ := State.groupRefusal_phases hholder hp Phase.takesRun_eq []
    have hcheck := hnone (by rcases hphase with h | h <;> simp [h]) rfl
    have howner : ownerRun q s [] = ({ s with pausePending := false }, .plain .done) := by
      simp [ownerRun, hcheck, (s.phase.isLeg_iff).mpr hphase]
    exact State.executes_of_owner rfl hdue howner rfl rfl
  · obtain ⟨-, -, hnone⟩ := State.groupRefusal_phases hholder hp Phase.takesPause_eq []
    have hcheck := hnone (by rcases hphase with h | h <;> simp [h]) rfl
    have howner : ownerPause q s [] = ({ s with pausePending := true }, .plain .done) := by
      simp [ownerPause, hcheck, (s.phase.isLeg_iff).mpr hphase]
    exact State.executes_of_owner rfl hdue howner rfl rfl
  · obtain ⟨-, -, hnone⟩ := State.groupRefusal_phases hholder hp Phase.takesPause_eq []
    have hcheck := hnone (by simp [hphase]) rfl
    have howner : ownerPause q s [] = (s.changePhase .holding, .plain .done) := by
      simp [ownerPause, hcheck, hphase, Phase.isLeg]
    exact State.executes_of_changePhase nofun hdue howner rfl hp (by rw [hphase]; decide)
  · have hexpiry := State.dwellExpiry_of_dwell hphase ht
    constructor
    · intro hcont hmore
      have hafter : s.afterDwell = (s, true) := if_pos (by simp [hcont, hmore])
      rw [hafter] at hexpiry
      exact congrArg Host.Outcome.next hexpiry
    · intro hend
      have hafter : s.afterDwell = (s.changePhase .holding, false) := by
        refine if_neg fun h => ?_
        rw [Bool.and_eq_true, decide_eq_true_iff] at h
        rcases hend with hc | hn
        · exact absurd (h.1.symm.trans hc) (by decide)
        · exact absurd h.2 (Nat.not_lt.mpr hn)
      rw [hafter] at hexpiry
      exact ⟨_, congrArg Host.Outcome.next hexpiry, State.changePhase_spec s .holding (by rw [hphase]; decide) hp⟩
  · exact congrArg Host.Outcome.next (State.dwellExpiry_of_not h)

/-! ### The reference step (R74, R109, R110) -/

/-- v_eff moves toward the speed target by at most the ramp (R109). -/
theorem toward_spec {vEff goal ramp v : Nat} (hdown : goal ≤ vEff → v = max goal (vEff - ramp))
    (hup : vEff ≤ goal → v = min goal (vEff + ramp)) : toward vEff goal ramp = v := by
  unfold toward natDistance
  repeat' split
  all_goals omega

theorem reachedTarget_iff (d : Direction) (f : Int) (target : Nat) : reachedTarget d f target = true ↔
    (d = .up → 100 * (target : Int) ≤ f) ∧ (d = .down → f ≤ 100 * (target : Int)) := by
  cases d <;> simp [reachedTarget]

/-- The second test of R74, whole. -/
theorem State.testPause_spec {s : State} (hp : s.power = .running) (hleg : s.phase.isLeg = true) :
    (s.pausePending = true ∧ s.ref.vEff = 0 → s.changesPhase s.testPause .holding) ∧
    (s.pausePending = false ∨ s.ref.vEff ≠ 0 → s.testPause = s) := by
  constructor
  · rintro ⟨hpause, hv⟩
    have htest : s.testPause = s.changePhase .holding := if_pos (by simp [hpause, hv])
    rw [htest]
    refine State.changePhase_spec s .holding ?_ hp
    intro h
    rw [h] at hleg
    cases hleg
  · intro h
    refine if_neg fun hc => ?_
    rw [Bool.and_eq_true, decide_eq_true_iff] at hc
    rcases h with h | h
    · exact absurd (hc.1.symm.trans h) (by decide)
    · exact h hc.2

theorem State.afterStep_of_not {s : State} (h : s.ref.arrived = false ∨ s.outCount ≠ 0) : s.afterStep = s.testPause := by
  refine if_neg fun hc => ?_
  obtain ⟨-, harrived, hout⟩ := State.legComplete_iff.mp hc
  rcases h with h | h
  · exact absurd (harrived.symm.trans h) (by decide)
  · exact h hout

theorem State.referenceStep_of_not {s : State} (h : s.ref.stepTimer = .stopped ∨ s.phase ∉ [.lifting, .lowering]) :
    s.referenceStep = s := by
  unfold State.referenceStep
  split
  · next hleg ht =>
    rcases h with h | h
    · rw [h] at ht
      cases ht
    · exact absurd (by simpa using s.phase.isLeg_iff.mp hleg) h
  · rfl

theorem State.referenceStep_of_leg {s : State} {ms : Nat} (hleg : s.phase.isLeg = true) (ht : s.ref.stepTimer = .running ms) :
    s.referenceStep = if s.ref.arrived then s.testPause else s.stepReference.afterStep := by
  simp only [State.referenceStep, hleg, ht]

theorem State.stepReference_eq {s : State} {target speed : Nat} (ht : s.ref.target = some target) (hs : s.ref.speed = some speed) :
    s.stepReference = { s with ref := s.ref.stepped target (s.speedTarget speed) (s.limit .ramp) } := by
  unfold State.stepReference
  rw [ht, hs]

/-- Settles O42: the step with its reached and its onward case, and the two tests after it. -/
theorem referenceStep : Obligations.ReferenceStep := by
  unfold Obligations.ReferenceStep
  intro s hp
  refine ⟨?_, fun h => congrArg Host.Outcome.next (State.referenceStep_of_not h)⟩
  intro ms target speed hphase ht htarget hspeed v goal f hgoal hdown hup hfu hfd reached there onward
  have hleg := s.phase.isLeg_iff.mpr hphase
  have hv : toward s.ref.vEff (s.speedTarget speed) (s.limit .ramp) = v := by
    rw [State.speedTarget, ← hgoal]
    exact toward_spec hdown hup
  have hf : (s.ref.fine : Int) + s.ref.dir.sign * v = f := by
    cases hd : s.ref.dir with
    | up => rw [hfu hd, Direction.sign]; ring
    | down => rw [hfd hd, Direction.sign]; ring
  have hstep : s.stepReference = if reachedTarget s.ref.dir f target then there else onward := by
    rw [State.stepReference_eq htarget hspeed, Reference.stepped, hv, hf]
    by_cases hr : reachedTarget s.ref.dir f target = true
    · rw [if_pos hr, if_pos hr]
    · rw [if_neg hr, if_neg hr]
  refine ⟨s.referenceStep, rfl, ?_⟩
  rw [State.referenceStep_of_leg hleg ht]
  refine ⟨fun harrived => ?_, fun harrived hreached => ?_, fun harrived hreached => ?_⟩
  · rw [if_pos harrived]
    exact State.testPause_spec hp hleg
  · have hthere : s.stepReference = there := hstep.trans (if_pos ((reachedTarget_iff _ _ _).mpr hreached))
    rw [if_neg (by simp [harrived]), hthere]
    obtain ⟨hpause, hstay⟩ := State.testPause_spec (s := there) hp hleg
    refine ⟨fun hout => ?_, fun hout hp' => ?_, fun hout hp' => ?_⟩
    · exact if_pos ((State.legComplete_iff (s := there)).mpr ⟨hphase, rfl, hout⟩)
    · rw [State.afterStep_of_not (s := there) (.inr hout)]
      exact hpause ⟨hp', rfl⟩
    · rw [State.afterStep_of_not (s := there) (.inr hout)]
      exact hstay (.inl hp')
  · have honward : s.stepReference = onward :=
      hstep.trans (if_neg fun h => hreached ((reachedTarget_iff _ _ _).mp h))
    rw [if_neg (by simp [harrived]), honward, State.afterStep_of_not (s := onward) (.inl harrived)]
    exact State.testPause_spec (s := onward) hp hleg

end Sys2Proof.Machine

/-! O43: the effective delta of a jog, and what it does to the columns. -/

namespace Sys2Proof.Machine

set_option Elab.async false

/-! ### The effective delta (R138) -/

/-- The largest magnitude that a test allows is the one that no greater one up to the bound follows. -/
theorem largestAllowed_eq {allowed : Nat → Bool} {n m : Nat} (hm : m ≤ n) (ha : m = 0 ∨ allowed m = true)
    (hmax : ∀ k, m < k → k ≤ n → allowed k = false) : largestAllowed allowed n = m := by
  induction n with
  | zero => exact (Nat.le_zero.mp hm).symm
  | succ n ih =>
    unfold largestAllowed
    by_cases h : m = n + 1
    · subst h
      rw [if_pos (ha.resolve_left (Nat.succ_ne_zero n))]
    · rw [if_neg (by rw [hmax (n + 1) (by omega) le_rfl]; decide)]
      exact ih (by omega) fun k hk hkn => hmax k hk (by omega)

/-- The furthest allowed value from 0 toward a request is the effective delta. -/
theorem State.effectiveDelta_eq {s : State} {affected : List Pos} {delta d : Int} {allowed : Int → Prop}
    (hallowed : ∀ e, s.jogAllowed affected e = true ↔ allowed e) (hd : d = 0 ∨ allowed d)
    (hup : 0 ≤ delta → 0 ≤ d ∧ d ≤ delta) (hdown : delta ≤ 0 → delta ≤ d ∧ d ≤ 0)
    (hfar : ∀ e : Int, (d < e ∧ e ≤ delta ∨ delta ≤ e ∧ e < d) → ¬ allowed e) : s.effectiveDelta affected delta = d := by
  have hno : ∀ e : Int, (d < e ∧ e ≤ delta ∨ delta ≤ e ∧ e < d) → s.jogAllowed affected e = false := fun e he =>
    Bool.eq_false_iff.mpr fun h => hfar e he ((hallowed e).mp h)
  unfold State.effectiveDelta
  split
  · next hpos =>
    obtain ⟨hlow, hhigh⟩ := hup hpos
    have hcast : (d.natAbs : Int) = d := Int.natAbs_of_nonneg hlow
    rw [largestAllowed_eq (m := d.natAbs) (by omega) (hd.imp (by omega) fun h => by rw [hcast]; exact (hallowed d).mpr h)
      fun k hk hkn => hno k (.inl (by omega))]
    exact hcast
  · next hneg =>
    obtain ⟨hlow, hhigh⟩ := hdown (by omega)
    have hcast : (d.natAbs : Int) = -d := by omega
    rw [largestAllowed_eq (m := d.natAbs) (by omega) (hd.imp (by omega) fun h => by
      rw [hcast, neg_neg]; exact (hallowed d).mpr h) fun k hk hkn => hno _ (.inr (by omega))]
    omega

theorem withinOrNoLarger_iff (bound now new : Nat) :
    withinOrNoLarger bound now new = true ↔ new ≤ bound ∨ bound < now ∧ new ≤ now := by
  simp [withinOrNoLarger]

theorem State.columnAllows_iff {s : State} {d : Int} {p : Pos} : s.columnAllows d p = true ↔
    -400 ≤ (s.col p).offset + d ∧ (s.col p).offset + d ≤ 400 ∧ ∀ rel, (s.col p).rel = some rel →
      let lag := fun e : Int => ((s.ref.h : Int) + ((s.col p).offset + e) - rel).natAbs
      lag d ≤ s.limit .lTrip / 2 ∨ s.limit .lTrip / 2 < lag 0 ∧ lag d ≤ lag 0 := by
  unfold State.columnAllows State.lagWith
  cases hrel : (s.col p).rel with
  | none => simp
  | some rel => simp [withinOrNoLarger_iff, and_assoc]

theorem State.jointAllows_iff {s : State} {affected : List Pos} {d : Int} {k : JointId} : s.jointAllows affected d k = true ↔
    (s.linkEffective k = true → s.targetStep affected d k ≤ s.limit .aStep ∨
      s.limit .aStep < s.targetStep affected 0 k ∧ s.targetStep affected d k ≤ s.targetStep affected 0 k) := by
  unfold State.jointAllows
  cases s.linkEffective k <;> simp [withinOrNoLarger_iff]

/-- The four conditions of R138, column by column. -/
theorem State.jogAllowed_iff {s : State} {affected : List Pos} {d : Int} : s.jogAllowed affected d = true ↔
    ∀ p ∈ affected, s.columnAllows d p = true ∧ s.carAllows affected d (carOf p) = true ∧
      ∀ k, jointOf p = some k → s.jointAllows affected d k = true := by
  simp only [State.jogAllowed, jogJoints, Bool.and_eq_true, List.all_eq_true, List.mem_filterMap, forall_exists_index, and_imp]
  constructor
  · rintro ⟨⟨hcol, hcar⟩, hjoint⟩ p hp
    exact ⟨hcol p hp, hcar p hp, fun k hk => hjoint k p hp hk⟩
  · intro h
    exact ⟨⟨fun p hp => (h p hp).1, fun p hp => (h p hp).2.1⟩, fun k p hp hk => (h p hp).2.2 k hk⟩

/-! ### The columns of a jog (R139) -/

/-- A fold of updates of single columns over positions that stand once each. -/
theorem State.col_foldl_modCol (f : Column → Column) {l : List Pos} (hl : l.Nodup) :
    ∀ (s : State) (x : Pos), (l.foldl (fun u p => u.modCol p f) s).col x = if x ∈ l then f (s.col x) else s.col x := by
  induction l with
  | nil => simp
  | cons p l ih =>
    intro s x
    obtain ⟨hp, hl'⟩ := List.nodup_cons.mp hl
    rw [List.foldl_cons, ih hl', State.col_modCol]
    by_cases hx : x = p
    · subst hx
      simp [hp]
    · simp [hx]

/-- A fold of updates of single columns changes the columns alone. -/
theorem State.foldl_modCol_frame {f : State → Pos → State} (hf : ∀ u p, { f u p with cols := u.cols } = u) (l : List Pos) :
    ∀ s : State, { l.foldl f s with cols := s.cols } = s := by
  induction l with
  | nil => exact fun _ => rfl
  | cons p l ih =>
    intro s
    calc { l.foldl f (f s p) with cols := s.cols }
        = { ({ l.foldl f (f s p) with cols := (f s p).cols } : State) with cols := s.cols } := rfl
      _ = { f s p with cols := s.cols } := by rw [ih]
      _ = s := hf s p

theorem State.beyondDone_iff {s : State} {p : Pos} : s.beyondDone p = true ↔
    ∃ rel, (s.col p).rel = some rel ∧ s.limit .wDone < ((s.ref.h : Int) + (s.col p).offset - rel).natAbs := by
  unfold State.beyondDone State.lagWith
  cases hrel : (s.col p).rel with
  | none => simp
  | some rel => simp

theorem State.beyondDone_congr {s t : State} {p : Pos} (hrel : (t.col p).rel = (s.col p).rel)
    (hoff : (t.col p).offset = (s.col p).offset) (href : t.ref = s.ref) (hlimits : t.limits = s.limits) :
    t.beyondDone p = s.beyondDone p := by
  unfold State.beyondDone State.lagWith
  rw [hrel, hoff, href, State.limit_congr hlimits]

/-- A column with a jog in progress. -/
def Column.jogging (c : Column) : Column :=
  { c with jog := true }

theorem State.col_flagJog (s : State) (p x : Pos) :
    (s.flagJog p).col x = if x = p ∧ s.beyondDone x = true then (s.col x).jogging else s.col x := by
  unfold State.flagJog
  by_cases hb : s.beyondDone p = true
  · rw [if_pos hb, State.col_modCol]
    by_cases hx : x = p
    · subst hx
      rw [if_pos rfl, if_pos ⟨rfl, hb⟩]
      rfl
    · rw [if_neg hx, if_neg fun h => hx h.1]
  · rw [if_neg hb, if_neg]
    rintro ⟨rfl, h⟩
    exact hb h

theorem State.flagJog_frame (s : State) (p : Pos) : { s.flagJog p with cols := s.cols } = s := by
  unfold State.flagJog
  split <;> rfl

/-- The flags of a jog: the affected columns beyond W_done (R139). -/
theorem State.col_foldl_flagJog (l : List Pos) :
    ∀ (s : State) (x : Pos), (l.foldl State.flagJog s).col x =
      if x ∈ l ∧ s.beyondDone x = true then (s.col x).jogging else s.col x := by
  induction l with
  | nil => simp
  | cons p l ih =>
    intro s x
    have hframe := s.flagJog_frame p
    have hbeyond : (s.flagJog p).beyondDone x = s.beyondDone x := by
      refine State.beyondDone_congr ?_ ?_ (congrArg State.ref hframe :) (congrArg State.limits hframe :)
      all_goals rw [State.col_flagJog]; split <;> rfl
    rw [List.foldl_cons, ih, State.col_flagJog, hbeyond]
    by_cases hb : s.beyondDone x = true
    · by_cases hm : x ∈ l
      · rw [if_pos (show x ∈ l ∧ s.beyondDone x = true from ⟨hm, hb⟩),
          if_pos (show x ∈ p :: l ∧ s.beyondDone x = true from ⟨List.mem_cons_of_mem _ hm, hb⟩)]
        split <;> rfl
      · rw [if_neg fun h => hm h.1]
        simp only [List.mem_cons, hm, or_false]
    · rw [if_neg fun h => hb h.2, if_neg fun h => hb h.2, if_neg fun h => hb h.2]

/-! ### A wake, whole (R36) -/

/-- A wake of the running part, seen from a state with the same lines and phase. -/
theorem State.wakes_wake {s u : State} (hp : u.power = .running) (hphase : u.phase = s.phase) (hsegs : u.segs = s.segs) :
    s.wakes u.wake := by
  constructor
  · intro p
    rw [State.col_wake, if_pos hp]
  · intro g
    rw [State.seg_wake u hp, State.seg_congr hsegs, hphase, Segment.woken_awake]
    rfl

/-- A wake of the running part changes the columns and the segments alone. -/
theorem State.wake_eq {s : State} (hp : s.power = .running) : s.wake =
    (s.mapSegs (Segment.woken s.phase.isMotion)).mapCols fun c => { c with creep := none } := by
  unfold State.wake
  rw [hp]

theorem State.drop_wake (s : State) (g : SegId) (d : DropId) : s.wake.drop g d = s.drop g d := by
  by_cases hp : s.power = .running
  · rw [State.drop, State.seg_wake s hp, Segment.woken_awake]
    rfl
  · rw [State.wake_of_not_running s hp]

/-- An accepted jog of columns that stand once each: the offsets, the flags, and the wake or the write (R139). -/
theorem State.applyJog_spec {s : State} {affected : List Pos} {d : Int} (hn : affected.Nodup) (hp : s.power = .running) :
    let beyond := fun p => ∃ rel, (s.col p).rel = some rel ∧ s.limit .wDone < ((s.ref.h : Int) + ((s.col p).offset + d) - rel).natAbs
    let t := s.applyJog affected d
    (∀ p, (t.col p).offset = (if p ∈ affected then (s.col p).offset + d else (s.col p).offset) ∧
      ((t.col p).jog = true ↔ (s.col p).jog = true ∨ p ∈ affected ∧ beyond p) ∧
      { t.col p with offset := (s.col p).offset, jog := (s.col p).jog, creep := (s.col p).creep } = s.col p) ∧
    ((∃ p ∈ affected, beyond p) → t.retention = s.retention ∧ s.wakes t) ∧
    ((∀ p ∈ affected, ¬ beyond p) → t.retention = s.retention.triggered t.image ∧ t.segs = s.segs ∧
      ∀ p, (t.col p).creep = (s.col p).creep) ∧
    (∀ g x, t.drop g x = s.drop g x) ∧
    { t with cols := s.cols, segs := s.segs, retention := s.retention } = s := by
  intro beyond t
  let moved := affected.foldl (State.addOffset d) s
  let flagged := affected.foldl State.flagJog moved
  have hcolm : ∀ x, moved.col x = if x ∈ affected then { s.col x with offset := (s.col x).offset + d } else s.col x :=
    State.col_foldl_modCol (fun c => { c with offset := c.offset + d }) hn s
  have hmoved : { moved with cols := s.cols } = s :=
    State.foldl_modCol_frame (f := State.addOffset d) (fun u p => rfl) affected s
  have hflagged : { flagged with cols := moved.cols } = moved := State.foldl_modCol_frame State.flagJog_frame affected moved
  have hframe : { flagged with cols := s.cols } = s := by
    calc { flagged with cols := s.cols }
        = { ({ flagged with cols := moved.cols } : State) with cols := s.cols } := rfl
      _ = { moved with cols := s.cols } := by rw [hflagged]
      _ = s := hmoved
  have hbeyond : ∀ x ∈ affected, moved.beyondDone x = true ↔ beyond x := fun x hx => by
    rw [State.beyondDone_iff, hcolm, if_pos hx, State.limit_congr (show moved.limits = s.limits from (congrArg State.limits hmoved :)),
      show moved.ref = s.ref from (congrArg State.ref hmoved :)]
  have hcolf : ∀ x, flagged.col x = if x ∈ affected ∧ moved.beyondDone x = true then (moved.col x).jogging else moved.col x :=
    State.col_foldl_flagJog affected moved
  have hpow : flagged.power = .running := (congrArg State.power hframe :).trans hp
  have hflag : ∀ x, (flagged.col x).offset = (if x ∈ affected then (s.col x).offset + d else (s.col x).offset) ∧
      ((flagged.col x).jog = true ↔ (s.col x).jog = true ∨ x ∈ affected ∧ beyond x) ∧
      { flagged.col x with offset := (s.col x).offset, jog := (s.col x).jog } = s.col x := fun x => by
    rw [hcolf]
    by_cases hx : x ∈ affected
    · by_cases hb : beyond x
      · rw [if_pos ⟨hx, (hbeyond x hx).mpr hb⟩, hcolm, if_pos hx, if_pos hx]
        exact ⟨rfl, ⟨fun _ => .inr ⟨hx, hb⟩, fun _ => rfl⟩, rfl⟩
      · rw [if_neg fun h => hb ((hbeyond x hx).mp h.2), hcolm, if_pos hx, if_pos hx]
        exact ⟨rfl, ⟨.inl, fun h => h.elim id fun h => absurd h.2 hb⟩, rfl⟩
    · rw [if_neg fun h => hx h.1, hcolm, if_neg hx, if_neg hx]
      exact ⟨rfl, ⟨.inl, fun h => h.elim id fun h => absurd h.1 hx⟩, rfl⟩
  by_cases hany : ∃ p ∈ affected, beyond p
  · have ht : t = flagged.wake := if_pos (by
      obtain ⟨p, hp, hb⟩ := hany
      exact List.any_eq_true.mpr ⟨p, hp, (hbeyond p hp).mpr hb⟩)
    rw [ht]
    refine ⟨fun x => ?_, fun _ => ⟨?_, ?_⟩, fun h => absurd hany (by simpa using h), fun g x => ?_, ?_⟩
    · rw [State.col_wake]
      obtain ⟨h1, h2, h3⟩ := hflag x
      exact ⟨h1, h2, (congrArg (fun c : Column => { c with creep := (s.col x).creep }) h3 :)⟩
    · rw [State.wake_retention]
      exact (congrArg State.retention hframe :)
    · exact State.wakes_wake hpow (congrArg State.phase hframe :) (congrArg State.segs hframe :)
    · rw [State.drop_wake]
      exact State.drop_congr (congrArg State.segs hframe :) g x
    · rw [State.wake_eq hpow]
      exact (congrArg (fun u : State => { u with segs := s.segs, retention := s.retention }) hframe :)
  · have ht : t = flagged.trigger := if_neg fun h => hany (by
      obtain ⟨p, hp, hb⟩ := List.any_eq_true.mp h
      exact ⟨p, hp, (hbeyond p hp).mp hb⟩)
    rw [ht, State.trigger_running _ hpow]
    refine ⟨fun x => ?_, fun h => absurd h hany, fun _ => ⟨?_, ?_, fun x => ?_⟩, fun g x => ?_, ?_⟩
    · obtain ⟨h1, h2, h3⟩ := hflag x
      exact ⟨h1, h2, (congrArg (fun c : Column => { c with creep := (s.col x).creep }) h3 :)⟩
    · exact congrArg (fun r : Retention => r.triggered flagged.image) (congrArg State.retention hframe :)
    · exact (congrArg State.segs hframe :)
    · obtain ⟨-, -, h3⟩ := hflag x
      exact (congrArg Column.creep h3 :)
    · exact State.drop_congr (congrArg State.segs hframe :) g x
    · exact (congrArg (fun u : State => { u with segs := s.segs, retention := s.retention }) hframe :)

/-! ### O43 -/

theorem jogArgs_column (p : Pos) (a b : Byte) : jogArgs [0, byteOf p.val, a, b] = some (.column p, int16 a b) := by
  simp [jogArgs, fromZero_byteOf (n := 48) (by decide) p]

theorem jogArgs_car (c : CarId) (a b : Byte) : jogArgs [1, byteOf (c.val + 1), a, b] = some (.car c, int16 a b) := by
  simp [jogArgs, fromOne_byteOf (n := 12) (by decide)]

theorem carPositions_nodup (c : CarId) : [posOf c 0, posOf c 1, posOf c 2, posOf c 3].Nodup := by
  revert c
  decide

/-- A JOG of an admitted target answers DONE and applies the effective delta. -/
theorem ownerJog_done {s : State} {q : PortId} {args : List Byte} {target : JogTarget} {delta : Int} (hholder : s.holder = some q)
    (hp : s.power = .running) (hphase : s.phase = .holding) (hargs : jogArgs args = some (target, delta))
    (hadmits : s.jogAdmits target = true) : ownerJog q s args =
      let d := s.effectiveDelta target.positions delta
      (if d = 0 then s else s.applyJog target.positions d, { result := .done, clamped := decide (d ≠ delta), data := [] }) := by
  unfold ownerJog
  rw [State.turnedAway_eq_none hholder hp]
  simp only [hphase, hargs, hadmits, ne_eq, not_true_eq_false, if_false, if_true]

/-- Settles O43: the named columns, the four conditions as the test has them, and the change of an effective delta. -/
theorem jogEffect : Obligations.JogEffect := by
  unfold Obligations.JogEffect
  intro s q tag a b affected hholder hp hphase htarget within offset lag spread joint allowed beyond d hd hup hdown hfar answer
  obtain ⟨args, target, hdue, hargs, hadmits, hpositions, hn⟩ : ∃ args target, s.holds q .jog tag args ∧
      jogArgs args = some (target, int16 a b) ∧ s.jogAdmits target = true ∧ target.positions = affected ∧ affected.Nodup := by
    rcases htarget with ⟨p, hvalid, rfl, hdue⟩ | ⟨c, hcar, rfl, hdue⟩
    · exact ⟨_, .column p, hdue, jogArgs_column p a b, hvalid, rfl, List.nodup_singleton p⟩
    · exact ⟨_, .car c, hdue, jogArgs_car c a b, hcar, rfl, carPositions_nodup c⟩
  have hoffset : ∀ e p, s.offsetWith affected e p = offset e p := fun e p => by
    simp only [State.offsetWith, List.contains_iff_mem, offset]
  have hallowed : ∀ e, s.jogAllowed affected e = true ↔ allowed e := fun e => by
    rw [State.jogAllowed_iff]
    refine forall₂_congr fun p hp => ?_
    rw [State.columnAllows_iff]
    simp only [State.carAllows, withinOrNoLarger_iff, State.jointAllows_iff, State.targetSpread, State.targetStep, hoffset]
    constructor
    · rintro ⟨⟨hlow, hhigh, hlag⟩, hcar, hjoint⟩
      exact ⟨hlow, hhigh, hcar, hjoint, hlag⟩
    · rintro ⟨hlow, hhigh, hcar, hjoint, hlag⟩
      exact ⟨⟨hlow, hhigh, hlag⟩, hcar, hjoint⟩
  have heff : s.effectiveDelta affected (int16 a b) = d := State.effectiveDelta_eq hallowed hd hup hdown hfar
  have howner : ownerJog q s args = (if d = 0 then s else s.applyJog affected d, answer) := by
    rw [ownerJog_done hholder hp hphase hargs hadmits, hpositions, heff]
  refine ⟨fun hzero => ?_, fun hne => ?_⟩
  · rw [if_pos hzero] at howner
    exact State.onlyAnswers_of_owner rfl hdue howner
  · rw [if_neg hne] at howner
    obtain ⟨hcols, hwake, htrigger, hdrops, hkept⟩ := State.applyJog_spec (d := d) hn hp
    exact State.executes_of_owner rfl hdue howner (congrArg State.ports hkept :)
      ⟨hcols, hwake, htrigger, hdrops, (congrArg (fun u : State => { u with ports := s.ports }) hkept :)⟩

end Sys2Proof.Machine

/-! O46, O47: the poll cycle, the next exchange with its COMMAND, and the ALLSTOP broadcast. -/

namespace Sys2Proof.Machine

set_option Elab.async false

/-! ### One segment changed -/

theorem State.modSeg_eq (s : State) (g : SegId) (f : Segment → Segment) : s.modSeg g f = { s with segs := s.segs.set g (f (s.seg g)) } :=
  rfl

theorem State.modSeg_self {s : State} {g : SegId} {f : Segment → Segment} (h : f (s.seg g) = s.seg g) : s.modSeg g f = s := by
  rw [State.modSeg_eq, h, State.seg, Table.set_get_self]

/-! ### The end of a cycle (R25) -/

theorem Segment.goOn_of_more {sg : Segment} (h : sg.cycle = none ∨ sg.nextExchange ≠ none) : sg.goOn = sg := by
  unfold Segment.goOn
  rcases h with h | h
  · simp [h]
  · simp [h, Option.isNone_iff_eq_none]

theorem Segment.goOn_of_last {sg : Segment} (hcycle : sg.cycle ≠ none) (hnext : sg.nextExchange = none) : sg.goOn = sg.endCycle := by
  unfold Segment.goOn
  rw [if_pos (by simpa [hnext, Option.isSome_iff_ne_none] using hcycle)]

/-! ### The poll cycle timer and the quiet-entry timer (R25, R35) -/

theorem State.pollExpiry_eq {s : State} {g : SegId} {ms : Nat} (hp : s.power = .running) (ht : (s.seg g).pollTimer = .running ms) :
    s.pollExpiry g =
      if (s.seg g).echo ≠ .none then s
      else if (s.seg g).cycle.isNone then s.modSeg g Segment.beginCycle
      else (s.modSeg g fun sg => { sg with overrun := true, startOwed := true }).raise .cycleOverrun := by
  unfold State.pollExpiry
  rw [hp, ht]

theorem State.quietExpiry_eq {s : State} {g : SegId} {ms : Nat} (hp : s.power = .running)
    (ht : (s.seg g).quietTimer = .running ms) : s.quietExpiry g =
      (s.modSeg g fun sg =>
        { sg with mode := .quiet, quietTimer := .stopped, pollTimer := .running Config.quietPeriod }).takeBaselines g := by
  unfold State.quietExpiry
  rw [hp, ht]

/-- The baselines of R35: the heights of the segment's mapped positions. -/
theorem State.takeBaselines_eq (s : State) (g : SegId) : s.takeBaselines g =
    { s with
      cols := .build fun p =>
        { s.col p with
          creep := if (s.entry p).any (fun e => decide (e.seg = g)) then (s.col p).height else (s.col p).creep } } := by
  unfold State.takeBaselines
  congr 2
  funext p
  cases he : s.entry p with
  | none => rfl
  | some e => by_cases hg : e.seg = g <;> simp [hg]

/-- Settles O46: the two timers, the byte on the line, and the end of a cycle. -/
theorem pollTimers : Obligations.PollTimers := by
  unfold Obligations.PollTimers
  intro s g hp
  refine ⟨fun ms ht => ⟨fun hecho => ?_, fun hecho hcycle => ?_, fun hecho hcycle => ?_⟩, fun ms ht => ?_,
    fun v => ⟨fun hfree => ?_, fun hopen => ?_⟩, Segment.goOn_of_more, fun hcycle hnext howed => ?_, fun hcycle hnext howed => ?_⟩
  · exact congrArg Host.Outcome.next ((State.pollExpiry_eq hp ht).trans (if_pos hecho))
  · have hexpiry : s.pollExpiry g = s.modSeg g Segment.beginCycle := by
      rw [State.pollExpiry_eq hp ht, if_neg (not_not_intro hecho), if_pos (by rw [hcycle]; rfl)]
    rw [State.modSeg_eq, Segment.beginCycle_fresh] at hexpiry
    exact congrArg Host.Outcome.next hexpiry
  · have hexpiry : s.pollExpiry g = (s.modSeg g fun sg => { sg with overrun := true, startOwed := true }).raise .cycleOverrun := by
      rw [State.pollExpiry_eq hp ht, if_neg (not_not_intro hecho), if_neg (by rwa [Option.isNone_iff_eq_none])]
    exact congrArg Host.Outcome.next hexpiry
  · exact congrArg Host.Outcome.next ((State.quietExpiry_eq hp ht).trans (State.takeBaselines_eq _ g))
  · have hhear : (s.seg g).hearByte = { s.seg g with idleWaitRestarted := true } := by
      unfold Segment.hearByte
      split
      · rfl
      · next hx => exact absurd (hfree.symm.trans hx) nofun
    exact congrArg Host.Outcome.next ((State.modSeg_eq s g _).trans (by rw [hhear]))
  · have hhear : (s.seg g).hearByte = s.seg g := by
      obtain ⟨x, hx⟩ := Option.ne_none_iff_exists'.mp hopen
      rw [Segment.hearByte, hx]
    exact congrArg Host.Outcome.next (State.modSeg_self hhear)
  · rw [Segment.goOn_of_last hcycle hnext, Segment.endCycle_whole, if_pos howed]
    rfl
  · rw [Segment.goOn_of_last hcycle hnext, Segment.endCycle_whole, if_neg (by rw [howed]; decide), ← howed]

/-! ### The next exchange (R26) -/

theorem Segment.nextVisit_eq_some {sg : Segment} {reached : Nat} {d : DropId}
    (hd : reached ≤ d.val ∧ (sg.drops.get d).link ≠ .absent)
    (hfirst : ∀ x < d, ¬ (reached ≤ x.val ∧ (sg.drops.get x).link ≠ .absent)) : sg.nextVisit reached = some d :=
  find?_of_ascending (List.pairwise_lt_finRange 12) (List.mem_finRange d) (by simpa using hd) fun x _ hx => by
    simpa using hfirst x hx

theorem Segment.nextVisit_eq_none {sg : Segment} {reached : Nat}
    (h : ∀ d : DropId, ¬ (reached ≤ d.val ∧ (sg.drops.get d).link ≠ .absent)) : sg.nextVisit reached = none :=
  List.find?_eq_none.mpr fun d _ => by simpa using h d

theorem Segment.nextProbe_eq_some {sg : Segment} {done : List DropId} {k : Fin 12}
    (hk : (sg.drops.get (sg.discovery + k + 1)).link = .absent ∧ sg.discovery + k + 1 ∉ done)
    (hfirst : ∀ j < k, ¬ ((sg.drops.get (sg.discovery + j + 1)).link = .absent ∧ sg.discovery + j + 1 ∉ done)) :
    sg.nextProbe done = some (sg.discovery + k + 1) := by
  have hfind := find?_of_ascending (l := List.finRange 12) (k := k) (List.pairwise_lt_finRange 12) (List.mem_finRange k)
    (test := fun j => decide ((sg.drops.get (sg.discovery + j + 1)).link = .absent) && !done.contains (sg.discovery + j + 1))
    (by simpa using hk) fun j _ hj => by simpa using hfirst j hj
  unfold Segment.nextProbe Segment.probeOrder
  rw [List.find?_map]
  exact congrArg (Option.map _) hfind

theorem Segment.nextExchange_visit {sg : Segment} {reached : Nat} {done : List DropId} {d : DropId}
    (hcycle : sg.cycle = some { reached := reached, exchanged := done, probed := false })
    (hvisit : sg.nextVisit reached = some d) : sg.nextExchange = some (d, .poll) := by
  simp [Segment.nextExchange, hcycle, hvisit]

theorem Segment.nextExchange_probe {sg : Segment} {reached : Nat} {done : List DropId} {d : DropId}
    (hcycle : sg.cycle = some { reached := reached, exchanged := done, probed := false })
    (hvisit : sg.nextVisit reached = none) (hprobe : sg.nextProbe done = some d) : sg.nextExchange = some (d, .probe) := by
  simp [Segment.nextExchange, hcycle, hvisit, hprobe]

theorem Segment.nextExchange_of_no_cycle {sg : Segment} (h : sg.cycle = none) : sg.nextExchange = none := by
  simp [Segment.nextExchange, h]

/-! ### The COMMAND (R28, R33) -/

theorem Segment.freeForCommand_iff {sg : Segment} :
    sg.freeForCommand = true ↔ sg.inFlight = none ∧ sg.allstopOwed = false ∧ sg.echo = .none := by
  simp [Segment.freeForCommand, and_assoc]

theorem State.sendCommand_eq {s : State} {g : SegId} {d : DropId} {kind : ExchangeKind} (hp : s.power = .running)
    (hnext : (s.seg g).nextExchange = some (d, kind)) (hfree : (s.seg g).freeForCommand = true) :
    s.sendCommand g = { s with segs := s.segs.set g ((s.seg g).beginExchange d kind (s.commandDemand g d kind)) } := by
  have hsend : s.sendCommand g = s.modSeg g fun sg => sg.beginExchange d kind (s.commandDemand g d kind) := by
    unfold State.sendCommand
    rw [hp, hnext]
    exact if_pos hfree
  exact hsend

theorem State.sendCommand_of_not_free {s : State} {g : SegId}
    (h : (s.seg g).nextExchange = none ∨ (s.seg g).freeForCommand = false) : s.sendCommand g = s := by
  unfold State.sendCommand
  split
  · next hnext =>
    rcases h with h | h
    · rw [h] at hnext
      cases hnext
    · rw [h]
      rfl
  · rfl

/-- The demand of a POLL where no ALLSTOP is owed (R13). -/
theorem State.commandDemand_poll {s : State} {g : SegId} (h : (s.seg g).allstopOwed = false) (d : DropId) :
    s.commandDemand g d .poll =
      if s.phase = .stopped ∨ (s.drop g d).link ≠ .enrolled then 0
      else match s.mappedAt g d with
        | some p => (s.col p).demand
        | none => 0 := by
  simp only [State.commandDemand, h, Bool.false_eq_true, false_or]
  split
  · rfl
  · cases s.mappedAt g d <;> rfl

/-! ### The ALLSTOP (R32) -/

theorem State.allstop_running {s : State} (hp : s.power = .running) (g : SegId) : s.allstop g = s.modSeg g Segment.sendAllstop := by
  unfold State.allstop
  rw [hp]

/-- Settles O47: the POLL and the PROBE, the COMMAND held back, and the ALLSTOP. -/
theorem commandAndAllstop : Obligations.CommandAndAllstop := by
  unfold Obligations.CommandAndAllstop
  intro s g hp
  refine ⟨fun reached done hcycle hflight howed hecho => ?_, fun hheld => ?_, fun howed hflight => ?_, fun hheld => ?_⟩
  · intro sent visits probes
    have hfree : (s.seg g).freeForCommand = true := Segment.freeForCommand_iff.mpr ⟨hflight, howed, hecho⟩
    refine ⟨fun d hd hfirst => ?_, fun k hnone hk hfirst => ?_⟩
    · have hsend := State.sendCommand_eq hp (Segment.nextExchange_visit hcycle (Segment.nextVisit_eq_some hd hfirst)) hfree
      rw [Segment.beginExchange, hcycle, State.commandDemand_poll howed] at hsend
      exact congrArg Host.Outcome.next hsend
    · have hsend := State.sendCommand_eq hp (Segment.nextExchange_probe hcycle (Segment.nextVisit_eq_none hnone)
        (Segment.nextProbe_eq_some hk hfirst)) hfree
      rw [Segment.beginExchange, hcycle] at hsend
      exact congrArg Host.Outcome.next hsend
  · refine congrArg Host.Outcome.next (State.sendCommand_of_not_free ?_)
    refine hheld.imp Segment.nextExchange_of_no_cycle fun h => Bool.eq_false_iff.mpr fun hfree => ?_
    obtain ⟨hflight, howed, hecho⟩ := Segment.freeForCommand_iff.mp hfree
    rcases h with h | h | h
    · exact h hflight
    · exact absurd (h.symm.trans howed) (by decide)
    · exact h hecho
  · have hsend : (s.seg g).sendAllstop =
        { s.seg g with allstopOwed := false, idleWaitRestarted := false, line := some allstopFrame } := by
      simp [Segment.sendAllstop, howed, hflight]
    exact congrArg Host.Outcome.next ((State.allstop_running hp g).trans ((State.modSeg_eq s g _).trans (by rw [hsend]; rfl)))
  · have hsend : (s.seg g).sendAllstop = s.seg g := by
      rcases hheld with h | h
      · simp [Segment.sendAllstop, h]
      · simp [Segment.sendAllstop, h]
    exact congrArg Host.Outcome.next ((State.allstop_running hp g).trans (State.modSeg_self hsend))

end Sys2Proof.Machine

/-! O57: the echo test, from ECHO to its result. -/

namespace Sys2Proof.Machine

set_option Elab.async false

/-! ### The request (R39) -/

theorem echoArgs_byteOf (g : SegId) (cable : Fin 3) : echoArgs [byteOf (g.val + 1), byteOf cable.val] = some (g, cable) := by
  simp [echoArgs, fromOne_byteOf (n := 4) (by decide), fromZero_byteOf (n := 3) (by decide)]

theorem echoArgs_some {args : List Byte} {g : SegId} {cable : Fin 3} (h : echoArgs args = some (g, cable)) :
    args = [byteOf (g.val + 1), byteOf cable.val] := by
  unfold echoArgs at h
  split at h
  · next b t =>
    simp only [Option.bind_eq_bind, Option.bind_eq_some_iff, Option.some.injEq, Prod.mk.injEq] at h
    obtain ⟨z, hz, c, hc, rfl, rfl⟩ := h
    rw [fromOne_some hz, fromZero_some hc]
  · cases h

theorem Segment.anyEnrolled_iff {s : State} {g : SegId} :
    (s.seg g).anyEnrolled = true ↔ ∃ d, (s.drop g d).link = .enrolled := by
  unfold Segment.anyEnrolled
  simp only [List.any_eq_true, Table.mem_rows, decide_eq_true_eq]
  constructor
  · rintro ⟨x, ⟨d, rfl⟩, h⟩
    exact ⟨d, h⟩
  · rintro ⟨d, h⟩
    exact ⟨_, ⟨d, rfl⟩, h⟩

/-- The answer to ECHO from the holder, with its checks in order (R39). -/
theorem ownerEcho_eq {s : State} {q : PortId} {g : SegId} {cable : Fin 3} (hholder : s.holder = some q) :
    ownerEcho q s [byteOf (g.val + 1), byteOf cable.val] =
      if s.phase ≠ .idle ∧ ∃ d, (s.drop g d).link = .enrolled then (s, .plain .wrongPhase)
      else if ∃ z, (s.seg z).echo ≠ .none then (s, .plain .busy)
      else ((s.modSeg g fun sg => { sg with echo := .waiting cable }).echoRunning g, .plain .done) := by
  have hstands : s.echoStands = true ↔ ∃ z, (s.seg z).echo ≠ .none := by
    rw [State.echoStands_iff, not_forall]
  unfold ownerEcho
  rw [if_neg (not_not_intro hholder), echoArgs_byteOf]
  simp only [Segment.anyEnrolled_iff, hstands, State.refuse]

/-! ### The start (R40) -/

theorem Segment.tryEcho_of_free {sg : Segment} {cable : Fin 3} (hecho : sg.echo = .waiting cable) (hflight : sg.inFlight = none)
    (howed : sg.allstopOwed = false) : sg.tryEcho = sg.startEcho cable := by
  simp [Segment.tryEcho, hecho, hflight, howed]

theorem Segment.tryEcho_of_busy {sg : Segment} {cable : Fin 3} (hecho : sg.echo = .waiting cable)
    (hbusy : sg.inFlight ≠ none ∨ sg.allstopOwed = true) : sg.tryEcho = sg := by
  have hheld : (sg.inFlight.isNone && !sg.allstopOwed) = false := by
    rcases hbusy with h | h
    · simp [Option.isNone_iff_eq_none.not.mpr h]
    · simp [h]
  simp [Segment.tryEcho, hecho, hheld]

theorem State.echoRunning_running {s : State} (hp : s.power = .running) (g : SegId) : s.echoRunning g = s.modSeg g Segment.tryEcho := by
  unfold State.echoRunning
  rw [hp]

theorem Table.modify_modify {α : Type} {n : Nat} (t : Table α n) (i : Fin n) (f f' : α → α) :
    (t.modify i f).modify i f' = t.modify i fun a => f' (f a) := by
  ext j
  by_cases h : j = i
  · subst h
    simp
  · simp [Table.get_modify_of_ne, h]

theorem State.modSeg_modSeg (s : State) (g : SegId) (f f' : Segment → Segment) :
    (s.modSeg g f).modSeg g f' = s.modSeg g fun sg => f' (f sg) :=
  congrArg (fun t : Table Segment 4 => ({ s with segs := t } : State)) (Table.modify_modify s.segs g f f')

/-- A segment whose test has been accepted (R39). -/
def Segment.waitingEcho (sg : Segment) (cable : Fin 3) : Segment :=
  { sg with echo := .waiting cable }

/-- An accepted test, started where the line is free (R39, R40). -/
theorem State.acceptEcho_eq {s : State} (hp : s.power = .running) (g : SegId) (cable : Fin 3) :
    (s.modSeg g fun sg => { sg with echo := .waiting cable }).echoRunning g =
      { s with segs := s.segs.set g ((s.seg g).waitingEcho cable).tryEcho } := by
  rw [State.echoRunning_running (s := s.modSeg g _) hp, State.modSeg_modSeg]
  rfl

/-! ### The pulses and the result (R41 to R43) -/

theorem Segment.recordPulse_eq {sg : Segment} {cable : Fin 3} {pulses : List Pulse} (hecho : sg.echo = .running cable pulses)
    (hlen : pulses.length < 16) (r : Reflection) :
    sg.recordPulse r = { sg with echo := .running cable (pulses ++ [⟨pulseClass r, r.delay⟩]) } := by
  simp [Segment.recordPulse, hecho, Config.echoPulses, hlen]

theorem pulseClass_eq {r : Reflection} {c : EchoClass}
    (habove : r.strength = .aboveDetection → c = match r.polarity with
      | .same => .openCircuit
      | .opposite => .short)
    (hbetween : r.strength = .betweenThresholds → c = .uncertain) (hbelow : r.strength = .belowWeak → c = .matched) :
    pulseClass r = c := by
  unfold pulseClass
  cases hs : r.strength with
  | aboveDetection => cases hp : r.polarity <;> simp [habove hs, hp]
  | betweenThresholds => exact (hbetween hs).symm
  | belowWeak => exact (hbelow hs).symm

theorem EchoCounts.winner_openCircuit_iff (c : EchoCounts) : c.winner = .openCircuit ↔
    c.short < c.openCircuit ∧ c.uncertain < c.openCircuit ∧ c.matched < c.openCircuit := by
  unfold EchoCounts.winner
  split
  · next h => simp [h]
  · next h =>
    split
    · simp [h]
    · split <;> simp [h]

theorem EchoCounts.winner_short_iff (c : EchoCounts) : c.winner = .short ↔
    c.openCircuit < c.short ∧ c.uncertain < c.short ∧ c.matched < c.short := by
  unfold EchoCounts.winner
  split
  · next h => simp; omega
  · split
    · next h => simp [h]
    · next h => split <;> simp [h]

theorem EchoCounts.winner_matched_iff (c : EchoCounts) : c.winner = .matched ↔
    c.openCircuit < c.matched ∧ c.short < c.matched ∧ c.uncertain < c.matched := by
  unfold EchoCounts.winner
  split
  · simp; omega
  · split
    · simp; omega
    · split
      · next h => simp [h]
      · next h => simp [h]

/-- Whether a class is held by more pulses than every other. -/
def mostPulses (number : EchoClass → Nat) (c : EchoClass) : Prop :=
  ∀ y ∈ [EchoClass.openCircuit, .short, .uncertain, .matched], y ≠ c → number y < number c

theorem winner_iff_most (pulses : List Pulse) :
    ∀ c ∈ [EchoClass.openCircuit, .short, .matched], (countsOf pulses).winner = c ↔ mostPulses (countClass pulses) c := by
  intro c hc
  simp only [List.mem_cons, List.not_mem_nil, or_false] at hc
  rcases hc with rfl | rfl | rfl
  · rw [EchoCounts.winner_openCircuit_iff]
    simp [mostPulses, countsOf]
  · rw [EchoCounts.winner_short_iff]
    simp [mostPulses, countsOf]
  · rw [EchoCounts.winner_matched_iff]
    simp [mostPulses, countsOf]

theorem EchoCounts.winner_cases (c : EchoCounts) :
    c.winner = .openCircuit ∨ c.winner = .short ∨ c.winner = .matched ∨ c.winner = .uncertain := by
  unfold EchoCounts.winner
  split
  · exact .inl rfl
  · split
    · exact .inr (.inl rfl)
    · split
      · exact .inr (.inr (.inl rfl))
      · exact .inr (.inr (.inr rfl))

theorem winner_of_no_most {pulses : List Pulse}
    (h : ∀ c ∈ [EchoClass.openCircuit, .short, .matched], ¬ mostPulses (countClass pulses) c) :
    (countsOf pulses).winner = .uncertain := by
  have hnot : ∀ c ∈ [EchoClass.openCircuit, .short, .matched], (countsOf pulses).winner ≠ c := fun c hc hw =>
    h c hc ((winner_iff_most pulses c hc).mp hw)
  rcases (countsOf pulses).winner_cases with hw | hw | hw | hw
  · exact absurd hw (hnot _ (by decide))
  · exact absurd hw (hnot _ (by decide))
  · exact absurd hw (hnot _ (by decide))
  · exact hw

/-- The distance of a result, by its class (R42). -/
theorem distanceOf_eq {cable : Fin 3} {cls : EchoClass} {average factor : Nat} :
    (cls = .openCircuit → factor = match cable with | 0 => 486 | 1 => 492 | 2 => 480) →
    (cls = .short → factor = match cable with | 0 => 500 | 1 => 505 | 2 => 494) →
    distanceOf cable cls average = if cls = .openCircuit ∨ cls = .short then
      (if 10000 < average * factor / 100 then .far else .decimetres (average * factor / 100)) else .missing := by
  intro hopen hshort
  have hfactor : distanceFactor cable cls = if cls = .openCircuit ∨ cls = .short then some factor else none := by
    cases cls with
    | openCircuit => rw [hopen rfl]; fin_cases cable <;> rfl
    | short => rw [hshort rfl]; fin_cases cable <;> rfl
    | uncertain => rfl
    | matched => rfl
    | aborted => rfl
  unfold distanceOf
  rw [hfactor]
  by_cases h : cls = .openCircuit ∨ cls = .short
  · rw [if_pos h, if_pos h]
  · rw [if_neg h, if_neg h]

theorem State.echoEnd_eq {s : State} {g : SegId} {cable : Fin 3} {pulses : List Pulse}
    (hecho : (s.seg g).echo = .running cable pulses) (hlen : pulses.length = 16) : s.echoEnd g =
      (s.modSeg g fun sg => ({ sg with lastEcho := some (echoResult cable pulses) } : Segment).resume).raiseEchoDone g := by
  unfold State.echoEnd
  rw [hecho]
  exact if_pos hlen

/-- Settles O57: the request with its checks, the start on the free line, the pulses and the result. -/
theorem echoTestRuns : Obligations.EchoTestRuns := by
  unfold Obligations.EchoTestRuns
  intro s g cable hp started
  refine ⟨fun q tag hholder hdue => ?_, fun q tag args hholder hdue hbad => ?_, fun hecho => ?_, fun pulses hecho => ?_⟩
  · intro barred
    have howner := ownerEcho_eq (g := g) (cable := cable) hholder
    refine ⟨fun hbarred => ?_, fun hfree hstands => ?_, fun hfree hquiet => ?_⟩
    · rw [if_pos hbarred] at howner
      exact State.onlyAnswers_of_owner rfl hdue howner
    · rw [if_neg hfree, if_pos hstands] at howner
      exact State.onlyAnswers_of_owner rfl hdue howner
    · rw [if_neg hfree, if_neg fun ⟨z, hz⟩ => hz (hquiet z), State.acceptEcho_eq hp] at howner
      refine State.executes_of_owner rfl hdue howner rfl ⟨fun hflight howed => ?_, fun hbusy => ?_⟩
      · have htry : ((s.seg g).waitingEcho cable).tryEcho = (s.seg g).startEcho cable :=
          Segment.tryEcho_of_free (sg := (s.seg g).waitingEcho cable) rfl hflight howed
        rw [htry]
        rfl
      · have htry : ((s.seg g).waitingEcho cable).tryEcho = (s.seg g).waitingEcho cable :=
          Segment.tryEcho_of_busy (sg := (s.seg g).waitingEcho cable) rfl hbusy
        rw [htry]
        rfl
  · have howner : ownerEcho q s args = (s, .plain .badArg) := by
      have hnone : echoArgs args = none := eq_none_of_forall fun ⟨z, c⟩ h => hbad ⟨z, c, echoArgs_some h⟩
      unfold ownerEcho
      rw [if_neg (not_not_intro hholder), hnone]
      rfl
    exact State.onlyAnswers_of_owner rfl hdue howner
  · constructor
    · intro hflight howed
      refine congrArg Host.Outcome.next ((State.echoRunning_running hp g).trans ?_)
      rw [State.modSeg_eq, Segment.tryEcho_of_free hecho hflight howed]
      rfl
    · intro hbusy
      exact congrArg Host.Outcome.next
        ((State.echoRunning_running hp g).trans (State.modSeg_self (Segment.tryEcho_of_busy hecho hbusy)))
  · refine ⟨fun r c hlen habove hbetween hbelow => ?_, fun hlen => ?_⟩
    · have hrecord := Segment.recordPulse_eq hecho hlen r
      rw [pulseClass_eq habove hbetween hbelow] at hrecord
      exact congrArg Host.Outcome.next ((State.modSeg_eq s g _).trans (by rw [hrecord]))
    · intro number most average
      have hend := State.echoEnd_eq hecho hlen
      rw [State.modSeg_eq, Segment.resume_whole] at hend
      refine ⟨_, echoResult cable pulses, congrArg Host.Outcome.next hend, ?_, rfl, winner_iff_most pulses,
        winner_of_no_most, rfl, rfl, fun factor hopen hshort => distanceOf_eq hopen hshort, rfl, rfl, rfl, rfl⟩
      exact congrArg Segment.lastEcho (Table.get_set_self s.segs g _)

end Sys2Proof.Machine

/-! O9: the consistency tests of the retained image taken apart, and the image of a safe state. -/

namespace Sys2Proof.Machine

set_option Elab.async false

/-! ### The tests of R188, one equivalence each -/

theorem Roster.injective_iff {r : Roster} : r.injective = true ↔
    ∀ p x e e', r.entries.get p = some e → r.entries.get x = some e' → e'.seg = e.seg → e'.drop = e.drop → x = p := by
  unfold Roster.injective
  simp only [List.all_eq_true, List.mem_finRange, true_implies]
  constructor
  · intro h p x e e' hp hx hseg hdrop
    have hall := h p
    rw [hp] at hall
    simp only [List.all_eq_true, List.mem_finRange, true_implies, Bool.or_eq_true, decide_eq_true_eq, Bool.not_eq_true'] at hall
    refine (hall x).resolve_right fun hne => ?_
    exact Bool.eq_false_iff.mp hne (entryNames_iff.mpr ⟨e', hx, hseg, hdrop⟩)
  · intro h p
    cases hp : r.entries.get p with
    | none => rfl
    | some e =>
      simp only [List.all_eq_true, List.mem_finRange, true_implies, Bool.or_eq_true, decide_eq_true_eq, Bool.not_eq_true']
      intro x
      by_cases hx : entryNames e.seg e.drop (r.entries.get x) = true
      · obtain ⟨e', hx', hseg, hdrop⟩ := entryNames_iff.mp hx
        exact .inl (h p x e e' hp hx' hseg hdrop)
      · exact .inr (Bool.eq_false_iff.mpr hx)

theorem mem_carPositions {c : CarId} {p : Pos} : p ∈ carPositions c ↔ carOf p = c := by
  revert c p
  decide

theorem Roster.wholeCar_iff {r : Roster} {c : CarId} : r.wholeCar c = true ↔
    ∀ p x, carOf p = c → carOf x = c → (r.entries.get p).isSome = true →
      ((r.entries.get x).bind fun e => e.serial).isSome = true := by
  unfold Roster.wholeCar
  simp only [Bool.or_eq_true, List.all_eq_true, mem_carPositions]
  constructor
  · rintro (h | h) p x hp hx hsome
    · rw [Option.isNone_iff_eq_none.mp (h p hp)] at hsome
      cases hsome
    · exact h x hx
  · intro h
    by_cases hany : ∃ p, carOf p = c ∧ (r.entries.get p).isSome = true
    · obtain ⟨p, hp, hsome⟩ := hany
      exact .inr fun x hx => h p x hp hx hsome
    · refine .inl fun p hp => ?_
      cases hp' : r.entries.get p with
      | none => rfl
      | some e => exact absurd ⟨p, hp, by rw [hp']; rfl⟩ hany

theorem Roster.confirmedWell_iff {r : Roster} : r.confirmedWell = true ↔ (r.confirmed = true →
    (∃ p, (r.entries.get p).isSome = true) ∧ ∀ c, r.wholeCar c = true) := by
  unfold Roster.confirmedWell
  cases r.confirmed with
  | false => simp
  | true =>
    simp only [Bool.not_true, Bool.false_or, Bool.and_eq_true, List.any_eq_true, Table.mem_rows, List.all_eq_true,
      List.mem_finRange, true_implies]
    refine and_congr_left fun _ => ⟨?_, ?_⟩
    · rintro ⟨e, ⟨p, rfl⟩, h⟩
      exact ⟨p, h⟩
    · rintro ⟨p, h⟩
      exact ⟨_, ⟨p, rfl⟩, h⟩

theorem limitsWell_iff {l : Table Nat 17} : limitsWell l = true ↔
    (∀ i, (limitRanges.get i).1 ≤ l.get i ∧ l.get i ≤ (limitRanges.get i).2) ∧ l.get 1 ≤ l.get 0 ∧ l.get 0 < l.get 2 := by
  unfold limitsWell
  simp only [Bool.and_eq_true, List.all_eq_true, List.mem_finRange, true_implies, decide_eq_true_eq, limitsOrdered_iff]

theorem Leg.inRange_iff {l : Leg} :
    l.inRange = true ↔ l.target ≤ 40000 ∧ 10 ≤ l.speed ∧ l.speed ≤ 400 ∧ l.dwell ≤ 600 := by
  simp [Leg.inRange, and_assoc]

theorem Plan.well_iff {p : Plan} :
    p.well = true ↔ p.count ≤ 16 ∧ p.index ≤ p.count ∧ ∀ i, (p.legs.get i).inRange = true := by
  unfold Plan.well
  simp only [Bool.and_eq_true, decide_eq_true_eq, List.all_eq_true, Table.mem_rows, forall_exists_index, forall_apply_eq_imp_iff,
    and_assoc]

theorem Image.goodPosition_iff {m : Image} {p : Pos} : m.goodPosition p = true ↔
    (∀ k, m.contacts.get p = some k → k ≤ 40000) ∧ (-400 ≤ m.offsets.get p ∧ m.offsets.get p ≤ 400) ∧
      (m.roster.entries.get p = none → m.contacts.get p = none ∧ m.offsets.get p = 0) := by
  unfold Image.goodPosition
  simp only [Bool.and_eq_true, Bool.or_eq_true, decide_eq_true_eq, and_assoc]
  refine and_congr ?_ (and_congr_right fun _ => and_congr_right fun _ => ?_)
  · cases m.contacts.get p <;> simp
  · cases m.roster.entries.get p <;> simp

theorem Image.landedAtRest_iff {m : Image} :
    m.landedAtRest = true ↔ ∀ p, m.contacts.get p = none ∧ m.offsets.get p = 0 := by
  simp [Image.landedAtRest]

/-- The tests of R188 together. -/
theorem Image.consistent_iff {m : Image} : m.consistent = true ↔
    m.phase ≠ .stopped ∧ m.roster.injective = true ∧ m.roster.confirmedWell = true ∧ limitsWell m.limits = true ∧
      m.plan.well = true ∧ (∀ p, m.goodPosition p = true) ∧ (m.phase = .idle → m.landedAtRest = true) := by
  unfold Image.consistent
  simp only [Bool.and_eq_true, Bool.or_eq_true, decide_eq_true_eq, List.all_eq_true, List.mem_finRange, true_implies, and_assoc]
  refine and_congr_right fun _ => and_congr_right fun _ => and_congr_right fun _ => and_congr_right fun _ =>
    and_congr_right fun _ => and_congr_right fun _ => ?_
  exact ⟨fun h hi => h.resolve_left (not_not_intro hi), fun h => or_iff_not_imp_left.mpr fun hi => h (not_not.mp hi)⟩

/-! ### The image of a state (R191) -/

theorem State.image_contacts_get (s : State) (p : Pos) :
    s.image.contacts.get p = if s.phase = .approach then none else (s.col p).contact := by
  unfold State.image State.imageContacts
  split
  · exact Table.get_fill none p
  · exact Table.get_map _ s.cols p

theorem State.image_offsets_get (s : State) (p : Pos) : s.image.offsets.get p = (s.col p).offset :=
  Table.get_map _ s.cols p

theorem State.imagePhase_stopped {s : State} {r : StopRecord} (hphase : s.phase = .stopped) (hr : s.stop.record = some r) :
    s.imagePhase = r.phase := by
  unfold State.imagePhase
  rw [hphase, hr]

theorem State.imagePhase_of_ne {s : State} (hphase : s.phase ≠ .stopped) : s.imagePhase = s.phase := by
  unfold State.imagePhase
  split
  · next h _ => exact absurd h hphase
  · rfl

/-- The stop record of a safe state's STOPPED, with a phase at stop that is not STOPPED (R145, R150). -/
theorem State.imagePhase_ne_stopped {s : State} (h : s.stopsSafe) : s.imagePhase ≠ .stopped := by
  obtain ⟨⟨hrecord, -, -⟩, hwell⟩ := h
  by_cases hphase : s.phase = .stopped
  · obtain ⟨r, hr⟩ := Option.isSome_iff_exists.mp (hrecord.mpr hphase)
    rw [State.imagePhase_stopped hphase hr]
    exact (hwell r hr).2
  · rwa [State.imagePhase_of_ne hphase]

theorem State.goodPosition_image {s : State} (hcols : s.columnsWell) (p : Pos) : s.image.goodPosition p = true := by
  obtain ⟨⟨-, -, hcontact, hlow, hhigh⟩, hrest, -⟩ := hcols p
  rw [Image.goodPosition_iff, State.image_contacts_get, State.image_offsets_get]
  refine ⟨fun k hk => ?_, ⟨hlow, hhigh⟩, fun hnone => ?_⟩
  · split at hk
    · cases hk
    · exact hcontact k hk
  · obtain ⟨hnocontact, hzero⟩ := hrest (Bool.eq_false_iff.mpr fun hv => by
      rw [State.validPos, State.entry, show s.roster.entries.get p = none from hnone] at hv
      cases hv)
    exact ⟨by rw [hnocontact, ite_self], hzero⟩

theorem State.landedAtRest_image {s : State} (hcols : s.columnsWell) (hidle : s.imagePhase = .idle) :
    s.image.landedAtRest = true := by
  rw [Image.landedAtRest_iff]
  intro p
  obtain ⟨-, -, hrest⟩ := hcols p
  obtain ⟨hnocontact, hzero⟩ := hrest hidle
  rw [State.image_contacts_get, State.image_offsets_get]
  exact ⟨by rw [hnocontact, ite_self], hzero⟩

theorem State.image_consistent {s : State} (h : s.safe) : s.image.consistent = true := by
  obtain ⟨-, hstops, -, ⟨⟨hplan, -⟩, hlimits, -⟩, -, ⟨hinj, hconf⟩, -, -, -, -, hcols⟩ := h
  exact Image.consistent_iff.mpr ⟨State.imagePhase_ne_stopped hstops, hinj, hconf, hlimits, hplan, State.goodPosition_image hcols,
    State.landedAtRest_image hcols⟩

/-- Settles O9: the image of a safe state passes the tests, and what its phase and its contact heights are. -/
theorem safeStateWritesConsistentImage : Obligations.SafeStateWritesConsistentImage := by
  unfold Obligations.SafeStateWritesConsistentImage
  intro s h
  refine ⟨State.image_consistent h, State.imagePhase_ne_stopped h.2.1, fun r => State.imagePhase_stopped,
    State.imagePhase_of_ne, fun hphase p => ?_, fun hphase p => ?_⟩
  · rw [State.image_contacts_get, if_pos hphase]
  · rw [State.image_contacts_get, if_neg hphase]

end Sys2Proof.Machine

/-! O7: what a reading decides on the bytes. -/

namespace Sys2Proof.Machine

set_option Elab.async false

/-! ### The status of a reading (R188) -/

theorem phaseOfCode_code (ph : Phase) : phaseOfCode ph.code = some ph := by
  cases ph <;> rfl

theorem phaseOfCode_eq_some {n : Nat} {ph : Phase} (h : phaseOfCode n = some ph) : n = ph.code := by
  unfold phaseOfCode at h
  split at h
  all_goals cases h
  all_goals rfl

/-- The codes 0 to 8 are those of the phases but STOPPED. -/
theorem code_le_eight_iff {ph : Phase} : ph.code ≤ 8 ↔ ph ≠ .stopped := by
  cases ph <;> decide

theorem code_eq_zero_iff {ph : Phase} : ph.code = 0 ↔ ph = .idle := by
  cases ph <;> decide

theorem exists_phase_of_code {n : Nat} (h : n ≤ 8) : ∃ ph : Phase, ph.code = n ∧ ph ≠ .stopped := by
  interval_cases n
  exacts [⟨.idle, rfl, nofun⟩, ⟨.approach, rfl, nofun⟩, ⟨.aligned, rfl, nofun⟩, ⟨.lifting, rfl, nofun⟩, ⟨.lowering, rfl, nofun⟩,
    ⟨.dwell, rfl, nofun⟩, ⟨.holding, rfl, nofun⟩, ⟨.landed, rfl, nofun⟩, ⟨.retracting, rfl, nofun⟩]

theorem decodeImage_of_phase {b : List Byte} {ph : Phase} (h : (byteAt b 582).toNat = ph.code) :
    decodeImage b = if goodLayout b && (imageAt b ph).consistent then some (imageAt b ph) else none := by
  unfold decodeImage
  rw [h, phaseOfCode_code]

/-- What a decoded area has passed. -/
theorem decodeImage_eq_some {b : List Byte} {m : Image} (h : decodeImage b = some m) :
    ∃ ph : Phase, (byteAt b 582).toNat = ph.code ∧ goodLayout b = true ∧ (imageAt b ph).consistent = true := by
  unfold decodeImage at h
  split at h
  · cases h
  · next ph hph =>
    split at h
    · next hgood =>
      obtain ⟨hlayout, hcons⟩ := Bool.and_eq_true_iff.mp hgood
      exact ⟨ph, phaseOfCode_eq_some hph, hlayout, hcons⟩
    · cases h

theorem readImage_of_bad_crc {b : List Byte} (hfull : ∃ x ∈ b, x ≠ 0xFF) (hcrc : crcBytes (b.take 583) ≠ b.drop 583) :
    readImage (.answered b) = (.corrupt, none) := by
  have hsome : ¬ (b.all fun x => decide (x = 0xFF)) = true := by simpa [List.all_eq_true] using hfull
  unfold readImage
  dsimp only
  rw [if_neg hsome, if_pos (.inr hcrc)]

theorem readImage_of_undecoded {b : List Byte} (hfull : ∃ x ∈ b, x ≠ 0xFF) (hdecode : decodeImage b = none) :
    readImage (.answered b) = (.corrupt, none) := by
  have hsome : ¬ (b.all fun x => decide (x = 0xFF)) = true := by simpa [List.all_eq_true] using hfull
  unfold readImage
  dsimp only
  rw [if_neg hsome, hdecode]
  exact ite_self _

theorem readImage_of_decoded {b : List Byte} {m : Image} (hlen : b.length = 585) (hfull : ∃ x ∈ b, x ≠ 0xFF)
    (hcrc : crcBytes (b.take 583) = b.drop 583) (hdecode : decodeImage b = some m) :
    readImage (.answered b) = (.valid, some m) := by
  have hsome : ¬ (b.all fun x => decide (x = 0xFF)) = true := by simpa [List.all_eq_true] using hfull
  have hwhole : ¬ (b.length ≠ Config.imageSize ∨ crcBytes (b.take 583) ≠ b.drop 583) := by
    rintro (h | h)
    · exact h hlen
    · exact h hcrc
  unfold readImage
  dsimp only
  rw [if_neg hsome, if_neg hwhole, hdecode]

theorem readImage_empty {b : List Byte} (h : ∀ x ∈ b, x = 0xFF) : readImage (.answered b) = (.empty, none) := by
  have hall : (b.all fun x => decide (x = 0xFF)) = true := by simpa [List.all_eq_true] using h
  unfold readImage
  dsimp only
  simp only [hall, if_true]

/-- A reading of a whole area is VALID exactly when the CRC, the phase, the layout and the contents pass (R188). -/
theorem readImage_valid_iff {b : List Byte} (hlen : b.length = 585) : (readImage (.answered b)).1 = .valid ↔
    crcBytes (b.take 583) = b.drop 583 ∧ ∃ ph : Phase, (byteAt b 582).toNat = ph.code ∧ goodLayout b = true ∧
      (imageAt b ph).consistent = true := by
  by_cases hfull : ∃ x ∈ b, x ≠ 0xFF
  · by_cases hcrc : crcBytes (b.take 583) = b.drop 583
    · refine Iff.trans ?_ (and_iff_right hcrc).symm
      constructor
      · intro hvalid
        cases hdecode : decodeImage b with
        | none =>
          rw [readImage_of_undecoded hfull hdecode] at hvalid
          cases hvalid
        | some m => exact decodeImage_eq_some hdecode
      · rintro ⟨ph, hph, hlayout, hcons⟩
        have hdecode := decodeImage_of_phase hph
        rw [hlayout, hcons] at hdecode
        rw [readImage_of_decoded hlen hfull hcrc hdecode]
    · rw [readImage_of_bad_crc hfull hcrc]
      exact ⟨nofun, fun h => absurd h.1 hcrc⟩
  · have hall : ∀ x ∈ b, x = 0xFF := by simpa using hfull
    rw [readImage_empty hall]
    refine ⟨nofun, fun ⟨_, ph, hph, _⟩ => ?_⟩
    have hbyte : byteAt b 582 = 0xFF := by
      unfold byteAt
      rw [List.getD_eq_getElem _ _ (by omega)]
      exact hall _ (List.getElem_mem _)
    rw [hbyte] at hph
    cases ph <;> exact absurd hph (by decide)

/-! ### The entries of a roster in their bytes (R199) -/

/-- The valid bit of an entry byte. -/
def validBit (b : List Byte) (p : Pos) : Bool :=
  (byteAt b (5 * p.val)).getLsbD 7

/-- The serial-present bit of an entry byte. -/
def serialBit (b : List Byte) (p : Pos) : Bool :=
  (byteAt b (5 * p.val)).getLsbD 6

theorem entryAt_isSome (b : List Byte) (p : Pos) : (entryAt b p).isSome = validBit b p := by
  unfold entryAt validBit
  cases (byteAt b (5 * p.val)).getLsbD 7 <;> rfl

theorem entryAt_serial_isSome (b : List Byte) (p : Pos) :
    ((entryAt b p).bind fun e => e.serial).isSome = (validBit b p && serialBit b p) := by
  unfold entryAt validBit serialBit
  cases (byteAt b (5 * p.val)).getLsbD 7 <;> cases (byteAt b (5 * p.val)).getLsbD 6 <;> rfl

theorem goodEntry_iff {b : List Byte} {p : Pos} : goodEntry b p = true ↔
    (validBit b p = true → 1 ≤ (byteAt b (5 * p.val)).toNat % 16 ∧ (byteAt b (5 * p.val)).toNat % 16 ≤ 12) ∧
      (validBit b p = false → serialBit b p = false) := by
  unfold goodEntry validBit serialBit
  cases (byteAt b (5 * p.val)).getLsbD 7 <;> simp

theorem goodLayout_iff {b : List Byte} : goodLayout b = true ↔
    (∀ p, goodEntry b p = true) ∧ (∀ k, 11 ≤ k → k ≤ 14 → (wordAt b 240).testBit k = false) ∧
      ∀ i : Fin 16, (byteAt b (282 + 7 * i.val)).toNat ≤ 1 := by
  unfold goodLayout
  simp only [Bool.and_eq_true, List.all_eq_true, List.mem_finRange, true_implies, decide_eq_true_eq, Bool.not_eq_true', and_assoc]
  refine and_congr_right fun _ => and_congr_left fun _ => ⟨fun h k hlow hhigh => h k ?_, fun h k hk => ?_⟩
  · have : k = 11 ∨ k = 12 ∨ k = 13 ∨ k = 14 := by omega
    simpa using this
  · have : k = 11 ∨ k = 12 ∨ k = 13 ∨ k = 14 := by simpa using hk
    exact h k (by omega) (by omega)

/-- Two valid entries name one drop exactly when the low six bits of their bytes agree. -/
theorem sameDrop_iff {m n : Nat} (hm : 1 ≤ m % 16 ∧ m % 16 ≤ 12) (hn : 1 ≤ n % 16 ∧ n % 16 ≤ 12) :
    (Fin.ofNat 4 (n / 16) = Fin.ofNat 4 (m / 16) ∧ Fin.ofNat 12 (n % 16 - 1) = Fin.ofNat 12 (m % 16 - 1)) ↔ m % 64 = n % 64 := by
  simp only [Fin.ext_iff, Fin.ofNat]
  omega

theorem entryAt_eq_some {b : List Byte} {p : Pos} {e : RosterEntry} (h : entryAt b p = some e) : validBit b p = true ∧
    e.seg = Fin.ofNat 4 ((byteAt b (5 * p.val)).toNat / 16) ∧ e.drop = Fin.ofNat 12 ((byteAt b (5 * p.val)).toNat % 16 - 1) := by
  unfold entryAt at h
  split at h
  · next hv =>
    cases h
    exact ⟨hv, rfl, rfl⟩
  · cases h

theorem entryAt_of_valid {b : List Byte} {p : Pos} (h : validBit b p = true) : ∃ e, entryAt b p = some e :=
  Option.isSome_iff_exists.mp ((entryAt_isSome b p).trans h)

theorem rosterAt_injective_iff {b : List Byte} (hgood : ∀ p, goodEntry b p = true) : (rosterAt b).injective = true ↔
    ∀ p x : Pos, p ≠ x → validBit b p = true → validBit b x = true →
      (byteAt b (5 * p.val)).toNat % 64 ≠ (byteAt b (5 * x.val)).toNat % 64 := by
  have hrange := fun p hv => (goodEntry_iff.mp (hgood p)).1 hv
  simp only [Roster.injective_iff, rosterAt, Table.get_build]
  constructor
  · intro h p x hne hp hx hsame
    obtain ⟨e, he⟩ := entryAt_of_valid hp
    obtain ⟨e', he'⟩ := entryAt_of_valid hx
    obtain ⟨-, hseg, hdrop⟩ := entryAt_eq_some he
    obtain ⟨-, hseg', hdrop'⟩ := entryAt_eq_some he'
    obtain ⟨h1, h2⟩ := (sameDrop_iff (hrange p hp) (hrange x hx)).mpr hsame
    exact hne (h p x e e' he he' (by rw [hseg, hseg', h1]) (by rw [hdrop, hdrop', h2])).symm
  · intro h p x e e' he he' hseg hdrop
    obtain ⟨hp, hseg1, hdrop1⟩ := entryAt_eq_some he
    obtain ⟨hx, hseg2, hdrop2⟩ := entryAt_eq_some he'
    by_contra hne
    refine h p x (Ne.symm hne) hp hx ((sameDrop_iff (hrange p hp) (hrange x hx)).mp ⟨?_, ?_⟩)
    · rw [← hseg1, ← hseg2, hseg]
    · rw [← hdrop1, ← hdrop2, hdrop]

theorem rosterAt_confirmedWell_iff {b : List Byte} : (rosterAt b).confirmedWell = true ↔
    ((wordAt b 240).testBit 15 = true → (∃ p, validBit b p = true) ∧
      ∀ p x, carOf p = carOf x → validBit b p = true → validBit b x = true ∧ serialBit b x = true) := by
  simp only [Roster.confirmedWell_iff, Roster.wholeCar_iff, rosterAt, Table.get_build, entryAt_isSome, entryAt_serial_isSome,
    Bool.and_eq_true]
  refine imp_congr_right fun _ => and_congr_right fun _ => ⟨fun h p x hcar => h (carOf p) p x rfl hcar.symm, ?_⟩
  rintro h c p x rfl hx
  exact h p x hx.symm

/-! ### The contact heights, the offsets and the plan in their bytes (R199) -/

theorem contactAt_le_iff {b : List Byte} {p : Pos} : (∀ k, contactAt b p = some k → k ≤ 40000) ↔
    wordAt b (390 + 2 * p.val) ≤ 40000 ∨ wordAt b (390 + 2 * p.val) = 65535 := by
  unfold contactAt
  split
  · next h => simp [h]
  · next h => simp [h]

theorem contactAt_eq_none {b : List Byte} {p : Pos} : contactAt b p = none ↔ wordAt b (390 + 2 * p.val) = 65535 := by
  unfold contactAt
  split
  · next h => simp [h]
  · next h => simp [h]

theorem word16_lt (a b : Byte) : word16 a b < 65536 := by
  have ha := a.isLt
  have hb := b.isLt
  unfold word16
  omega

theorem int16_eq_zero {a b : Byte} : int16 a b = 0 ↔ word16 a b = 0 := by
  have h := word16_lt a b
  unfold int16
  split <;> omega

theorem offsetAt_eq_zero {b : List Byte} {p : Pos} : offsetAt b p = 0 ↔ wordAt b (486 + 2 * p.val) = 0 := by
  unfold offsetAt wordAt
  rw [int16_eq_zero, show 487 + 2 * p.val = 486 + 2 * p.val + 1 by omega]

/-- The positions of an image that bytes hold: the values in range, and nothing where the position or the phase allows nothing. -/
theorem imageAt_positions_iff {b : List Byte} {ph : Phase} (hph : (byteAt b 582).toNat = ph.code) :
    ((∀ p, (imageAt b ph).goodPosition p = true) ∧ (ph = .idle → (imageAt b ph).landedAtRest = true)) ↔
      (∀ p : Pos, wordAt b (390 + 2 * p.val) ≤ 40000 ∨ wordAt b (390 + 2 * p.val) = 65535) ∧
      (∀ p : Pos, -400 ≤ offsetAt b p ∧ offsetAt b p ≤ 400) ∧
      ∀ p : Pos, validBit b p = false ∨ byteAt b 582 = 0 →
        wordAt b (390 + 2 * p.val) = 65535 ∧ wordAt b (486 + 2 * p.val) = 0 := by
  have hidle : ph = .idle ↔ byteAt b 582 = 0 := by
    rw [← code_eq_zero_iff, ← hph]
    exact ⟨fun h => BitVec.eq_of_toNat_eq h, fun h => by rw [h]; rfl⟩
  have hnone : ∀ p, entryAt b p = none ↔ validBit b p = false := fun p => by
    rw [← entryAt_isSome, Option.isSome_eq_false_iff, Option.isNone_iff_eq_none]
  have hcontacts : ∀ p, (imageAt b ph).contacts.get p = contactAt b p := Table.get_build _
  have hoffsets : ∀ p, (imageAt b ph).offsets.get p = offsetAt b p := Table.get_build _
  have hentries : ∀ p, (imageAt b ph).roster.entries.get p = entryAt b p := Table.get_build _
  simp only [Image.goodPosition_iff, Image.landedAtRest_iff, hcontacts, hoffsets, hentries, hnone, contactAt_le_iff,
    contactAt_eq_none, offsetAt_eq_zero, hidle]
  constructor
  · rintro ⟨hgood, hrest⟩
    refine ⟨fun p => (hgood p).1, fun p => ?_, fun p h => ?_⟩
    · obtain ⟨-, hrange, -⟩ := hgood p
      exact hrange
    · obtain ⟨-, -, hinvalid⟩ := hgood p
      exact h.elim hinvalid fun hz => hrest hz p
  · rintro ⟨hcontact, hoffset, hrest⟩
    exact ⟨fun p => ⟨hcontact p, hoffset p, fun h => hrest p (.inl h)⟩, fun hz p => hrest p (.inr hz)⟩

theorem legAt_inRange_iff {b : List Byte} {i : Fin 16} : (legAt b i).inRange = true ↔
    wordAt b (276 + 7 * i.val) ≤ 40000 ∧ 10 ≤ wordAt b (278 + 7 * i.val) ∧ wordAt b (278 + 7 * i.val) ≤ 400 ∧
      wordAt b (280 + 7 * i.val) ≤ 600 :=
  Leg.inRange_iff

theorem imageAt_limitsWell_iff {b : List Byte} {ph : Phase} : limitsWell (imageAt b ph).limits = true ↔
    (∀ i : Fin 17, (limitRanges.get i).1 ≤ wordAt b (242 + 2 * i.val) ∧
      wordAt b (242 + 2 * i.val) ≤ (limitRanges.get i).2) ∧ wordAt b 244 ≤ wordAt b 242 ∧ wordAt b 242 < wordAt b 246 := by
  have hget : ∀ i, (imageAt b ph).limits.get i = wordAt b (242 + 2 * i.val) := Table.get_build _
  simp only [limitsWell_iff, hget]
  exact Iff.rfl

theorem imageAt_planWell_iff {b : List Byte} {ph : Phase} : (imageAt b ph).plan.well = true ↔
    (byteAt b 388).toNat ≤ 16 ∧ (byteAt b 389).toNat ≤ (byteAt b 388).toNat ∧ ∀ i, (legAt b i).inRange = true := by
  have hget : ∀ i, (imageAt b ph).plan.legs.get i = legAt b i := Table.get_build _
  simp only [Plan.well_iff, hget]
  exact Iff.rfl

/-- The layout and the consistency of the contents, on the bytes (R188, R199). -/
theorem decodes_iff {b : List Byte} {ph : Phase} (hph : (byteAt b 582).toNat = ph.code) :
    (goodLayout b = true ∧ (imageAt b ph).consistent = true) ↔
      (byteAt b 582).toNat ≤ 8 ∧
      (∀ p, validBit b p = true → 1 ≤ (byteAt b (5 * p.val)).toNat % 16 ∧ (byteAt b (5 * p.val)).toNat % 16 ≤ 12) ∧
      (∀ p, validBit b p = false → serialBit b p = false) ∧
      (∀ p x : Pos, p ≠ x → validBit b p = true → validBit b x = true →
        (byteAt b (5 * p.val)).toNat % 64 ≠ (byteAt b (5 * x.val)).toNat % 64) ∧
      (∀ k, 11 ≤ k → k ≤ 14 → (wordAt b 240).testBit k = false) ∧
      ((wordAt b 240).testBit 15 = true → (∃ p, validBit b p = true) ∧
        ∀ p x, carOf p = carOf x → validBit b p = true → validBit b x = true ∧ serialBit b x = true) ∧
      ((∀ i : Fin 17, (limitRanges.get i).1 ≤ wordAt b (242 + 2 * i.val) ∧
        wordAt b (242 + 2 * i.val) ≤ (limitRanges.get i).2) ∧ wordAt b 244 ≤ wordAt b 242 ∧ wordAt b 242 < wordAt b 246) ∧
      ((byteAt b 388).toNat ≤ 16 ∧ (byteAt b 389).toNat ≤ (byteAt b 388).toNat) ∧
      (∀ i : Fin 16, (legAt b i).inRange = true ∧ (byteAt b (282 + 7 * i.val)).toNat ≤ 1) ∧
      (∀ p : Pos, wordAt b (390 + 2 * p.val) ≤ 40000 ∨ wordAt b (390 + 2 * p.val) = 65535) ∧
      (∀ p : Pos, -400 ≤ offsetAt b p ∧ offsetAt b p ≤ 400) ∧
      ∀ p : Pos, validBit b p = false ∨ byteAt b 582 = 0 →
        wordAt b (390 + 2 * p.val) = 65535 ∧ wordAt b (486 + 2 * p.val) = 0 := by
  rw [goodLayout_iff, Image.consistent_iff, imageAt_limitsWell_iff, imageAt_planWell_iff, hph, code_le_eight_iff]
  constructor
  · rintro ⟨⟨hentries, hflags, hcont⟩, hstop, hinj, hconf, hlimits, ⟨hn, hi, hlegs⟩, hpos⟩
    exact ⟨hstop, fun p => (goodEntry_iff.mp (hentries p)).1, fun p => (goodEntry_iff.mp (hentries p)).2,
      (rosterAt_injective_iff hentries).mp hinj, hflags, rosterAt_confirmedWell_iff.mp hconf, hlimits, ⟨hn, hi⟩,
      fun i => ⟨hlegs i, hcont i⟩, (imageAt_positions_iff hph).mp hpos⟩
  · rintro ⟨hstop, hvalid, hserial, hinj, hflags, hconf, hlimits, ⟨hn, hi⟩, hlegs, hpos⟩
    have hentries : ∀ p, goodEntry b p = true := fun p => goodEntry_iff.mpr ⟨hvalid p, hserial p⟩
    exact ⟨⟨hentries, hflags, fun i => (hlegs i).2⟩, hstop, (rosterAt_injective_iff hentries).mpr hinj,
      rosterAt_confirmedWell_iff.mpr hconf, hlimits, ⟨hn, hi, fun i => (hlegs i).1⟩, (imageAt_positions_iff hph).mpr hpos⟩

/-- Settles O7: each test of the reading on the bytes themselves. -/
theorem readingDecidesStatus : Obligations.ReadingDecidesStatus := by
  unfold Obligations.ReadingDecidesStatus
  refine ⟨rfl, fun b hlen => ⟨fun hall => by rw [readImage_empty hall], fun hfull => ?_, ?_⟩⟩
  · by_cases hcrc : crcBytes (b.take 583) = b.drop 583
    · cases hdecode : decodeImage b with
      | none => exact .inr (by rw [readImage_of_undecoded hfull hdecode])
      | some m => exact .inl (by rw [readImage_of_decoded hlen hfull hcrc hdecode])
    · exact .inr (by rw [readImage_of_bad_crc hfull hcrc])
  · rw [readImage_valid_iff hlen]
    refine and_congr_right fun _ => ?_
    constructor
    · rintro ⟨ph, hph, hgood⟩
      obtain ⟨h8, hvalid, hserial, hinj, hflags, hconf, ⟨hlimits, hw1, hw2⟩, ⟨hn, hi⟩, hlegs, hcontact, hoffset, hrest⟩ :=
        (decodes_iff hph).mp hgood
      exact ⟨h8, hvalid, hserial, hinj, hflags, hconf, hlimits, hw1, hw2, hn, hi, fun i => by
        obtain ⟨hleg, hcont⟩ := hlegs i
        obtain ⟨h1, h2, h3, h4⟩ := legAt_inRange_iff.mp hleg
        exact ⟨h1, h2, h3, h4, hcont⟩, hcontact, hoffset, hrest⟩
    · rintro ⟨h8, hvalid, hserial, hinj, hflags, hconf, hlimits, hw1, hw2, hn, hi, hlegs, hcontact, hoffset, hrest⟩
      obtain ⟨ph, hph, -⟩ := exists_phase_of_code h8
      exact ⟨ph, hph.symm, (decodes_iff hph.symm).mpr ⟨h8, hvalid, hserial, hinj, hflags, hconf, ⟨hlimits, hw1, hw2⟩, ⟨hn, hi⟩,
        fun i => by
          obtain ⟨h1, h2, h3, h4, hcont⟩ := hlegs i
          exact ⟨legAt_inRange_iff.mpr ⟨h1, h2, h3, h4⟩, hcont⟩, hcontact, hoffset, hrest⟩⟩

end Sys2Proof.Machine

/-! O8: the round trip of an image through its 585 bytes. -/

namespace Sys2Proof.Machine

set_option Elab.async false

/-! ### Blocks in a list of bytes -/

/-- A list of bytes has a block at an offset. -/
def holdsAt (b : List Byte) (off : Nat) (block : List Byte) : Prop :=
  ∃ before after, b = before ++ (block ++ after) ∧ before.length = off

section
variable {b block x y : List Byte} {off : Nat}

theorem holdsAt_of_eq {off' : Nat} (h : holdsAt b off block) (e : off = off') : holdsAt b off' block :=
  e ▸ h

theorem holdsAt.byteAt (h : holdsAt b off block) {j : Nat} (hj : j < block.length) : byteAt b (off + j) = block.getD j 0 := by
  obtain ⟨before, after, rfl, rfl⟩ := h
  simp [Machine.byteAt, List.getD_eq_getElem?_getD, List.getElem?_append_right, List.getElem?_append_left hj]

theorem holdsAt.left (h : holdsAt b off (x ++ y)) : holdsAt b off x := by
  obtain ⟨before, after, rfl, hoff⟩ := h
  exact ⟨before, y ++ after, by rw [List.append_assoc], hoff⟩

theorem holdsAt.right (h : holdsAt b off (x ++ y)) : holdsAt b (off + x.length) y := by
  obtain ⟨before, after, rfl, hoff⟩ := h
  exact ⟨before ++ x, after, by simp, by rw [List.length_append, hoff]⟩

/-- A row of a table laid end to end in rows of one length. -/
theorem holdsAt.row {α : Type} {n k : Nat} {t : Table α n} {f : α → List Byte} (h : holdsAt b off (t.rows.map f).flatten)
    (hf : ∀ a, (f a).length = k) (i : Fin n) : holdsAt b (off + k * i.val) (f (t.get i)) := by
  have hi : i.val < t.rows.length := by rw [t.size]; exact i.isLt
  have hrows : t.rows = t.rows.take i.val ++ t.get i :: t.rows.drop (i.val + 1) := by
    conv_lhs => rw [← List.take_append_drop i.val t.rows, List.drop_eq_getElem_cons hi]
    rfl
  rw [hrows, List.map_append, List.map_cons, List.flatten_append, List.flatten_cons] at h
  have hlen : ((t.rows.take i.val).map f).flatten.length = k * i.val := by
    rw [flatten_map_length k f hf, List.length_take, min_eq_left hi.le]
  rw [← hlen]
  exact h.right.left

theorem holdsAt.wordAt {n : Nat} (h : holdsAt b off (be16 n)) (hn : n < 65536) : wordAt b off = n := by
  have h0 : Machine.byteAt b off = byteOf (n / 256) := h.byteAt (j := 0) Nat.two_pos
  have h1 : Machine.byteAt b (off + 1) = byteOf n := h.byteAt (j := 1) Nat.one_lt_two
  rw [Machine.wordAt, h0, h1, word16_byteOf hn]

theorem holdsAt.byte {v : Byte} (h : holdsAt b off [v]) : Machine.byteAt b off = v :=
  h.byteAt (j := 0) Nat.one_pos

end

/-! ### The length of the payload (R199) -/

@[simp] theorem entryBytes_length (e : Option RosterEntry) : (entryBytes e).length = 5 := by
  simp [entryBytes]

@[simp] theorem legBytes_length (l : Leg) : (legBytes l).length = 7 := by
  simp [legBytes]

theorem imagePayload_length (m : Image) : (imagePayload m).length = 583 := by
  simp only [imagePayload, List.length_append, flatten_map_length 5 entryBytes entryBytes_length,
    flatten_map_length 2 be16 be16_length, flatten_map_length 7 legBytes legBytes_length,
    flatten_map_length 2 opt16 opt16_length, flatten_map_length 2 signed16 signed16_length, Table.size, be16_length,
    List.length_cons, List.length_nil]

theorem imageBytes_length (m : Image) : (imageBytes m).length = 585 := by
  rw [imageBytes, withCrc, List.length_append, imagePayload_length]
  rfl

theorem imageBytes_take (m : Image) : (imageBytes m).take 583 = imagePayload m := by
  rw [imageBytes, withCrc, ← imagePayload_length m, List.take_left]

theorem imageBytes_drop (m : Image) : (imageBytes m).drop 583 = crcBytes (imagePayload m) := by
  conv_lhs => rw [imageBytes, withCrc, ← imagePayload_length m, List.drop_left]

/-! ### The places of the contents (R199) -/

/-- Where each part of an image stands in the bytes of a write. -/
structure imagePlaces (b : List Byte) (m : Image) : Prop where
  entries : ∀ p : Pos, holdsAt b (5 * p.val) (entryBytes (m.roster.entries.get p))
  flags : holdsAt b 240 (be16 (rosterFlags m.roster))
  limits : ∀ i : Fin 17, holdsAt b (242 + 2 * i.val) (be16 (m.limits.get i))
  legs : ∀ i : Fin 16, holdsAt b (276 + 7 * i.val) (legBytes (m.plan.legs.get i))
  counts : holdsAt b 388 [byteOf m.plan.count, byteOf m.plan.index]
  contacts : ∀ p : Pos, holdsAt b (390 + 2 * p.val) (opt16 (m.contacts.get p))
  offsets : ∀ p : Pos, holdsAt b (486 + 2 * p.val) (signed16 (m.offsets.get p))
  phase : holdsAt b 582 [byteOf m.phase.code]

theorem imageBytes_places (m : Image) : imagePlaces (imageBytes m) m := by
  have hwhole : holdsAt (imageBytes m) 0 (imagePayload m) := ⟨[], crcBytes (imagePayload m), rfl, rfl⟩
  have hentries := hwhole.left.left.left.left.left.left.left
  have hflags := hwhole.left.left.left.left.left.left.right
  have hlimits := hwhole.left.left.left.left.left.right
  have hlegs := hwhole.left.left.left.left.right
  have hcounts := hwhole.left.left.left.right
  have hcontacts := hwhole.left.left.right
  have hoffsets := hwhole.left.right
  have hphase := hwhole.right
  simp only [List.length_append, flatten_map_length 5 entryBytes entryBytes_length,
    flatten_map_length 2 be16 be16_length, flatten_map_length 7 legBytes legBytes_length,
    flatten_map_length 2 opt16 opt16_length, flatten_map_length 2 signed16 signed16_length, Table.size, be16_length,
    List.length_cons, List.length_nil] at hflags hlimits hlegs hcounts hcontacts hoffsets hphase
  exact
    { entries := fun p => holdsAt_of_eq (hentries.row entryBytes_length p) (Nat.zero_add _)
      flags := hflags
      limits := hlimits.row be16_length
      legs := hlegs.row legBytes_length
      counts := hcounts
      contacts := hcontacts.row opt16_length
      offsets := hoffsets.row signed16_length
      phase := hphase }

/-! ### The contents read back -/

theorem bitsOf_lt (l : List Bool) : bitsOf l < 2 ^ l.length := by
  induction l with
  | nil => exact Nat.one_pos
  | cons x l ih =>
    have hx : x.toNat < 2 := Bool.toNat_lt x
    rw [bitsOf, List.length_cons, Nat.pow_succ]
    omega

theorem linkBits_lt (r : Roster) : bitsOf r.links.rows < 2048 := by
  have h := bitsOf_lt r.links.rows
  rwa [r.links.size] at h

theorem rosterFlags_eq (r : Roster) : rosterFlags r = 2 ^ 15 * r.confirmed.toNat + bitsOf r.links.rows := by
  rw [rosterFlags]
  ring

theorem rosterFlags_testBit (r : Roster) {k : Nat} (hk : k < 15) :
    (rosterFlags r).testBit k = r.links.rows.getD k false := by
  rw [rosterFlags_eq, Nat.testBit_two_pow_mul_add _ (by have := linkBits_lt r; omega), if_pos hk, bitsOf_testBit]

theorem rosterFlags_testBit_confirmed (r : Roster) : (rosterFlags r).testBit 15 = r.confirmed := by
  rw [rosterFlags_eq, Nat.testBit_two_pow_mul_add _ (by have := linkBits_lt r; omega), if_neg (by decide)]
  cases r.confirmed <;> rfl

theorem entryByte_some_toNat (e : RosterEntry) :
    (entryByte (some e)).toNat = 128 + 64 * e.serial.isSome.toNat + 16 * e.seg.val + (e.drop.val + 1) := by
  have hs : e.serial.isSome.toNat < 2 := Bool.toNat_lt _
  have hg := e.seg.isLt
  have hd := e.drop.isLt
  exact byteOf_val (by omega)

theorem int16_signed16 {x : Int} (hlow : -32768 ≤ x) (hhigh : x ≤ 32767) :
    int16 (byteOf ((x % 65536).toNat / 256)) (byteOf (x % 65536).toNat) = x := by
  have hlt : (x % 65536).toNat < 65536 := by omega
  unfold int16
  rw [word16_byteOf hlt]
  split <;> omega

theorem word32_be32 (x : BitVec 32) :
    word32 (byteOf (x.toNat / 16777216)) (byteOf (x.toNat / 65536)) (byteOf (x.toNat / 256)) (byteOf x.toNat) = x := by
  have hx := x.isLt
  apply BitVec.eq_of_toNat_eq
  simp only [word32, byteOf, BitVec.toNat_ofNat]
  omega

theorem byteOf_bit (n : Nat) {i : Nat} (hi : i < 8) : (byteOf n).getLsbD i = decide (n / 2 ^ i % 2 = 1) := by
  rw [byteOf_getLsbD _ hi, Nat.testBit_eq_decide_div_mod_eq]

section
variable {b : List Byte} {m : Image}

theorem entryAt_of_places (h : imagePlaces b m) (p : Pos) : entryAt b p = m.roster.entries.get p := by
  have hplace := h.entries p
  generalize m.roster.entries.get p = entry at hplace ⊢
  have hbyte : byteAt b (5 * p.val) = entryByte entry := hplace.byteAt (j := 0) (by simp)
  unfold entryAt
  rw [hbyte]
  cases entry with
  | none => rfl
  | some e =>
    have hs : e.serial.isSome.toNat < 2 := Bool.toNat_lt _
    have hg := e.seg.isLt
    have hd := e.drop.isLt
    have hvalid : (entryByte (some e)).getLsbD 7 = true := by
      rw [entryByte, byteOf_bit _ (by decide), decide_eq_true_eq]
      omega
    have hpresent : (entryByte (some e)).getLsbD 6 = e.serial.isSome := by
      rw [entryByte, byteOf_bit _ (by decide)]
      cases e.serial.isSome with
      | false => exact decide_eq_false (by simp only [Bool.toNat_false]; omega)
      | true => exact decide_eq_true (by simp only [Bool.toNat_true]; omega)
    have hseg : Fin.ofNat 4 ((entryByte (some e)).toNat / 16) = e.seg := by
      rw [entryByte_some_toNat]
      exact Fin.ext (by simp only [Fin.ofNat]; omega)
    have hdrop : Fin.ofNat 12 ((entryByte (some e)).toNat % 16 - 1) = e.drop := by
      rw [entryByte_some_toNat]
      exact Fin.ext (by simp only [Fin.ofNat]; omega)
    rw [if_pos hvalid, hseg, hdrop, hpresent]
    obtain ⟨g, d, serial⟩ := e
    cases serial with
    | none => rfl
    | some x =>
      have hserial : serialAt b (5 * p.val + 1) = x := by
        have h1 : byteAt b (5 * p.val + 1) = byteOf (x.toNat / 16777216) := hplace.byteAt (j := 1) (by simp)
        have h2 : byteAt b (5 * p.val + 2) = byteOf (x.toNat / 65536) := hplace.byteAt (j := 2) (by simp)
        have h3 : byteAt b (5 * p.val + 3) = byteOf (x.toNat / 256) := hplace.byteAt (j := 3) (by simp)
        have h4 : byteAt b (5 * p.val + 4) = byteOf x.toNat := hplace.byteAt (j := 4) (by simp)
        rw [serialAt, h1, h2, h3, h4, word32_be32]
      simp [hserial]

theorem flags_of_places (h : imagePlaces b m) : wordAt b 240 = rosterFlags m.roster :=
  h.flags.wordAt (by
    have hl := linkBits_lt m.roster
    have hc : m.roster.confirmed.toNat < 2 := Bool.toNat_lt _
    rw [rosterFlags]
    omega)

theorem rosterAt_of_places (h : imagePlaces b m) : rosterAt b = m.roster := by
  have hentries : Table.build (entryAt b) = m.roster.entries := by
    ext p : 1
    rw [Table.get_build, entryAt_of_places h]
  have hlinks : (Table.build fun k : Fin 11 => (wordAt b 240).testBit k.val) = m.roster.links := by
    ext k : 1
    rw [Table.get_build, flags_of_places h, rosterFlags_testBit _ (by omega), Table.get]
    exact List.getD_eq_getElem _ _ _
  have hconfirmed : (wordAt b 240).testBit 15 = m.roster.confirmed := by
    rw [flags_of_places h, rosterFlags_testBit_confirmed]
  unfold rosterAt
  rw [hentries, hlinks, hconfirmed]

theorem goodEntry_of_places (h : imagePlaces b m) (p : Pos) : goodEntry b p = true := by
  have hvalid := entryAt_isSome b p
  have hbyte : byteAt b (5 * p.val) = entryByte (m.roster.entries.get p) := (h.entries p).byteAt (j := 0) (by simp)
  rw [entryAt_of_places h] at hvalid
  rw [goodEntry_iff, ← hvalid, serialBit, hbyte]
  cases m.roster.entries.get p with
  | none => exact ⟨nofun, fun _ => rfl⟩
  | some e =>
    refine ⟨fun _ => ?_, nofun⟩
    have hg := e.seg.isLt
    have hd := e.drop.isLt
    rw [entryByte_some_toNat]
    omega

theorem legAt_of_places (h : imagePlaces b m) {i : Fin 16} (hrange : (m.plan.legs.get i).inRange = true) :
    legAt b i = m.plan.legs.get i ∧ (byteAt b (282 + 7 * i.val)).toNat ≤ 1 := by
  have hplace := h.legs i
  generalize m.plan.legs.get i = leg at hplace hrange ⊢
  obtain ⟨htarget, -, hspeed, hdwell⟩ := Leg.inRange_iff.mp hrange
  have h1 : wordAt b (276 + 7 * i.val) = leg.target := hplace.left.left.left.wordAt (by omega)
  have h2 : wordAt b (278 + 7 * i.val) = leg.speed :=
    (holdsAt_of_eq hplace.left.left.right (by rw [be16_length]; omega)).wordAt (by omega)
  have h3 : wordAt b (280 + 7 * i.val) = leg.dwell :=
    (holdsAt_of_eq hplace.left.right (by rw [List.length_append, be16_length, be16_length]; omega)).wordAt (by omega)
  have h4 : byteAt b (282 + 7 * i.val) = byteOf leg.continues.toNat :=
    (holdsAt_of_eq hplace.right (by simp only [List.length_append, be16_length]; omega)).byte
  unfold legAt
  rw [h1, h2, h3, h4]
  obtain ⟨target, speed, dwell, continues⟩ := leg
  cases continues with
  | false => exact ⟨rfl, Nat.zero_le 1⟩
  | true => exact ⟨rfl, le_refl 1⟩

theorem contactAt_of_places (h : imagePlaces b m) {p : Pos} (hrange : ∀ k, m.contacts.get p = some k → k ≤ 40000) :
    contactAt b p = m.contacts.get p := by
  have hplace := h.contacts p
  generalize m.contacts.get p = contact at hplace hrange ⊢
  unfold contactAt
  cases contact with
  | none => exact if_pos (holdsAt.wordAt (n := 65535) hplace (by decide))
  | some k =>
    have hk := hrange k rfl
    have hword : wordAt b (390 + 2 * p.val) = k := holdsAt.wordAt hplace (by omega)
    rw [hword, if_neg (by omega)]

theorem offsetAt_of_places (h : imagePlaces b m) {p : Pos} (hrange : -400 ≤ m.offsets.get p ∧ m.offsets.get p ≤ 400) :
    offsetAt b p = m.offsets.get p := by
  have h0 := (h.offsets p).byteAt (j := 0) Nat.two_pos
  have h1 := (holdsAt_of_eq (h.offsets p) (off' := 486 + 2 * p.val) rfl).byteAt (j := 1) Nat.one_lt_two
  rw [offsetAt, show 487 + 2 * p.val = 486 + 2 * p.val + 1 by omega, h1]
  rw [Nat.add_zero] at h0
  rw [h0]
  exact int16_signed16 (by omega) (by omega)

theorem limitRanges_below (i : Fin 17) : (limitRanges.get i).2 < 65536 := by
  revert i
  decide

/-- The bytes of a consistent image hold that image, and pass the tests of the layout. -/
theorem decodeImage_of_places (h : imagePlaces b m) (hm : m.consistent = true) : decodeImage b = some m := by
  obtain ⟨-, -, -, hlimits, hplan, hpos, -⟩ := Image.consistent_iff.mp hm
  obtain ⟨hlimits, -⟩ := limitsWell_iff.mp hlimits
  obtain ⟨hcount, hindex, hlegs⟩ := Plan.well_iff.mp hplan
  have hphase : (byteAt b 582).toNat = m.phase.code := by
    rw [h.phase.byte]
    cases m.phase <;> rfl
  have hlayout : goodLayout b = true := goodLayout_iff.mpr ⟨goodEntry_of_places h, fun k hlow hhigh => by
    rw [flags_of_places h, rosterFlags_testBit _ (by omega)]
    exact List.getD_eq_default _ _ (by rw [m.roster.links.size]; exact hlow), fun i => (legAt_of_places h (hlegs i)).2⟩
  have himage : imageAt b m.phase = m := by
    obtain ⟨roster, limits, ⟨legs, count, index⟩, contacts, offsets, phase⟩ := m
    have h388 : byteAt b 388 = byteOf count := h.counts.byteAt (j := 0) Nat.two_pos
    have h389 : byteAt b 389 = byteOf index := h.counts.byteAt (j := 1) Nat.one_lt_two
    unfold imageAt
    congr 1
    · exact rosterAt_of_places h
    · ext i
      rw [Table.get_build]
      exact (h.limits i).wordAt ((hlimits i).2.trans_lt (limitRanges_below i))
    · congr 1
      · ext i : 1
        rw [Table.get_build]
        exact (legAt_of_places h (hlegs i)).1
      · rw [h388, byteOf_val (Nat.lt_of_le_of_lt hcount (by decide))]
      · rw [h389, byteOf_val (Nat.lt_of_le_of_lt (hindex.trans hcount) (by decide))]
    · ext p : 1
      rw [Table.get_build]
      exact contactAt_of_places h (Image.goodPosition_iff.mp (hpos p)).1
    · ext p : 1
      rw [Table.get_build]
      obtain ⟨-, hrange, -⟩ := Image.goodPosition_iff.mp (hpos p)
      exact offsetAt_of_places h hrange
  rw [decodeImage_of_phase hphase, hlayout, himage, hm]
  rfl

end

/-- Settles O8: the bytes of a consistent image are read back as it. -/
theorem imageRoundTrip : Obligations.ImageRoundTrip := by
  unfold Obligations.ImageRoundTrip
  intro m hm
  have hplaces := imageBytes_places m
  refine ⟨imageBytes_length m, readImage_of_decoded (imageBytes_length m) ⟨byteOf m.phase.code, ?_, ?_⟩ ?_
    (decodeImage_of_places hplaces hm)⟩
  · obtain ⟨before, after, hb, -⟩ := hplaces.phase
    rw [hb]
    simp
  · cases m.phase <;> decide
  · rw [imageBytes_take, imageBytes_drop]

end Sys2Proof.Machine

/-! O5, O6: the end of the reading, with the default image and with a VALID one. -/

namespace Sys2Proof.Machine

set_option Elab.async false

/-! ### Polling begins (R24, R190) -/

theorem Segment.startPolling_eq (sg : Segment) : sg.startPolling =
    { sg with
      mode := .fast
      pollTimer := .running Config.fastPeriod
      quietTimer := .running Config.quietEntryTime
      cycle := if sg.echo = .none then some .fresh else sg.cycle } := by
  unfold Segment.startPolling
  by_cases h : sg.echo = .none
  · simp only [h, if_true, Segment.beginCycle_fresh]
  · simp only [h, if_false]

/-- On a line as reset leaves it, the first exchange is a PROBE of drop 1 (R26). -/
theorem Segment.first_exchange {sg : Segment} (hcycle : sg.cycle = some .fresh) (hdisc : sg.discovery = 11)
    (habsent : ∀ d, (sg.drops.get d).link = .absent) : sg.nextExchange = some (0, .probe) := by
  refine Segment.nextExchange_probe hcycle (Segment.nextVisit_eq_none fun d h => h.2 (habsent d)) ?_
  have hprobe := Segment.nextProbe_eq_some (sg := sg) (done := []) (k := 0) ⟨habsent _, List.not_mem_nil⟩ nofun
  rw [hdisc] at hprobe
  exact hprobe

theorem Segment.tryEcho_of_none {sg : Segment} (h : sg.echo = .none) : sg.tryEcho = sg := by
  simp [Segment.tryEcho, h]

/-- A test that waits leaves an ABSENT drop as it is when it starts. -/
theorem Segment.tryEcho_drops (sg : Segment) (d : DropId) (h : (sg.drops.get d).link = .absent) :
    sg.tryEcho.drops.get d = sg.drops.get d := by
  unfold Segment.tryEcho Segment.startEcho
  split
  · split
    · simp [Drop.suspended, h]
    · rfl
  · rfl
  · rfl

/-! ### The end of the reading (R189) -/

/-- What the part has restored before the phase of the image is taken (R189). -/
def State.restored (s : State) (status : RetentionStatus) (m : Image) : State :=
  ({ s with power := .running, retention := { s.retention with status := status } } : State).restore m

/-- The end of a reading with an image in IDLE, whole (R189, R190). -/
def State.readIdle (s : State) (status : RetentionStatus) (m : Image) : State :=
  { s.restored status m with
    stop := { s.stop with stopOut := .closed }
    notices := s.noticesWith .retain
    segs := (s.segs.map Segment.tryEcho).map Segment.startPolling }

theorem State.endReading_idle {s : State} {status : RetentionStatus} {m : Image} (h : m.phase = .idle) :
    s.endReading status m = s.readIdle status m := by
  unfold State.endReading State.takePhase
  rw [h]
  rfl

theorem State.imageReadEnd_eq {s : State} (hp : s.power = .reading) (r : MemoryReading) :
    s.imageReadEnd r = s.endReading (readImage r).1 ((readImage r).2.getD .default) := by
  unfold State.imageReadEnd
  rw [hp]

theorem State.seg_readIdle (s : State) (status : RetentionStatus) (m : Image) (g : SegId) :
    (s.readIdle status m).seg g = (s.seg g).tryEcho.startPolling := by
  simp [State.readIdle, State.seg]

/-- The polling of a segment after a reading that finds IDLE, with a first cycle or a waiting test (R24, R190). -/
theorem Segment.polling_of_idle (sg : Segment) :
    let t := sg.tryEcho.startPolling
    t.mode = .fast ∧ t.pollTimer = .running 5 ∧ t.quietTimer = .running 2000 ∧
      (sg.echo = .none → t.cycle = some { reached := 0, exchanged := [], probed := false } ∧
        (sg.discovery = 11 → (∀ d, (sg.drops.get d).link = .absent) → t.nextExchange = some (0, .probe))) ∧
      (∀ c, sg.echo = .waiting c → sg.inFlight = none → sg.allstopOwed = false → t.echo = .running c [] ∧ t.cycle = none) ∧
      ∀ d, (sg.drops.get d).link = .absent → t.drops.get d = sg.drops.get d := by
  intro t
  have ht : t = _ := Segment.startPolling_eq sg.tryEcho
  refine ⟨by rw [ht], by rw [ht]; rfl, by rw [ht]; rfl, fun hecho => ?_, fun c hecho hflight howed => ?_, fun d hd => ?_⟩
  · have hcycle : t.cycle = some .fresh := by
      rw [ht, Segment.tryEcho_of_none hecho]
      exact if_pos hecho
    refine ⟨hcycle, fun hdisc habsent => ?_⟩
    rw [Segment.tryEcho_of_none hecho] at ht
    refine Segment.first_exchange hcycle ?_ ?_
    · rwa [ht]
    · rwa [ht]
  · rw [Segment.tryEcho_of_free hecho hflight howed] at ht
    rw [ht]
    exact ⟨rfl, rfl⟩
  · rw [ht]
    exact sg.tryEcho_drops d hd

/-- Settles O5: the default image, with IDLE taken. -/
theorem emptyReadingRestoresDefaults : Obligations.EmptyReadingRestoresDefaults := by
  unfold Obligations.EmptyReadingRestoresDefaults
  intro s r hp hnone
  have hend : s.imageReadEnd r = s.readIdle (readImage r).1 .default := by
    rw [State.imageReadEnd_eq hp, hnone]
    exact State.endReading_idle rfl
  refine ⟨_, congrArg Host.Outcome.next hend, rfl, rfl, fun p => ?_, fun k => ?_, rfl, rfl, rfl, rfl, fun i => ?_, fun p => ?_, rfl,
    rfl, fun g => ?_, rfl⟩
  · exact Table.get_fill none p
  · exact Table.get_fill false k
  · exact Table.get_fill _ i
  · exact (Table.get_build _ p).trans (by rw [Image.default, Table.get_fill, Table.get_fill]; rfl)
  · obtain ⟨hmode, hpoll, hquiet, hfirst, hecho, hdrops⟩ := (s.seg g).polling_of_idle
    rw [← State.seg_readIdle s (readImage r).1 .default] at hmode hpoll hquiet hfirst hecho hdrops
    exact ⟨hmode, hpoll, hquiet, hfirst, hecho, hdrops⟩

/-! ### A reading outside IDLE: the stop POWER_RESTORED (R151) -/

theorem NoticeState.raised_pending {n : NoticeState} {c : Category} (h : n.enabled.get c.code = true) :
    (n.raised c).waiting.get c.code = true := by
  unfold NoticeState.raised
  rw [if_pos h]
  exact Table.get_set_self n.waiting c.code true

@[simp] theorem NoticeState.raised_enabled (n : NoticeState) (c : Category) : (n.raised c).enabled = n.enabled := by
  unfold NoticeState.raised
  split <;> rfl

theorem NoticeState.raised_keeps_pending {n : NoticeState} {i : Fin 16} (c : Category) (h : n.waiting.get i = true) :
    (n.raised c).waiting.get i = true := by
  unfold NoticeState.raised
  split
  · by_cases hi : i = c.code
    · subst hi
      exact Table.get_set_self _ _ _
    · exact (Table.get_set_of_ne _ _ hi).trans h
  · exact h

theorem State.raise_notices_get (s : State) (c : Category) (q : PortId) : (s.raise c).notices.get q = (s.notices.get q).raised c :=
  Table.get_map _ _ _

theorem Retention.triggered_status (r : Retention) (m : Image) : (r.triggered m).status = r.status := by
  unfold Retention.triggered
  split <;> rfl

/-- A first stop tells PHASE to every station that has it enabled, and leaves what is enabled. -/
theorem State.takesFirstStop.tells {s t : State} {o : Offer} (h : s.takesFirstStop t o) (q : PortId) :
    (t.notices.get q).enabled = (s.notices.get q).enabled ∧
      ((s.notices.get q).enabled.get Category.phase.code = true → (t.notices.get q).waiting.get Category.phase.code = true) := by
  have htold : ∀ u : State, (u.notices.get q).enabled = (s.notices.get q).enabled ∧
      ((s.notices.get q).enabled.get Category.phase.code = true → (u.notices.get q).waiting.get Category.phase.code = true) →
      ∀ c, ((u.raise c).notices.get q).enabled = (s.notices.get q).enabled ∧
        ((s.notices.get q).enabled.get Category.phase.code = true →
          ((u.raise c).notices.get q).waiting.get Category.phase.code = true) := fun u hu c => by
    rw [State.raise_notices_get, NoticeState.raised_enabled]
    exact ⟨hu.1, fun he => NoticeState.raised_keeps_pending c (hu.2 he)⟩
  have hphase : ((s.raise .phase).notices.get q).enabled = (s.notices.get q).enabled ∧
      ((s.notices.get q).enabled.get Category.phase.code = true →
        ((s.raise .phase).notices.get q).waiting.get Category.phase.code = true) := by
    rw [State.raise_notices_get, NoticeState.raised_enabled]
    exact ⟨rfl, NoticeState.raised_pending⟩
  have hcause : ∀ c : Option Category, (((s.raise .phase).raiseIfAny c).notices.get q).enabled = (s.notices.get q).enabled ∧
      ((s.notices.get q).enabled.get Category.phase.code = true →
        (((s.raise .phase).raiseIfAny c).notices.get q).waiting.get Category.phase.code = true) := fun c => by
    cases c with
    | none => exact hphase
    | some c => exact htold _ hphase c
  rw [h.notices]
  dsimp only
  split
  · exact hcause _
  · exact htold _ (hcause _) _

/-- The state in which the stop POWER_RESTORED is taken (R151). -/
def State.restoredIn (s : State) (status : RetentionStatus) (m : Image) : State :=
  { s.restored status m with phase := m.phase }

theorem State.endReading_stop {s : State} {status : RetentionStatus} {m : Image} (h : m.phase ≠ .idle) :
    s.endReading status m =
      (((s.restoredIn status m).firstStop (plainOffer .powerRestored none)).raise .retain).mapSegs Segment.startPolling := by
  unfold State.endReading State.takePhase
  cases hm : m.phase with
  | idle => exact absurd hm h
  | _ => rw [State.restoredIn, hm]; rfl

theorem State.col_restoredIn (s : State) (status : RetentionStatus) (m : Image) (p : Pos) :
    (s.restoredIn status m).col p = { s.col p with contact := m.contacts.get p, offset := m.offsets.get p } :=
  Table.get_build _ p

/-- The stop POWER_RESTORED writes the image that was read. -/
theorem State.image_of_powerRestored {s t : State} {status : RetentionStatus} {m : Image} {o : Offer}
    (h : (s.restoredIn status m).takesFirstStop t o) : t.image = m := by
  have hcol : ∀ p, (t.col p).contact = m.contacts.get p ∧ (t.col p).offset = m.offsets.get p := fun p => by
    have hkept := h.columns p
    rw [State.col_restoredIn] at hkept
    exact ⟨(congrArg Column.contact hkept :), (congrArg Column.offset hkept :)⟩
  have hphase : t.imagePhase = m.phase := by
    rw [State.imagePhase_stopped h.phase h.record]
    rfl
  have hcontacts : t.imageContacts = m.contacts := by
    unfold State.imageContacts
    rw [if_neg (by rw [h.phase]; decide)]
    ext p : 1
    rw [Table.get_map]
    exact (hcol p).1
  have hoffsets : (t.cols.map fun c => c.offset) = m.offsets := by
    ext p : 1
    rw [Table.get_map]
    exact (hcol p).2
  unfold State.image
  rw [hphase, hcontacts, hoffsets, show t.roster = m.roster from (congrArg State.roster h.kept :),
    show t.limits = m.limits from (congrArg State.limits h.kept :), show t.plan = m.plan from (congrArg State.plan h.kept :)]

theorem Segment.echoAborted_kept (sg : Segment) : sg.echoAborted.echo = .none ∧ sg.echoAborted.discovery = sg.discovery ∧
    ∀ d, (sg.echoAborted.drops.get d).link = (sg.drops.get d).link := by
  unfold Segment.echoAborted
  cases h : sg.echo.cable with
  | none => exact ⟨(EchoTest.cable_eq_none _).mp h, rfl, fun d => rfl⟩
  | some c =>
    refine ⟨rfl, rfl, fun d => ?_⟩
    dsimp only
    rw [Table.get_map]
    split <;> rfl

/-- The polling of a segment after a reading that ends in a stop: a first cycle in any case (R24, R44). -/
theorem Segment.polling_of_stop {sg t : Segment} (quiet : Timer)
    (ht : t = ({ (sg.awake quiet).echoAborted with allstopOwed := true } : Segment).startPolling) :
    t.mode = .fast ∧ t.pollTimer = .running 5 ∧ t.quietTimer = .running 2000 ∧ t.echo = .none ∧ t.allstopOwed = true ∧
      t.cycle = some { reached := 0, exchanged := [], probed := false } ∧
      (sg.discovery = 11 → (∀ d, (sg.drops.get d).link = .absent) → t.nextExchange = some (0, .probe)) := by
  obtain ⟨hecho, hdisc, hlinks⟩ := (sg.awake quiet).echoAborted_kept
  rw [Segment.startPolling_eq, if_pos hecho] at ht
  refine ⟨by rw [ht], by rw [ht]; rfl, by rw [ht]; rfl, by rw [ht]; exact hecho, by rw [ht], by rw [ht]; rfl, fun hd habsent => ?_⟩
  refine Segment.first_exchange (by rw [ht]) ?_ fun d => ?_
  · rw [ht]
    exact hdisc.trans hd
  · rw [ht]
    exact (hlinks d).trans (habsent d)

/-- A decoded image is consistent, so that its phase is not STOPPED (R188). -/
theorem readImage_phase {r : MemoryReading} {status : RetentionStatus} {m : Image} (h : readImage r = (status, some m)) :
    m.phase ≠ .stopped := by
  unfold readImage at h
  split at h
  · cases h
  · split at h
    · cases h
    · split at h
      · cases h
      · split at h
        · cases h
        · next hdecode =>
          cases h
          unfold decodeImage at hdecode
          split at hdecode
          · cases hdecode
          · split at hdecode
            · next hgood =>
              cases hdecode
              exact (Image.consistent_iff.mp (Bool.and_eq_true_iff.mp hgood).2).1
            · cases hdecode

/-- Settles O6: the image restored in IDLE, and the stop of any other phase. -/
theorem validReadingRestoresImage : Obligations.ValidReadingRestoresImage := by
  unfold Obligations.ValidReadingRestoresImage
  intro s r m hp hphase hread
  have hend : s.imageReadEnd r = s.endReading .valid m := by
    rw [State.imageReadEnd_eq hp, hread]
    rfl
  by_cases hidle : m.phase = .idle
  · rw [State.endReading_idle hidle] at hend
    refine ⟨_, congrArg Host.Outcome.next hend, rfl, rfl, rfl, rfl, fun p => ?_, rfl, fun q he => ?_, fun g => ?_,
      fun _ => ⟨hphase, rfl, rfl⟩, fun h => absurd hidle h, rfl⟩
    · have hcol : (s.readIdle .valid m).col p = { s.col p with contact := m.contacts.get p, offset := m.offsets.get p } :=
        Table.get_build _ p
      rw [hcol]
      exact ⟨rfl, rfl⟩
    · have hnotices : (s.readIdle .valid m).notices.get q = (s.notices.get q).raised .retain := Table.get_map _ _ _
      rw [hnotices]
      exact NoticeState.raised_pending he
    · obtain ⟨hmode, hpoll, hquiet, hfirst, hecho, -⟩ := (s.seg g).polling_of_idle
      rw [← State.seg_readIdle s .valid m] at hmode hpoll hquiet hfirst hecho
      exact ⟨hmode, hpoll, hquiet, fun h => hfirst (h.resolve_right (not_not_intro hidle)), fun c _ => hecho c⟩
  · rw [State.endReading_stop hidle] at hend
    have hstop := (s.restoredIn .valid m).firstStop_spec (plainOffer .powerRestored none) rfl (readImage_phase hread)
    generalize (s.restoredIn .valid m).firstStop (plainOffer .powerRestored none) = u at hend hstop
    have hsegs : ∀ g, ((u.raise .retain).mapSegs Segment.startPolling).seg g = (u.seg g).startPolling := fun g => Table.get_map _ _ _
    have hline := fun g => Segment.polling_of_stop (sg := s.seg g) _ ((hsegs g).trans (congrArg _ (hstop.lines g)))
    refine ⟨_, congrArg Host.Outcome.next hend, (congrArg State.power hstop.kept :), (congrArg State.roster hstop.kept :),
      (congrArg State.limits hstop.kept :), (congrArg State.plan hstop.kept :), fun p => ?_, ?_, fun q he => ?_, fun g => ?_,
      fun h => absurd h hidle, fun _ => ⟨hstop.phase, hstop.stopOut, fun g => ?_, fun g => ?_, hstop.record, ?_, fun q he => ?_⟩, ?_⟩
    · have hkept := hstop.columns p
      rw [State.col_restoredIn] at hkept
      exact ⟨(congrArg Column.contact hkept :), (congrArg Column.offset hkept :)⟩
    · have hwritten : u.retention.status = .valid := by
        rw [hstop.written, Retention.triggered_status]
        rfl
      exact hwritten
    · obtain ⟨henabled, -⟩ := hstop.tells q
      have hnotices : ((u.raise .retain).mapSegs Segment.startPolling).notices.get q = (u.notices.get q).raised .retain :=
        u.raise_notices_get .retain q
      rw [hnotices]
      exact NoticeState.raised_pending (by rw [henabled]; exact he)
    · obtain ⟨hmode, hpoll, hquiet, -, -, hcycle, hfirst⟩ := hline g
      exact ⟨hmode, hpoll, hquiet, fun _ => ⟨hcycle, hfirst⟩, fun c h => absurd h hidle⟩
    · obtain ⟨-, -, -, -, howed, -, -⟩ := hline g
      exact howed
    · obtain ⟨-, -, -, hecho, -, -, -⟩ := hline g
      exact hecho
    · have hwritten := hstop.written
      rw [State.image_of_powerRestored hstop] at hwritten
      exact hwritten
    · obtain ⟨-, htold⟩ := hstop.tells q
      have hnotices : ((u.raise .retain).mapSegs Segment.startPolling).notices.get q = (u.notices.get q).raised .retain :=
        u.raise_notices_get .retain q
      rw [hnotices]
      exact NoticeState.raised_keeps_pending _ (htold he)
    · exact (congrArg (fun v : State =>
        { v with power := s.power, retention := s.retention, roster := s.roster, limits := s.limits, plan := s.plan, cols := s.cols,
                 stop := s.stop, notices := s.notices, segs := s.segs, phase := s.phase }) hstop.kept :)

end Sys2Proof.Machine

/-! A change of a drop's link state, whole: the drop, the column, the watches' test and the wake (R36, R46, R183). -/

namespace Sys2Proof.Machine

set_option Elab.async false

/-! ### The watches' test of a record (R183) -/

/-- The watches look at no creep baseline. -/
theorem WatchState.tested_creep (p : Pos) (c : Column) (k : Option Nat) (w : WatchState) :
    w.tested p { c with creep := k } = w.tested p c :=
  rfl

theorem State.testWatches_watches (s : State) (p : Pos) :
    (s.testWatches p).watches = s.watches.map (WatchState.tested p (s.col p)) :=
  rfl

/-- The watches' test of a position depends on the watches and on the record, but for its creep baseline. -/
theorem State.testWatches_congr {s t : State} {p : Pos} (hw : t.watches = s.watches)
    (hcol : { t.col p with creep := (s.col p).creep } = s.col p) : (t.testWatches p).watches = (s.testWatches p).watches := by
  have htested : WatchState.tested p (t.col p) = WatchState.tested p (s.col p) := by
    funext w
    rw [← hcol]
    exact (WatchState.tested_creep p (t.col p) _ w).symm
  rw [State.testWatches_watches, State.testWatches_watches, hw, htested]

/-! ### A wake where something moved, and rest where nothing did (R36) -/

/-- Between `s` and `t` there is a wake where the image has been read and `moved` holds, and else the lines stay but for what their
drops say; `held` are the positions whose creep baselines follow that. -/
structure State.stirs (s t : State) (moved : Prop) (held : Pos → Prop) : Prop where
  power : t.power = s.power
  phase : t.phase = s.phase
  awake : s.power = .running → moved → (∀ g, { t.seg g with drops := (s.seg g).drops } =
      (s.seg g).awake (if s.phase.isMotion then (s.seg g).quietTimer else .running Config.quietEntryTime)) ∧
    ∀ p, held p → (t.col p).creep = none
  asleep : ¬ (s.power = .running ∧ moved) → (∀ g, { t.seg g with drops := (s.seg g).drops } = s.seg g) ∧
    ∀ p, held p → (t.col p).creep = (s.col p).creep

/-- A segment that is awake wakes once more unchanged. -/
theorem Segment.awake_awake (sg : Segment) (q : Timer) (drops : Table Drop 12) :
    ({ sg.awake q with drops := drops } : Segment).awake q = { sg.awake q with drops := drops } := by
  simp [Segment.awake]

theorem Segment.awake_drops (sg : Segment) (q : Timer) (drops : Table Drop 12) :
    ({ sg with drops := drops } : Segment).awake q = { sg.awake q with drops := drops } :=
  rfl

/-- Segments that are the same but for their drops, written the other way round. -/
theorem Segment.eq_with_drops {a b x : Segment} (h : { a with drops := x.drops } = b) : a = { b with drops := a.drops } := by
  rw [← h]

namespace State.stirs
variable {s u t : State} {a b : Prop} {held : Pos → Prop}

theorem weaken {held' : Pos → Prop} (h : s.stirs t a held) (hh : ∀ p, held' p → held p) : s.stirs t a held' where
  power := h.power
  phase := h.phase
  awake hp hm := ⟨(h.awake hp hm).1, fun p hp' => (h.awake hp hm).2 p (hh p hp')⟩
  asleep hn := ⟨(h.asleep hn).1, fun p hp' => (h.asleep hn).2 p (hh p hp')⟩

theorem congr (h : s.stirs t a held) (hab : a ↔ b) : s.stirs t b held :=
  (propext hab : a = b) ▸ h

/-- Where nothing is changed but what no wake looks at, nothing has stirred. -/
theorem of_same (hp : t.power = s.power) (hphase : t.phase = s.phase)
    (hsegs : ∀ g, { t.seg g with drops := (s.seg g).drops } = s.seg g)
    (hcreep : ∀ p, held p → (t.col p).creep = (s.col p).creep) (hb : ¬ b) : s.stirs t b held where
  power := hp
  phase := hphase
  awake _ hm := absurd hm hb
  asleep _ := ⟨hsegs, hcreep⟩

theorem trans (h1 : s.stirs u a held) (h2 : u.stirs t b held) : s.stirs t (a ∨ b) held where
  power := h2.power.trans h1.power
  phase := h2.phase.trans h1.phase
  awake hp hm := by
    have hpu : u.power = .running := h1.power.trans hp
    by_cases ha : a
    · obtain ⟨hsegs1, hcreep1⟩ := h1.awake hp ha
      have hu := fun g => Segment.eq_with_drops (hsegs1 g)
      by_cases hb : b
      · obtain ⟨hsegs2, hcreep2⟩ := h2.awake hpu hb
        refine ⟨fun g => ?_, hcreep2⟩
        have hq : (if u.phase.isMotion then (u.seg g).quietTimer else .running Config.quietEntryTime) =
            if s.phase.isMotion then (s.seg g).quietTimer else .running Config.quietEntryTime := by
          rw [h1.phase, hu g]
          cases s.phase.isMotion <;> rfl
        have ht := Segment.eq_with_drops (hsegs2 g)
        rw [ht, hq, hu g, Segment.awake_awake]
        rfl
      · obtain ⟨hsegs2, hcreep2⟩ := h2.asleep fun h => hb h.2
        refine ⟨fun g => ?_, fun p hp' => (hcreep2 p hp').trans (hcreep1 p hp')⟩
        rw [← hsegs1 g, Segment.eq_with_drops (hsegs2 g)]
    · have hb : b := hm.resolve_left ha
      obtain ⟨hsegs1, hcreep1⟩ := h1.asleep fun h => ha h.2
      obtain ⟨hsegs2, hcreep2⟩ := h2.awake hpu hb
      refine ⟨fun g => ?_, hcreep2⟩
      rw [Segment.eq_with_drops (hsegs2 g), h1.phase, Segment.eq_with_drops (hsegs1 g)]
      rfl
  asleep hn := by
    obtain ⟨hsegs1, hcreep1⟩ := h1.asleep fun h => hn ⟨h.1, .inl h.2⟩
    obtain ⟨hsegs2, hcreep2⟩ := h2.asleep fun h => hn ⟨h1.power.symm.trans h.1, .inr h.2⟩
    refine ⟨fun g => ?_, fun p hp' => (hcreep2 p hp').trans (hcreep1 p hp')⟩
    rw [Segment.eq_with_drops (hsegs2 g)]
    exact hsegs1 g

theorem wakes (h : s.stirs t a fun _ => True) (hp : s.power = .running) (ha : a) : s.wakes t :=
  ⟨fun p => (h.awake hp ha).2 p trivial, (h.awake hp ha).1⟩

theorem rests (h : s.stirs t a fun _ => True) (hn : ¬ (s.power = .running ∧ a)) : s.rests t :=
  ⟨fun p => (h.asleep hn).2 p trivial, (h.asleep hn).1⟩

end State.stirs

/-- A wake stirs. -/
theorem State.stirs_wake (s : State) : s.stirs s.wake True fun _ => True where
  power := State.wake_power s
  phase := State.wake_phase s
  awake hp _ := by
    obtain ⟨hcreep, hsegs⟩ := State.wakes_wake hp rfl rfl (s := s)
    exact ⟨hsegs, fun p _ => hcreep p⟩
  asleep hn := by
    rw [State.wake_of_not_running s fun hp => hn ⟨hp, trivial⟩]
    exact ⟨fun g => rfl, fun p _ => rfl⟩

/-- A wake changes nothing but the lines and the creep baselines. -/
theorem State.wake_frame (s : State) : { s.wake with segs := s.segs, cols := s.cols } = s := by
  by_cases hp : s.power = .running
  · rw [State.wake_eq hp]
    rfl
  · rw [State.wake_of_not_running s hp]

theorem State.col_wake_creep (s : State) (p : Pos) : { s.wake.col p with creep := (s.col p).creep } = s.col p := by
  rw [State.col_wake]

/-! ### A change of link state, whole (R46, R183) -/

/-- The column of a mapped drop takes the drop's link state and capability (R46). -/
def Column.mirrors (c : Column) (d : Drop) : Column :=
  { c with link := d.link, cap := d.cap }

/-- What a change of the link state of drop `d` on segment `g` to `new` makes of a state. -/
structure State.relinks (s t : State) (g : SegId) (d : DropId) (new : LinkState) : Prop where
  drops : ∀ g' d', t.drop g' d' = if g' = g ∧ d' = d then (s.drop g' d').enter new else s.drop g' d'
  cols : ∀ p, { t.col p with creep := (s.col p).creep } =
    if s.mappedAt g d = some p then (s.col p).mirrors ((s.drop g d).enter new) else s.col p
  stirs : s.stirs t True fun _ => True
  untested : s.mappedAt g d = none → t.watches = s.watches
  tested : ∀ p, s.mappedAt g d = some p → t.watches = (({ t with watches := s.watches } : State).testWatches p).watches
  kept : { t with segs := s.segs, cols := s.cols, watches := s.watches } = s

theorem State.modDrop_segs (s : State) (g g' : SegId) (d : DropId) (f : Drop → Drop) :
    { (s.modDrop g d f).seg g' with drops := (s.seg g').drops } = s.seg g' := by
  unfold State.modDrop
  rw [State.seg_modSeg]
  split <;> rfl

/-- The state of a change of link state before its wake. -/
def State.relinked (s : State) (g : SegId) (d : DropId) (new : LinkState) : State :=
  ((s.modDrop g d (Drop.enter new)).mirror g d).testMapped g d

theorem State.relinked_unmapped {s : State} {g : SegId} {d : DropId} (hm : s.mappedAt g d = none) (new : LinkState) :
    s.relinked g d new = s.modDrop g d (Drop.enter new) := by
  have hm' : (s.modDrop g d (Drop.enter new)).mappedAt g d = none := hm
  simp [State.relinked, State.mirror, State.testMapped, hm']

theorem State.relinked_mapped {s : State} {g : SegId} {d : DropId} {p : Pos} (hm : s.mappedAt g d = some p) (new : LinkState) :
    s.relinked g d new =
      ((s.modDrop g d (Drop.enter new)).modCol p fun c => c.mirrors ((s.drop g d).enter new)).testWatches p := by
  have hm' : (s.modDrop g d (Drop.enter new)).mappedAt g d = some p := hm
  have hm'' : ∀ f, ((s.modDrop g d (Drop.enter new)).modCol p f).mappedAt g d = some p := fun f => hm
  simp [State.relinked, State.mirror, State.testMapped, hm', hm'', Column.mirrors]

theorem State.relinked_relinks (s : State) (g : SegId) (d : DropId) (new : LinkState) :
    let u := s.relinked g d new
    (∀ g' d', u.drop g' d' = if g' = g ∧ d' = d then (s.drop g' d').enter new else s.drop g' d') ∧
    (∀ p, u.col p = if s.mappedAt g d = some p then (s.col p).mirrors ((s.drop g d).enter new) else s.col p) ∧
    (∀ g', { u.seg g' with drops := (s.seg g').drops } = s.seg g') ∧
    (s.mappedAt g d = none → u.watches = s.watches) ∧
    (∀ p, s.mappedAt g d = some p → u.watches = (({ u with watches := s.watches } : State).testWatches p).watches) ∧
    { u with segs := s.segs, cols := s.cols, watches := s.watches } = s := by
  intro u
  cases hm : s.mappedAt g d with
  | none =>
    have hu : u = s.modDrop g d (Drop.enter new) := State.relinked_unmapped hm new
    rw [hu]
    exact ⟨fun g' d' => State.drop_modDrop .., fun p => rfl, fun g' => State.modDrop_segs .., fun _ => rfl, nofun, rfl⟩
  | some y =>
    have hu : u = _ := State.relinked_mapped hm new
    rw [hu]
    refine ⟨fun g' d' => State.drop_modDrop .., fun p => ?_, fun g' => State.modDrop_segs .., nofun, fun p hp => ?_, rfl⟩
    · refine (State.col_modCol _ y p _).trans ?_
      by_cases hp : p = y
      · subst hp
        rw [if_pos rfl, if_pos rfl]
        rfl
      · rw [if_neg hp, if_neg fun h => hp (Option.some.inj h).symm]
        rfl
    · cases hp
      rfl

theorem State.changeLink_relinks {s : State} {g : SegId} {d : DropId} {new : LinkState} (hne : (s.drop g d).link ≠ new) :
    s.relinks (s.changeLink g d new) g d new := by
  have hchange : s.changeLink g d new = (s.relinked g d new).wake := if_neg hne
  obtain ⟨hdrops, hcols, hsegs, huntested, htested, hkept⟩ := s.relinked_relinks g d new
  rw [hchange]
  generalize s.relinked g d new = u at hdrops hcols hsegs huntested htested hkept
  have hcreep : ∀ p, (u.col p).creep = (s.col p).creep := fun p => by
    rw [hcols]
    split <;> rfl
  have hstill : s.stirs u False fun _ => True :=
    .of_same (congrArg State.power hkept :) (congrArg State.phase hkept :) hsegs (fun p _ => hcreep p) not_false
  refine ⟨fun g' d' => ?_, fun p => ?_, (hstill.trans u.stirs_wake).congr (by simp), fun hm => ?_, fun y hm => ?_, ?_⟩
  · rw [State.drop_wake, hdrops]
  · rw [← hcols, ← hcreep p]
    exact u.col_wake_creep p
  · rw [State.wake_watches, huntested hm]
  · rw [State.wake_watches, htested y hm]
    exact (State.testWatches_congr (s := { u with watches := s.watches }) (t := { u.wake with watches := s.watches }) rfl
      (u.col_wake_creep y)).symm
  · exact (congrArg (fun v : State => { v with segs := s.segs, cols := s.cols, watches := s.watches }) u.wake_frame :).trans hkept

end Sys2Proof.Machine

/-! O33, O34: MAP and UNMAP. -/

namespace Sys2Proof.Machine

set_option Elab.async false

/-! ### A drop leaves the roster (R6) -/

/-- What leaving the roster makes of a state, for the drop of an entry that no position names any more. -/
structure State.leaves (s t : State) (e : RosterEntry) : Prop where
  enrolled : (s.drop e.seg e.drop).link = .enrolled →
    t.drop e.seg e.drop = { s.drop e.seg e.drop with link := .ready, settle := .stopped, page := 3 }
  lost : (s.drop e.seg e.drop).link = .lost → t.drop e.seg e.drop =
    { s.drop e.seg e.drop with link := .absent, miss := 0, settle := .stopped, page := 3, cap := Capability.empty }
  other : (s.drop e.seg e.drop).link ≠ .enrolled → (s.drop e.seg e.drop).link ≠ .lost →
    t.drop e.seg e.drop = s.drop e.seg e.drop
  drops : ∀ g d, ¬ (g = e.seg ∧ d = e.drop) → t.drop g d = s.drop g d
  cols : ∀ p, { t.col p with creep := (s.col p).creep } = s.col p
  stirs : s.stirs t ((s.drop e.seg e.drop).link = .enrolled ∨ (s.drop e.seg e.drop).link = .lost) fun _ => True
  watches : t.watches = s.watches
  kept : { t with segs := s.segs, cols := s.cols } = s

theorem State.relinks.unmapped {s t : State} {g : SegId} {d : DropId} {new : LinkState} (h : s.relinks t g d new)
    (hm : s.mappedAt g d = none) :
    (∀ p, { t.col p with creep := (s.col p).creep } = s.col p) ∧ t.watches = s.watches ∧
      { t with segs := s.segs, cols := s.cols } = s := by
  have hwatches := h.untested hm
  have hcols := h.cols
  simp only [hm, reduceCtorEq, if_false] at hcols
  refine ⟨hcols, hwatches, ?_⟩
  have hkept := h.kept
  rw [← hwatches] at hkept
  exact hkept

theorem State.dropLeaves_leaves {s : State} {e : RosterEntry} (hm : s.mappedAt e.seg e.drop = none) :
    s.leaves (s.dropLeaves e.seg e.drop) e := by
  by_cases hen : (s.drop e.seg e.drop).link = .enrolled
  · have hleave : s.dropLeaves e.seg e.drop = s.changeLink e.seg e.drop .ready := by
      unfold State.dropLeaves
      rw [hen]
    rw [hleave]
    have h := State.changeLink_relinks (s := s) (g := e.seg) (d := e.drop) (new := .ready) (by rw [hen]; decide)
    obtain ⟨hcols, hwatches, hkept⟩ := h.unmapped hm
    refine ⟨fun _ => ?_, fun hl => ?_, fun hne => absurd hen hne, fun g d hgd => ?_, hcols, h.stirs.congr (by simp [hen]), hwatches,
      hkept⟩
    · rw [h.drops, if_pos ⟨rfl, rfl⟩]
      rfl
    · exact absurd (hen.symm.trans hl) nofun
    · rw [h.drops, if_neg hgd]
  · by_cases hlost : (s.drop e.seg e.drop).link = .lost
    · have hleave : s.dropLeaves e.seg e.drop = s.changeLink e.seg e.drop .absent := by
        unfold State.dropLeaves
        rw [hlost]
      rw [hleave]
      have h := State.changeLink_relinks (s := s) (g := e.seg) (d := e.drop) (new := .absent) (by rw [hlost]; decide)
      obtain ⟨hcols, hwatches, hkept⟩ := h.unmapped hm
      refine ⟨fun h => absurd h hen, fun _ => ?_, fun _ hne => absurd hlost hne, fun g d hgd => ?_, hcols,
        h.stirs.congr (by simp [hlost]), hwatches, hkept⟩
      · rw [h.drops, if_pos ⟨rfl, rfl⟩]
        rfl
      · rw [h.drops, if_neg hgd]
    · have hleave : s.dropLeaves e.seg e.drop = s := by
        unfold State.dropLeaves
        cases h : (s.drop e.seg e.drop).link with
        | enrolled => exact absurd h hen
        | lost => exact absurd h hlost
        | _ => rfl
      rw [hleave]
      exact ⟨fun h => absurd h hen, fun h => absurd h hlost, fun _ _ => rfl, fun _ _ _ => rfl, fun _ => rfl,
        .of_same rfl rfl (fun _ => rfl) (fun _ _ => rfl) (by simp [hen, hlost]), rfl, rfl⟩

/-! ### A record emptied, and loaded from a new drop (R7, R183) -/

/-- The state with the record of a position emptied, as the watches test it. -/
def State.emptied (s : State) (p : Pos) : State :=
  s.modCol p fun _ => .empty

/-- What emptying the record of position `p` makes of a state. -/
structure State.empties (s t : State) (p : Pos) : Prop where
  drops : ∀ g d, t.drop g d = s.drop g d
  col : t.col p = .empty
  cols : ∀ x, x ≠ p → { t.col x with creep := (s.col x).creep } = s.col x
  stirs : s.stirs t ((s.col p).link ≠ .absent) fun x => x ≠ p
  counts : (s.col p).cls ≠ .lag → (s.col p).mark = false → t.holdCount = s.holdCount ∧ t.outCount = s.outCount
  watches : t.watches = ((s.emptied p).testWatches p).watches
  kept : { t with segs := s.segs, cols := s.cols, watches := s.watches, holdCount := s.holdCount, outCount := s.outCount } = s

theorem Column.empty_creep (k : Option Nat) (hk : k = none) : ({ Column.empty with creep := k } : Column) = .empty := by
  rw [hk]
  rfl

theorem State.col_wake_of_creep {s : State} {p : Pos} (h : (s.col p).creep = none) : s.wake.col p = s.col p := by
  rw [State.col_wake]
  split
  · rw [← h]
  · rfl

/-- The state of an emptied record before its wake. -/
def State.emptiedRecord (s : State) (p : Pos) : State :=
  ((s.classify p .none false none).modCol p fun _ => .empty).testWatches p

theorem State.emptiedRecord_empties (s : State) (p : Pos) :
    (s.emptiedRecord p).segs = s.segs ∧ (s.emptiedRecord p).col p = .empty ∧
      (∀ x, x ≠ p → (s.emptiedRecord p).col x = s.col x) ∧
      ((s.col p).cls ≠ .lag → (s.col p).mark = false →
        (s.emptiedRecord p).holdCount = s.holdCount ∧ (s.emptiedRecord p).outCount = s.outCount) ∧
      (s.emptiedRecord p).watches = ((s.emptied p).testWatches p).watches ∧
      ({ s.emptiedRecord p with
          cols := s.cols, watches := s.watches, holdCount := s.holdCount, outCount := s.outCount } : State) = s := by
  have hcol : (s.emptiedRecord p).col p = .empty := State.col_modCol_self _ p _
  refine ⟨rfl, hcol, fun x hx => ?_, fun hcls hmark => ?_, ?_, rfl⟩
  · exact (State.col_modCol_of_ne _ _ hx).trans (State.col_modCol_of_ne s _ hx)
  · have hhold : (s.emptiedRecord p).holdCount =
        s.holdCount + (decide (Classification.none = .lag)).toNat - (decide ((s.col p).cls = .lag)).toNat := rfl
    have hout : (s.emptiedRecord p).outCount = s.outCount + false.toNat - (s.col p).mark.toNat := rfl
    rw [hhold, hout, hmark, decide_eq_false hcls]
    exact ⟨rfl, rfl⟩
  · exact State.testWatches_congr (s := s.emptied p) (t := (s.classify p .none false none).modCol p fun _ => .empty) rfl
      (by rw [State.emptied, State.col_modCol_self, State.col_modCol_self])

theorem State.emptyRecord_empties (s : State) (p : Pos) : s.empties (s.emptyRecord p) p := by
  have hempty : s.emptyRecord p = if (s.col p).link = .absent then s.emptiedRecord p else (s.emptiedRecord p).wake := rfl
  obtain ⟨hsegs, hcol, hcols, hcounts, hwatches, hkept⟩ := s.emptiedRecord_empties p
  rw [hempty]
  generalize s.emptiedRecord p = u at hsegs hcol hcols hcounts hwatches hkept
  have hstill : ∀ b, ¬ b → s.stirs u b fun x => x ≠ p := fun b =>
    .of_same (congrArg State.power hkept :) (congrArg State.phase hkept :) (fun g => by rw [State.seg_congr hsegs])
      (fun x hx => by rw [hcols x hx])
  have hkept' : { u with
      segs := s.segs, cols := s.cols, watches := s.watches, holdCount := s.holdCount, outCount := s.outCount } = s :=
    (congrArg (fun v : State => { v with segs := s.segs }) hkept :)
  by_cases hl : (s.col p).link = .absent
  · rw [if_pos hl]
    exact ⟨fun g d => State.drop_congr hsegs g d, hcol, fun x hx => by rw [hcols x hx], hstill _ (not_not_intro hl), hcounts,
      hwatches, hkept'⟩
  · rw [if_neg hl]
    refine ⟨fun g d => ?_, ?_, fun x hx => ?_, ?_, fun h1 h2 => ?_, ?_, ?_⟩
    · rw [State.drop_wake, State.drop_congr hsegs]
    · rw [State.col_wake_of_creep (by rw [hcol]; rfl), hcol]
    · rw [← hcols x hx]
      exact u.col_wake_creep x
    · exact ((hstill False not_false).trans (u.stirs_wake.weaken fun _ _ => trivial)).congr (by simp [hl])
    · rw [State.wake_holdCount, State.wake_outCount]
      exact hcounts h1 h2
    · rw [State.wake_watches, hwatches]
    · exact (congrArg (fun v : State =>
        { v with segs := s.segs, cols := s.cols, watches := s.watches, holdCount := s.holdCount, outCount := s.outCount })
        u.wake_frame :).trans hkept'

/-- The record of a newly mapped position: that of its drop, and nothing else (R7). -/
def Drop.record (d : Drop) : Column :=
  { Column.empty with link := d.link, cap := d.cap }

/-- What loading the record of position `p` from drop `d` on segment `g` makes of a state. -/
structure State.loads (s t : State) (p : Pos) (d : Drop) : Prop where
  drops : ∀ g d, t.drop g d = s.drop g d
  col : t.col p = d.record
  cols : ∀ x, x ≠ p → { t.col x with creep := (s.col x).creep } = s.col x
  stirs : s.stirs t ((s.col p).link ≠ .absent ∨ d.link ≠ .absent) fun x => x ≠ p
  counts : (s.col p).cls ≠ .lag → (s.col p).mark = false → t.holdCount = s.holdCount ∧ t.outCount = s.outCount
  watches : t.watches = (({ t with watches := ((s.emptied p).testWatches p).watches } : State).testWatches p).watches
  kept : { t with segs := s.segs, cols := s.cols, watches := s.watches, holdCount := s.holdCount, outCount := s.outCount } = s

/-- A second test of the same record owes nothing more. -/
theorem WatchState.tested_tested (p : Pos) (c : Column) (w : WatchState) : (w.tested p c).tested p c = w.tested p c := by
  unfold WatchState.tested
  by_cases h : (w.watched.get p && w.differs p c) = true
  · have h' : (w.watched.get p && ({ w with owed := w.owed.set p true } : WatchState).differs p c) = true := h
    rw [if_pos h, if_pos h']
    congr 1
    ext x : 1
    simp only [Table.get_set]
    split <;> rfl
  · rw [if_neg h, if_neg h]

/-- The watches look at no capability. -/
theorem WatchState.tested_cap (p : Pos) (c : Column) (k : Capability) (w : WatchState) :
    w.tested p { c with cap := k } = w.tested p c :=
  rfl

/-- A test of a record that the watches have tested, but for its capability, changes nothing. -/
theorem State.testWatches_again {s : State} {p : Pos} {c : Column} {k : Capability} (hcol : s.col p = { c with cap := k })
    {w : Table WatchState 4} (hw : s.watches = w.map (WatchState.tested p c)) : (s.testWatches p).watches = s.watches := by
  rw [State.testWatches_watches, hcol, hw]
  ext q : 1
  rw [Table.get_map, Table.get_map, WatchState.tested_cap, WatchState.tested_tested]

theorem State.loadRecord_loads (s : State) (p : Pos) (g : SegId) (d : DropId) :
    s.loads (s.loadRecord p g d) p (s.drop g d) := by
  have h := s.emptyRecord_empties p
  let loaded := fun u : State => u.modCol p fun c => { c with link := (s.drop g d).link, cap := (s.drop g d).cap }
  have hload : s.loadRecord p g d =
      if (s.drop g d).link = .absent then loaded (s.emptyRecord p) else ((loaded (s.emptyRecord p)).testWatches p).wake := rfl
  rw [hload]
  generalize s.emptyRecord p = u at h
  have hcol : (loaded u).col p = (s.drop g d).record := by
    rw [State.col_modCol_self, h.col]
    rfl
  have hcols : ∀ x, x ≠ p → (loaded u).col x = u.col x := fun x hx => State.col_modCol_of_ne u _ hx
  have hstill : ∀ b, ¬ b → u.stirs (loaded u) b fun x => x ≠ p := fun b =>
    .of_same rfl rfl (fun g => rfl) (fun x hx => by rw [hcols x hx])
  by_cases hl : (s.drop g d).link = .absent
  · rw [if_pos hl]
    refine ⟨h.drops, hcol, fun x hx => ?_, h.stirs.trans (hstill _ (not_not_intro hl)), h.counts, ?_, h.kept⟩
    · rw [hcols x hx]
      exact h.cols x hx
    · have hw : (loaded u).watches = ((s.emptied p).testWatches p).watches := h.watches
      rw [← hw]
      refine (State.testWatches_again (s := loaded u) (c := .empty) (k := (s.drop g d).cap) (w := s.watches) ?_ ?_).symm
      · rw [hcol, Drop.record, hl]
        rfl
      · rw [hw, State.testWatches_watches, State.emptied, State.col_modCol_self]
        rfl
  · rw [if_neg hl]
    refine ⟨fun g d => ?_, ?_, fun x hx => ?_, ?_, fun h1 h2 => ?_, ?_, ?_⟩
    · rw [State.drop_wake]
      exact h.drops g d
    · rw [State.col_wake_of_creep]
      · exact hcol
      · exact (congrArg Column.creep hcol :)
    · have hx' : { ((loaded u).testWatches p).wake.col x with creep := (s.col x).creep } =
          { (loaded u).col x with creep := (s.col x).creep } :=
        (congrArg (fun c : Column => { c with creep := (s.col x).creep }) (((loaded u).testWatches p).col_wake_creep x) :)
      rw [hx', hcols x hx]
      exact h.cols x hx
    · have hwake := ((loaded u).testWatches p).stirs_wake.weaken (held' := fun x => x ≠ p) fun _ _ => trivial
      have htested : (loaded u).stirs ((loaded u).testWatches p) False fun x => x ≠ p :=
        .of_same rfl rfl (fun g => rfl) (fun x _ => rfl) not_false
      exact (h.stirs.trans ((hstill False not_false).trans (htested.trans hwake))).congr (by simp [hl])
    · rw [State.wake_holdCount, State.wake_outCount]
      exact h.counts h1 h2
    · rw [State.wake_watches]
      exact (State.testWatches_congr (s := loaded u)
        (t := { ((loaded u).testWatches p).wake with watches := ((s.emptied p).testWatches p).watches }) h.watches.symm
        (((loaded u).testWatches p).col_wake_creep p)).symm
    · exact (congrArg (fun v : State =>
        { v with segs := s.segs, cols := s.cols, watches := s.watches, holdCount := s.holdCount, outCount := s.outCount })
        ((loaded u).testWatches p).wake_frame :).trans h.kept

/-! ### The drop that an entry named leaves (R6) -/

/-- What it makes of a state that the drop of an entry, where there was one, leaves the roster. -/
structure State.parts (s t : State) (o : Option RosterEntry) : Prop where
  leaves : ∀ e, o = some e → s.leaves t e
  drops : ∀ g d, (∀ e, o = some e → ¬ (g = e.seg ∧ d = e.drop)) → t.drop g d = s.drop g d
  cols : ∀ p, { t.col p with creep := (s.col p).creep } = s.col p
  stirs : s.stirs t (∃ e, o = some e ∧ ((s.drop e.seg e.drop).link = .enrolled ∨ (s.drop e.seg e.drop).link = .lost))
    fun _ => True
  watches : t.watches = s.watches
  kept : { t with segs := s.segs, cols := s.cols } = s

theorem State.entryLeaves_parts {s : State} {o : Option RosterEntry} (hm : ∀ e, o = some e → s.mappedAt e.seg e.drop = none) :
    s.parts (s.entryLeaves o) o := by
  cases o with
  | none =>
    exact ⟨nofun, fun _ _ _ => rfl, fun _ => rfl, .of_same rfl rfl (fun _ => rfl) (fun _ _ => rfl) (by simp), rfl, rfl⟩
  | some e =>
    have h : s.leaves (s.entryLeaves (some e)) e := State.dropLeaves_leaves (hm e rfl)
    exact ⟨fun e' he => by cases he; exact h, fun g d hgd => h.drops g d (hgd e rfl), h.cols, h.stirs.congr (by simp), h.watches,
      h.kept⟩

theorem State.mappedAt_eq_none {s : State} {g : SegId} {d : DropId} (h : ∀ p sn, s.entry p ≠ some ⟨g, d, sn⟩) :
    s.mappedAt g d = none := by
  cases hm : s.mappedAt g d with
  | none => rfl
  | some p =>
    obtain ⟨⟨g', d', sn⟩, he, hg, hd⟩ := State.entry_of_mappedAt hm
    subst hg hd
    exact absurd he (h p sn)

/-- The roster after an edit of position `p`, as a state. -/
def State.rosterEdited (s : State) (p : Pos) (o : Option RosterEntry) : State :=
  { s with roster := s.roster.withEntry p o }

theorem State.entry_rosterEdited (s : State) (p x : Pos) (o : Option RosterEntry) :
    (s.rosterEdited p o).entry x = if x = p then o else s.entry x :=
  Table.get_set _ _ _ _

/-- After the entry of position `p` names another drop or none, no position names the old one (R5). -/
theorem State.mappedAt_rosterEdited {s : State} (hr : s.roster.injective = true) {p : Pos} {e : RosterEntry}
    (he : s.entry p = some e) {o : Option RosterEntry} (ho : ∀ sn, o ≠ some ⟨e.seg, e.drop, sn⟩) :
    (s.rosterEdited p o).mappedAt e.seg e.drop = none := by
  refine State.mappedAt_eq_none fun x sn hx => ?_
  rw [State.entry_rosterEdited] at hx
  split at hx
  · exact ho sn hx
  · next hne =>
    have h1 := State.mappedAt_of_entry hr he
    have h2 := State.mappedAt_of_entry hr hx
    exact hne (Option.some.inj (h2.symm.trans h1))

theorem State.roster_rosterEdited_ne {s : State} {p : Pos} {o : Option RosterEntry} (h : o ≠ s.entry p) :
    (s.rosterEdited p o).roster ≠ s.roster := fun hr => by
  have hentry := State.entry_congr hr p
  rw [State.entry_rosterEdited, if_pos rfl] at hentry
  exact h hentry

/-- The write of an edit that has changed the roster (R4). -/
theorem State.retention_of_edit {s v : State} (hpower : v.power = s.power) (hretention : v.retention = s.retention)
    (hne : v.roster ≠ s.roster) :
    (if v.roster = s.roster ∨ v.power ≠ .running then v.retention else v.retention.triggered v.image) =
      if s.power = .running then s.retention.triggered v.image else s.retention := by
  rw [hpower, hretention]
  by_cases hp : s.power = .running
  · rw [if_pos hp, if_neg (by simp [hne, hp])]
  · rw [if_neg hp, if_pos (.inr hp)]

theorem Column.eq_of_creep {c c' : Column} (h : { c with creep := c'.creep } = c') (hcreep : c.creep = c'.creep) : c = c' := by
  rw [← hcreep] at h
  exact h

/-! ### UNMAP (R8) -/

theorem ownerUnmap_valid {s : State} {q : PortId} {p : Pos} (hholder : s.holder = some q) (hphase : s.phase = .idle) :
    ownerUnmap q s [byteOf p.val] = if s.validPos p then (s.acceptUnmap p, .plain .done) else (s, .plain .done) := by
  unfold ownerUnmap
  rw [State.rosterRefusal_eq_none hholder hphase, posArgs_byteOf]

/-- Settles O34: the entry cleared, the drop that leaves, and the record emptied. -/
theorem unmapEffect : Obligations.UnmapEffect := by
  unfold Obligations.UnmapEffect
  intro s q tag p hroster hholder hphase hdue
  obtain ⟨hinj, -⟩ := hroster
  have howner := ownerUnmap_valid (p := p) hholder hphase
  refine ⟨fun hnone => ?_, fun e he => ?_⟩
  · rw [if_neg (by simp [State.validPos, hnone])] at howner
    exact State.onlyAnswers_of_owner rfl hdue howner
  · rw [if_pos (by simp [State.validPos, he])] at howner
    have haccept : s.acceptUnmap p =
        (((s.rosterEdited p none).entryLeaves (some e)).emptyRecord p).triggerIfChanged s.roster := by
      rw [← he]
      rfl
    have hnone : (s.rosterEdited p none).mappedAt e.seg e.drop = none := State.mappedAt_rosterEdited hinj he nofun
    have hparts := State.entryLeaves_parts (s := s.rosterEdited p none) (o := some e) fun e' he' => by cases he'; exact hnone
    generalize (s.rosterEdited p none).entryLeaves (some e) = u at haccept hparts
    have hempties := u.emptyRecord_empties p
    generalize u.emptyRecord p = v at haccept hempties
    have hleaves := hparts.leaves e rfl
    have hv : { v with segs := s.segs, cols := s.cols, watches := s.watches, holdCount := s.holdCount, outCount := s.outCount } =
        s.rosterEdited p none := by
      refine (congrArg (fun w : State => { w with
        segs := s.segs, cols := s.cols, watches := s.watches, holdCount := s.holdCount, outCount := s.outCount })
        hempties.kept :).trans ?_
      exact (congrArg (fun w : State =>
        { w with watches := s.watches, holdCount := s.holdCount, outCount := s.outCount }) hparts.kept :)
    have hstirs := (hparts.stirs.weaken (held' := fun x => x ≠ p) fun _ _ => trivial).trans hempties.stirs
    have hcolp : { u.col p with creep := (s.col p).creep } = s.col p := hparts.cols p
    have hcls : (u.col p).cls = (s.col p).cls := (congrArg Column.cls hcolp :)
    have hmark : (u.col p).mark = (s.col p).mark := (congrArg Column.mark hcolp :)
    have hlink : (u.col p).link = (s.col p).link := (congrArg Column.link hcolp :)
    have hne : v.roster ≠ s.roster := (congrArg State.roster hv :) ▸ State.roster_rosterEdited_ne (by rw [he]; nofun)
    have hpower : v.power = s.power := (congrArg State.power hv :)
    have hmoved : ((∃ e', some e = some e' ∧
        (((s.rosterEdited p none).drop e'.seg e'.drop).link = .enrolled ∨ ((s.rosterEdited p none).drop e'.seg e'.drop).link = .lost)) ∨
        (u.col p).link ≠ .absent) ↔
        ((s.col p).link ≠ .absent ∨ (s.drop e.seg e.drop).link = .enrolled ∨ (s.drop e.seg e.drop).link = .lost) := by
      rw [hlink, or_comm]
      simp only [Option.some.injEq, exists_eq_left']
      rfl
    have hcols : ∀ x, x ≠ p → { v.col x with creep := (s.col x).creep } = s.col x := fun x hx =>
      (congrArg (fun c : Column => { c with creep := (s.col x).creep }) (hempties.cols x hx) :).trans (hparts.cols x)
    rw [haccept, State.triggerIfChanged_eq] at howner
    have hports : v.ports = s.ports := (congrArg State.ports hv :)
    refine State.executes_of_owner rfl hdue howner hports
      ⟨(congrArg State.roster hv :), ?_, hempties.col, hcols, ?_, fun g d hgd => ?_, fun h => ?_, fun h => ?_, fun h h' => ?_,
        fun h h' => ?_, ?_, ⟨fun hp hm => ⟨fun x => ?_, ?_⟩, fun hm => ⟨?_, fun x hx => ?_⟩⟩, ?_⟩
    · exact State.retention_of_edit hpower (congrArg State.retention hv :) hne
    · exact (congrFun (congrFun (State.mappedAt_congr (congrArg State.roster hv :)) e.seg) e.drop).trans hnone
    · exact (hempties.drops g d).trans (hleaves.drops g d hgd)
    · exact (hempties.drops _ _).trans (hleaves.enrolled h)
    · exact (hempties.drops _ _).trans (hleaves.lost h)
    · exact (hempties.drops _ _).trans (hleaves.other h h')
    · obtain ⟨h1, h2⟩ := hempties.counts (by rwa [hcls]) (by rwa [hmark])
      exact ⟨h1.trans (congrArg State.holdCount hparts.kept :), h2.trans (congrArg State.outCount hparts.kept :)⟩
    · exact hempties.watches.trans (State.testWatches_congr (s := s.emptied p) (t := u.emptied p) hparts.watches
        (by rw [State.emptied, State.emptied, State.col_modCol_self, State.col_modCol_self]))
    · by_cases hx : x = p
      · rw [hx]
        exact (congrArg Column.creep hempties.col :)
      · exact (hstirs.awake hp (hmoved.mpr hm)).2 x hx
    · exact (hstirs.awake hp (hmoved.mpr hm)).1
    · exact (hstirs.asleep fun h => hm.elim (fun hn => hn h.1) fun hn => hn (hmoved.mp h.2)).1
    · have hcreep := (hstirs.asleep fun h => hm.elim (fun hn => hn h.1) fun hn => hn (hmoved.mp h.2)).2 x hx
      exact Column.eq_of_creep (hcols x hx) hcreep
    · exact (congrArg (fun w : State => { w with roster := s.roster, retention := s.retention, ports := s.ports }) hv :)

/-! ### MAP (R5) -/

theorem mapArgs_bytes (p : Pos) (g : SegId) (d : DropId) (serial : Option (BitVec 32)) :
    mapArgs ([byteOf p.val, byteOf (g.val + 1), byteOf (d.val + 1)] ++ (match serial with | some x => be32 x.toNat | none => [])) =
      some { pos := p, seg := g, drop := d, serial := serial } := by
  have hp := fromZero_byteOf (n := 48) (by decide) p
  have hg := fromOne_byteOf (n := 4) (by decide) g
  have hd := fromOne_byteOf (n := 12) (by decide) d
  cases serial with
  | none => simp [mapArgs, hp, hg, hd]
  | some x => simp [mapArgs, be32, hp, hg, hd, word32_be32]

theorem ownerMap_eq {s : State} {q : PortId} {args : List Byte} {a : MapArgs} (hholder : s.holder = some q)
    (hphase : s.phase = .idle) (hargs : mapArgs args = some a) :
    (∀ x, x ≠ a.pos → s.mappedAt a.seg a.drop = some x → ownerMap q s args = (s, .conflict x)) ∧
    ((∀ x, x ≠ a.pos → s.mappedAt a.seg a.drop ≠ some x) → ownerMap q s args = (s.acceptMap a, .plain .done)) := by
  unfold ownerMap
  rw [State.rosterRefusal_eq_none hholder hphase, hargs]
  dsimp only
  constructor
  · intro x hx hm
    rw [hm]
    exact if_neg hx
  · intro hnot
    cases hm : s.mappedAt a.seg a.drop with
    | none => rfl
    | some x => exact if_pos (by_contra fun hx => hnot x hx hm)

theorem entryNames_iff_exists {g : SegId} {d : DropId} {o : Option RosterEntry} :
    entryNames g d o = true ↔ ∃ sn, o = some ⟨g, d, sn⟩ := by
  rw [entryNames_iff]
  constructor
  · rintro ⟨⟨g', d', sn⟩, rfl, rfl, rfl⟩
    exact ⟨sn, rfl⟩
  · rintro ⟨sn, rfl⟩
    exact ⟨_, rfl, rfl, rfl⟩

/-- A MAP with the pair that the position named before changes the roster alone (R5). -/
theorem State.acceptMap_same {s : State} {p : Pos} {g : SegId} {d : DropId} {serial : Option (BitVec 32)}
    (h : ∃ sn, s.entry p = some ⟨g, d, sn⟩) : s.acceptMap { pos := p, seg := g, drop := d, serial := serial } =
      (s.rosterEdited p (some ⟨g, d, serial⟩)).triggerIfChanged s.roster := by
  unfold State.acceptMap
  exact if_pos (entryNames_iff_exists.mpr h)

theorem State.acceptMap_new {s : State} {p : Pos} {g : SegId} {d : DropId} {serial : Option (BitVec 32)}
    (h : ¬ ∃ sn, s.entry p = some ⟨g, d, sn⟩) : s.acceptMap { pos := p, seg := g, drop := d, serial := serial } =
      (((s.rosterEdited p (some ⟨g, d, serial⟩)).entryLeaves (s.entry p)).loadRecord p g d).triggerIfChanged s.roster := by
  unfold State.acceptMap
  exact if_neg fun hn => h (entryNames_iff_exists.mp hn)

/-- The write of an edit, by whether it has changed the roster (R4). -/
theorem State.retention_of_trigger {s v : State} (hpower : v.power = s.power) (hretention : v.retention = s.retention) :
    (if v.roster = s.roster ∨ v.power ≠ .running then v.retention else v.retention.triggered v.image) =
      if v.roster = s.roster ∨ s.power ≠ .running then s.retention else s.retention.triggered v.image := by
  rw [hpower, hretention]

/-- Settles O33: the pair that another position holds, the same pair, and a new one. -/
theorem mapEffect : Obligations.MapEffect := by
  unfold Obligations.MapEffect
  intro s q tag p g d serial hroster hholder hphase hdue
  obtain ⟨hinj, -⟩ := hroster
  obtain ⟨hconflict, hdone⟩ := ownerMap_eq hholder hphase (mapArgs_bytes p g d serial)
  refine ⟨fun x hx ⟨sn, hsn⟩ => ?_, fun hfree => ?_⟩
  · exact State.onlyAnswers_of_owner rfl hdue (hconflict x hx (State.mappedAt_of_entry hinj hsn))
  · have howner := hdone fun x hx hm => by
      obtain ⟨⟨g', d', sn⟩, he, hg, hd⟩ := State.entry_of_mappedAt hm
      subst hg hd
      exact hfree x hx ⟨sn, he⟩
    by_cases hsame : ∃ sn, s.entry p = some ⟨g, d, sn⟩
    · rw [State.acceptMap_same hsame, State.triggerIfChanged_eq] at howner
      exact State.executes_of_owner rfl hdue howner rfl ⟨rfl, rfl, fun _ => rfl, fun h => absurd hsame h⟩
    · rw [State.acceptMap_new hsame] at howner
      have hold : ∀ e, s.entry p = some e → ∀ sn, (some ⟨g, d, serial⟩ : Option RosterEntry) ≠ some ⟨e.seg, e.drop, sn⟩ := by
        rintro ⟨g', d', sn'⟩ he sn h
        cases h
        exact hsame ⟨sn', he⟩
      have hparts := State.entryLeaves_parts (s := s.rosterEdited p (some ⟨g, d, serial⟩)) (o := s.entry p) fun e he =>
        State.mappedAt_rosterEdited hinj he (hold e he)
      generalize (s.rosterEdited p (some ⟨g, d, serial⟩)).entryLeaves (s.entry p) = u at howner hparts
      have hdrop : u.drop g d = s.drop g d := hparts.drops g d fun e he h => by
        obtain ⟨hg, hd⟩ := h
        exact hold e he serial (by rw [hg, hd])
      have hloads := u.loadRecord_loads p g d
      rw [hdrop] at hloads
      generalize u.loadRecord p g d = v at howner hloads
      have hv : { v with segs := s.segs, cols := s.cols, watches := s.watches, holdCount := s.holdCount, outCount := s.outCount } =
          s.rosterEdited p (some ⟨g, d, serial⟩) := by
        refine (congrArg (fun w : State => { w with
          segs := s.segs, cols := s.cols, watches := s.watches, holdCount := s.holdCount, outCount := s.outCount })
          hloads.kept :).trans ?_
        exact (congrArg (fun w : State =>
          { w with watches := s.watches, holdCount := s.holdCount, outCount := s.outCount }) hparts.kept :)
      have hstirs := (hparts.stirs.weaken (held' := fun x => x ≠ p) fun _ _ => trivial).trans hloads.stirs
      have hcolp : { u.col p with creep := (s.col p).creep } = s.col p := hparts.cols p
      have hcls : (u.col p).cls = (s.col p).cls := (congrArg Column.cls hcolp :)
      have hmark : (u.col p).mark = (s.col p).mark := (congrArg Column.mark hcolp :)
      have hlink : (u.col p).link = (s.col p).link := (congrArg Column.link hcolp :)
      have hpower : v.power = s.power := (congrArg State.power hv :)
      have hports : v.ports = s.ports := (congrArg State.ports hv :)
      have hcols : ∀ x, x ≠ p → { v.col x with creep := (s.col x).creep } = s.col x := fun x hx =>
        (congrArg (fun c : Column => { c with creep := (s.col x).creep }) (hloads.cols x hx) :).trans (hparts.cols x)
      have hmoved : ((∃ e, s.entry p = some e ∧ ((s.drop e.seg e.drop).link = .enrolled ∨ (s.drop e.seg e.drop).link = .lost)) ∨
          (u.col p).link ≠ .absent ∨ (s.drop g d).link ≠ .absent) ↔
          ((s.col p).link ≠ .absent ∨ (s.drop g d).link ≠ .absent ∨
            ∃ e, s.entry p = some e ∧ ((s.drop e.seg e.drop).link = .enrolled ∨ (s.drop e.seg e.drop).link = .lost)) := by
        rw [hlink, or_comm, or_assoc]
      rw [State.triggerIfChanged_eq] at howner
      refine State.executes_of_owner rfl hdue howner hports
        ⟨(congrArg State.roster hv :), State.retention_of_trigger hpower (congrArg State.retention hv :), fun h => absurd h hsame,
          fun _ => ⟨hloads.col, hcols, fun g' d' hgd => ?_, fun e he => ⟨fun h => ?_, fun h => ?_, fun h h' => ?_⟩, fun h h' => ?_,
          ?_, ⟨fun hp hm => ⟨fun x => ?_, ?_⟩, fun hm => ⟨?_, fun x hx => ?_⟩⟩, ?_⟩⟩
      · refine (hloads.drops g' d').trans (hparts.drops g' d' fun e he h => hgd ⟨e.serial, ?_⟩)
        rw [he, h.1, h.2]
      · exact (hloads.drops _ _).trans ((hparts.leaves e he).enrolled h)
      · exact (hloads.drops _ _).trans ((hparts.leaves e he).lost h)
      · exact (hloads.drops _ _).trans ((hparts.leaves e he).other h h')
      · obtain ⟨h1, h2⟩ := hloads.counts (by rwa [hcls]) (by rwa [hmark])
        exact ⟨h1.trans (congrArg State.holdCount hparts.kept :), h2.trans (congrArg State.outCount hparts.kept :)⟩
      · have hfirst : ((u.emptied p).testWatches p).watches = ((s.emptied p).testWatches p).watches :=
          State.testWatches_congr (s := s.emptied p) (t := u.emptied p) hparts.watches
            (by rw [State.emptied, State.emptied, State.col_modCol_self, State.col_modCol_self])
        have hwatches := hloads.watches
        rw [hfirst] at hwatches
        exact hwatches
      · by_cases hx : x = p
        · rw [hx]
          exact (congrArg Column.creep hloads.col :)
        · exact (hstirs.awake hp (hmoved.mpr hm)).2 x hx
      · exact (hstirs.awake hp (hmoved.mpr hm)).1
      · exact (hstirs.asleep fun h => hm.elim (fun hn => hn h.1) fun hn => hn (hmoved.mp h.2)).1
      · have hcreep := (hstirs.asleep fun h => hm.elim (fun hn => hn h.1) fun hn => hn (hmoved.mp h.2)).2 x hx
        exact Column.eq_of_creep (hcols x hx) hcreep
      · exact (congrArg (fun w : State => { w with roster := s.roster, retention := s.retention, ports := s.ports }) hv :)

end Sys2Proof.Machine

/-! O36: CONFIRM. -/

namespace Sys2Proof.Machine

set_option Elab.async false

/-! ### The tests of CONFIRM (R10) -/

/-- The first member of an ascending list at which a partial function has a value gives that of `findSome?`. -/
theorem findSome?_of_ascending {α : Type} {n : Nat} {l : List (Fin n)} (hl : l.Pairwise (· < ·)) {f : Fin n → Option α} {k : Fin n}
    {a : α} (hk : k ∈ l) (hf : f k = some a) (hfirst : ∀ j ∈ l, j < k → f j = none) : l.findSome? f = some a := by
  obtain ⟨before, after, rfl⟩ := List.append_of_mem hk
  rw [List.pairwise_append] at hl
  obtain ⟨-, -, hcross⟩ := hl
  have hbefore : before.findSome? f = none := List.findSome?_eq_none_iff.mpr fun j hj =>
    hfirst j (List.mem_append_left _ hj) (hcross j hj k List.mem_cons_self)
  rw [List.findSome?_append, hbefore, Option.none_or, List.findSome?_cons, hf]

section
variable {s : State} {p : Pos}

/-- A position that is not valid, in a car that is present. -/
def State.incompleteAt (s : State) (p : Pos) : Prop :=
  s.entry p = none ∧ s.carPresent (carOf p) = true

/-- A position whose drop is neither READY nor ENROLLED. -/
def State.notReadyAt (s : State) (p : Pos) : Prop :=
  ∃ e, s.entry p = some e ∧ (s.drop e.seg e.drop).link ≠ .ready ∧ (s.drop e.seg e.drop).link ≠ .enrolled

/-- A position whose drop has another serial than the roster expects. -/
def State.differsAt (s : State) (p : Pos) : Prop :=
  ∃ e, s.entry p = some e ∧ e.serial.isSome = true ∧ (s.drop e.seg e.drop).cap.serial ≠ e.serial

theorem State.confirmFault_incomplete (h : s.incompleteAt p) : s.confirmFault p = some .carIncomplete := by
  obtain ⟨hnone, hcar⟩ := h
  unfold State.confirmFault
  rw [hnone]
  exact if_pos hcar

theorem State.confirmFault_notReady (h : s.notReadyAt p) : s.confirmFault p = some .dropNotReady := by
  obtain ⟨e, he, hlink⟩ := h
  unfold State.confirmFault
  rw [he]
  exact if_pos hlink

theorem State.confirmFault_differs (hready : ¬ s.notReadyAt p) (h : s.differsAt p) : s.confirmFault p = some .serialDiffers := by
  obtain ⟨e, he, hserial⟩ := h
  unfold State.confirmFault
  rw [he]
  dsimp only
  rw [if_neg fun hl => hready ⟨e, he, hl⟩, if_pos hserial]

theorem State.confirmFault_passes (hcar : ¬ s.incompleteAt p) (hready : ¬ s.notReadyAt p) (hserial : ¬ s.differsAt p) :
    s.confirmFault p = none := by
  unfold State.confirmFault
  cases he : s.entry p with
  | none => exact if_neg fun hc => hcar ⟨he, hc⟩
  | some e =>
    dsimp only
    rw [if_neg fun hl => hready ⟨e, he, hl⟩, if_neg fun hs => hserial ⟨e, he, hs⟩]

theorem State.firstConfirmFault_eq {r : Reason} (hp : s.confirmFault p = some r) (hfirst : ∀ x < p, s.confirmFault x = none) :
    s.firstConfirmFault = some (r, p) :=
  findSome?_of_ascending (List.pairwise_lt_finRange 48) (List.mem_finRange p) (by rw [hp]; rfl) fun x _ hx => by
    rw [hfirst x hx]
    rfl

theorem State.firstConfirmFault_none (h : ∀ x, s.confirmFault x = none) : s.firstConfirmFault = none :=
  List.findSome?_eq_none_iff.mpr fun x _ => by
    rw [h x]
    rfl

theorem State.validPositions_eq_nil : s.validPositions = [] ↔ ∀ p, s.entry p = none := by
  rw [List.eq_nil_iff_forall_not_mem]
  refine forall_congr' fun p => ?_
  rw [State.mem_validPositions, State.validPos]
  cases s.entry p <;> simp

/-- CONFIRM from the holder in IDLE, by its first fault. -/
theorem ownerConfirm_eq {q : PortId} (hholder : s.holder = some q) (hphase : s.phase = .idle) : ownerConfirm q s [] =
    if s.validPositions = [] then (s, .incomplete .emptyRoster none)
    else match s.firstConfirmFault with
      | some (reason, p) => (s, .incomplete reason (some p))
      | none => (s.acceptConfirm, .plain .done) := by
  unfold ownerConfirm
  rw [State.rosterRefusal_eq_none hholder hphase]
  exact if_neg (not_not_intro rfl)

end

/-! ### The enrolments of a CONFIRM (R11) -/

/-- Whether the drop of a position is READY. -/
def State.readyAt (s : State) (p : Pos) : Bool :=
  (s.entry p).any fun e => decide ((s.drop e.seg e.drop).link = .ready)

theorem State.readyAt_iff {s : State} {p : Pos} :
    s.readyAt p = true ↔ ∃ e, s.entry p = some e ∧ (s.drop e.seg e.drop).link = .ready := by
  unfold State.readyAt
  cases s.entry p <;> simp

/-- What the enrolment of the READY drops of a list of positions makes of a state. -/
structure State.enrolling (s t : State) (l : List Pos) : Prop where
  enrolled : ∀ p e, s.entry p = some e → p ∈ l → (s.drop e.seg e.drop).link = .ready →
    t.drop e.seg e.drop = (s.drop e.seg e.drop).enter .enrolled ∧
      { t.col p with creep := (s.col p).creep } = (s.col p).mirrors ((s.drop e.seg e.drop).enter .enrolled)
  drops : ∀ g d, (∀ p ∈ l, s.mappedAt g d = some p → (s.drop g d).link ≠ .ready) → t.drop g d = s.drop g d
  cols : ∀ p, (p ∉ l ∨ s.readyAt p = false) → { t.col p with creep := (s.col p).creep } = s.col p
  stirs : s.stirs t (∃ p ∈ l, s.readyAt p = true) fun _ => True
  watches : t.watches = ((l.filter s.readyAt).foldl State.testWatches { t with watches := s.watches }).watches
  kept : { t with segs := s.segs, cols := s.cols, watches := s.watches } = s

theorem State.enrolAt_ready {s : State} {p : Pos} {e : RosterEntry} (he : s.entry p = some e)
    (hl : (s.drop e.seg e.drop).link = .ready) : s.enrolAt p = s.changeLink e.seg e.drop .enrolled := by
  unfold State.enrolAt
  rw [he]
  exact if_pos hl

theorem State.enrolAt_other {s : State} {p : Pos} (h : s.readyAt p = false) : s.enrolAt p = s := by
  unfold State.enrolAt
  cases he : s.entry p with
  | none => rfl
  | some e => exact if_neg fun hl => Bool.eq_false_iff.mp h (State.readyAt_iff.mpr ⟨e, he, hl⟩)

theorem State.foldl_enrolAt {l : List Pos} (hl : l.Nodup) : ∀ {s : State},
    (∀ p e, s.entry p = some e → s.mappedAt e.seg e.drop = some p) → s.enrolling (l.foldl State.enrolAt s) l := by
  induction l with
  | nil =>
    intro s _
    exact ⟨nofun, fun _ _ _ => rfl, fun _ _ => rfl, .of_same rfl rfl (fun _ => rfl) (fun _ _ => rfl) (by simp), rfl, rfl⟩
  | cons p l ih =>
    intro s hm
    obtain ⟨hp, hl'⟩ := List.nodup_cons.mp hl
    rw [List.foldl_cons]
    by_cases hready : s.readyAt p = true
    · obtain ⟨e, he, hlink⟩ := State.readyAt_iff.mp hready
      rw [State.enrolAt_ready he hlink]
      have h := State.changeLink_relinks (s := s) (g := e.seg) (d := e.drop) (new := .enrolled) (by rw [hlink]; decide)
      generalize s.changeLink e.seg e.drop .enrolled = v at h
      have hroster : v.roster = s.roster := (congrArg State.roster h.kept :)
      have hentry : ∀ x, v.entry x = s.entry x := State.entry_congr hroster
      have hmv : ∀ x e, v.entry x = some e → v.mappedAt e.seg e.drop = some x := fun x e' he' => by
        rw [State.mappedAt_congr hroster]
        exact hm x e' (by rw [← hentry]; exact he')
      have hu := ih hl' hmv
      generalize l.foldl State.enrolAt v = u at hu
      have hmp := hm p e he
      have hdrop : ∀ x e', s.entry x = some e' → x ≠ p → v.drop e'.seg e'.drop = s.drop e'.seg e'.drop := fun x e' he' hx => by
        rw [h.drops, if_neg]
        rintro ⟨hg, hd⟩
        have hmx := hm x e' he'
        rw [hg, hd, hmp] at hmx
        exact hx (Option.some.inj hmx).symm
      have hreadyv : ∀ x, x ≠ p → v.readyAt x = s.readyAt x := fun x hx => by
        rw [Bool.eq_iff_iff, State.readyAt_iff, State.readyAt_iff]
        refine exists_congr fun e' => ?_
        rw [hentry]
        exact and_congr_right fun he' => by rw [hdrop x e' he' hx]
      have hcolp : { u.col p with creep := (s.col p).creep } = (s.col p).mirrors ((s.drop e.seg e.drop).enter .enrolled) := by
        have h1 := (congrArg (fun c : Column => { c with creep := (s.col p).creep }) (hu.cols p (.inl hp)) :)
        have h2 := h.cols p
        rw [if_pos hmp] at h2
        exact h1.trans h2
      have hcol : ∀ x, x ≠ p → { v.col x with creep := (s.col x).creep } = s.col x := fun x hx => by
        have h2 := h.cols x
        rw [if_neg fun hx' => hx (Option.some.inj (hx'.symm.trans hmp))] at h2
        exact h2
      refine ⟨fun x e' he' hx hl2 => ?_, fun g d hgd => ?_, fun x hx => ?_, (h.stirs.trans hu.stirs).congr ?_, ?_, ?_⟩
      · by_cases hxp : x = p
        · subst hxp
          cases he.symm.trans he'
          refine ⟨?_, hcolp⟩
          rw [hu.drops _ _ fun y hy hmy => ?_, h.drops, if_pos ⟨rfl, rfl⟩]
          rw [State.mappedAt_congr hroster, hmp] at hmy
          exact absurd (Option.some.inj hmy ▸ hy) hp
        · have hxl : x ∈ l := (List.mem_cons.mp hx).resolve_left hxp
          obtain ⟨h1, h2⟩ := hu.enrolled x e' ((hentry x).trans he') hxl (by rw [hdrop x e' he' hxp]; exact hl2)
          rw [hdrop x e' he' hxp] at h1 h2
          refine ⟨h1, ?_⟩
          exact (congrArg (fun c : Column => { c with creep := (s.col x).creep }) h2 :).trans
            (congrArg (fun c : Column => c.mirrors ((s.drop e'.seg e'.drop).enter .enrolled)) (hcol x hxp) :)
      · have hv : v.drop g d = s.drop g d := by
          rw [h.drops, if_neg]
          rintro ⟨rfl, rfl⟩
          exact hgd p List.mem_cons_self hmp hlink
        refine (hu.drops g d fun y hy hmy => ?_).trans hv
        rw [hv]
        exact hgd y (List.mem_cons_of_mem p hy) (by rwa [State.mappedAt_congr hroster] at hmy)
      · have hxp : x ≠ p := by
          rintro rfl
          exact hx.elim (fun hn => hn List.mem_cons_self) fun hn => Bool.eq_false_iff.mp hn hready
        have hx' : x ∉ l ∨ v.readyAt x = false := hx.imp (fun hn hxl => hn (List.mem_cons_of_mem p hxl)) fun hn => by
          rwa [hreadyv x hxp]
        exact (congrArg (fun c : Column => { c with creep := (s.col x).creep }) (hu.cols x hx') :).trans (hcol x hxp)
      · exact ⟨fun _ => ⟨p, List.mem_cons_self, hready⟩, fun _ => .inl trivial⟩
      · have hfilter : l.filter v.readyAt = l.filter s.readyAt :=
          List.filter_congr fun x hx => hreadyv x fun hxp => hp (hxp ▸ hx)
        have hfirst : v.watches = (({ u with watches := s.watches } : State).testWatches p).watches := by
          rw [h.tested p hmp]
          exact (State.testWatches_congr (s := { v with watches := s.watches }) (t := { u with watches := s.watches }) rfl
            (hu.cols p (.inl hp))).symm
        have hwatches := hu.watches
        rw [hfilter, hfirst] at hwatches
        rw [List.filter_cons_of_pos hready, List.foldl_cons]
        exact hwatches
      · exact (congrArg (fun w : State => { w with segs := s.segs, cols := s.cols, watches := s.watches }) hu.kept :).trans h.kept
    · have hother : s.readyAt p = false := Bool.eq_false_iff.mpr hready
      rw [State.enrolAt_other hother]
      have hu := ih hl' hm
      refine ⟨fun x e he hx hlink => hu.enrolled x e he ?_ hlink, fun g d hgd => hu.drops g d fun y hy =>
        hgd y (List.mem_cons_of_mem p hy), fun x hx => hu.cols x ?_, hu.stirs.congr ?_, ?_, hu.kept⟩
      · refine (List.mem_cons.mp hx).resolve_left ?_
        rintro rfl
        exact hready (State.readyAt_iff.mpr ⟨e, he, hlink⟩)
      · exact hx.imp (fun hn hxl => hn (List.mem_cons_of_mem p hxl)) id
      · rw [List.exists_mem_cons_iff, hother]
        simp
      · rw [List.filter_cons_of_neg hready]
        exact hu.watches

/-! ### A successful CONFIRM (R11) -/

/-- The roster with its serials pinned, as a state. -/
def State.pinnedRoster (s : State) : State :=
  { s with roster := { s.roster with entries := .build s.pinned } }

theorem State.entry_pinnedRoster (s : State) (p : Pos) :
    s.pinnedRoster.entry p = (s.entry p).map fun e => { e with serial := e.serial.or (s.drop e.seg e.drop).cap.serial } := by
  have hget : s.pinnedRoster.entry p = s.pinned p := Table.get_build s.pinned p
  rw [hget, State.pinned]
  refine Option.map_congr fun e _ => ?_
  obtain ⟨g, d, serial⟩ := e
  cases serial <;> rfl

theorem State.mappedAt_pinnedRoster (s : State) : s.pinnedRoster.mappedAt = s.mappedAt := by
  funext g d
  unfold State.mappedAt
  congr 1
  funext p
  rw [State.entry_pinnedRoster]
  cases s.entry p <;> rfl

theorem State.readyAt_pinnedRoster (s : State) : s.pinnedRoster.readyAt = s.readyAt := by
  funext p
  unfold State.readyAt
  rw [State.entry_pinnedRoster]
  cases s.entry p <;> rfl

/-- The state that a successful CONFIRM leaves before its write. -/
def State.confirmedOf (t : State) : State :=
  ({ t with roster := { t.roster with confirmed := true } } : State).clearLatches

/-- Tests of the same records make the same of the same watches. -/
theorem State.foldl_testWatches_congr {l : List Pos} : ∀ {s t : State}, t.watches = s.watches →
    (∀ p ∈ l, WatchState.tested p (t.col p) = WatchState.tested p (s.col p)) →
    (l.foldl State.testWatches t).watches = (l.foldl State.testWatches s).watches := by
  induction l with
  | nil => exact fun h _ => h
  | cons p l ih =>
    intro s t hw hcol
    refine ih ?_ fun x hx => hcol x (List.mem_cons_of_mem p hx)
    rw [State.testWatches_watches, State.testWatches_watches, hw, hcol p List.mem_cons_self]

theorem State.acceptConfirm_eq (s : State) :
    s.acceptConfirm = ((List.finRange 48).foldl State.enrolAt s.pinnedRoster).confirmedOf.trigger := by
  simp only [State.acceptConfirm, State.confirmedOf, State.pinnedRoster]

theorem State.trigger_eq (s : State) : s.trigger =
    { s with retention := if s.power = .running then s.retention.triggered s.image else s.retention } := by
  by_cases hp : s.power = .running
  · rw [State.trigger_running s hp, if_pos hp]
  · rw [State.trigger_not_running hp, if_neg hp]

/-- Settles O36: the refusals in order, and the pinning and the enrolments of a success. -/
theorem confirmEffect : Obligations.ConfirmEffect := by
  unfold Obligations.ConfirmEffect
  intro s q tag hroster hmirrored hholder hphase hdue incomplete notReady differs passes
  obtain ⟨hinj, -⟩ := hroster
  obtain ⟨hlinks, -, -⟩ := hmirrored
  have howner := ownerConfirm_eq hholder hphase
  have hpass : ∀ x, passes x → s.confirmFault x = none := fun x ⟨h1, h2, h3⟩ => State.confirmFault_passes h1 h2 h3
  refine ⟨fun hnone => ?_, fun hsome => ⟨fun p hfirst => ?_, fun hall => ?_⟩⟩
  · rw [if_pos (State.validPositions_eq_nil.mpr hnone)] at howner
    exact State.onlyAnswers_of_owner rfl hdue howner
  · rw [if_neg fun h => hsome.elim fun p hp => hp (State.validPositions_eq_nil.mp h p)] at howner
    have hfault : ∀ r, s.confirmFault p = some r → s.onlyAnswers q .confirm tag (.incomplete r (some p)) := fun r hr => by
      rw [State.firstConfirmFault_eq hr fun x hx => hpass x (hfirst x hx)] at howner
      exact State.onlyAnswers_of_owner rfl hdue howner
    exact ⟨fun h => hfault _ (State.confirmFault_incomplete h), fun h => hfault _ (State.confirmFault_notReady h),
      fun h1 h2 => hfault _ (State.confirmFault_differs h1 h2)⟩
  · rw [if_neg fun h => hsome.elim fun p hp => hp (State.validPositions_eq_nil.mp h p),
      State.firstConfirmFault_none fun x => hpass x (hall x)] at howner
    dsimp only at howner
    have hm : ∀ p e, s.pinnedRoster.entry p = some e → s.pinnedRoster.mappedAt e.seg e.drop = some p := fun p e he => by
      rw [State.entry_pinnedRoster, Option.map_eq_some_iff] at he
      obtain ⟨e', he', rfl⟩ := he
      rw [State.mappedAt_pinnedRoster]
      exact State.mappedAt_of_entry (e := e') hinj he'
    have hu := State.foldl_enrolAt (List.nodup_finRange 48) hm
    rw [State.acceptConfirm_eq, State.trigger_eq] at howner
    generalize (List.finRange 48).foldl State.enrolAt s.pinnedRoster = u at hu howner
    have hpower : u.power = s.power := (congrArg State.power hu.kept :)
    have hretention : u.retention = s.retention := (congrArg State.retention hu.kept :)
    have hports : u.ports = s.ports := (congrArg State.ports hu.kept :)
    have hentry : ∀ p, u.confirmedOf.entry p =
        (s.entry p).map fun e => { e with serial := e.serial.or (s.drop e.seg e.drop).cap.serial } := fun p => by
      rw [← State.entry_pinnedRoster]
      exact congrArg (fun es : Table (Option RosterEntry) 48 => es.get p) (congrArg (fun w : State => w.roster.entries) hu.kept :)
    have hlatch : ∀ p, u.confirmedOf.col p = { u.col p with wasLost := false } := fun p => State.col_mapCols _ _ p
    refine State.executes_of_owner rfl hdue howner hports ⟨rfl, ?_, fun p hp => ?_, fun p e he => ?_, fun p e he => ?_,
      fun g d hgd => ?_, fun p => ?_, ?_, ⟨?_, fun hp hany => ?_, fun hn => ?_⟩, ?_⟩
    · exact (congrArg (fun w : State => w.roster.links) hu.kept :)
    · exact (hentry p).trans (by rw [hp]; rfl)
    · exact (hentry p).trans (by rw [he]; rfl)
    · by_cases hready : (s.drop e.seg e.drop).link = .ready
      · have he' : s.pinnedRoster.entry p = some { e with serial := e.serial.or (s.drop e.seg e.drop).cap.serial } := by
          rw [State.entry_pinnedRoster, he]
          rfl
        obtain ⟨hdrop, -⟩ := hu.enrolled p _ he' (List.mem_finRange p) hready
        exact (congrArg (fun d : Drop =>
          { d with settle := (s.drop e.seg e.drop).settle, page := (s.drop e.seg e.drop).page }) hdrop :)
      · have hdrop := hu.drops e.seg e.drop fun _ _ _ => hready
        have henrolled : (s.drop e.seg e.drop).link = .enrolled :=
          by_contra fun hn => (hall p).2.1 ⟨e, he, hready, hn⟩
        have hsame : { s.drop e.seg e.drop with link := .enrolled } = s.drop e.seg e.drop := by rw [← henrolled]
        exact (congrArg (fun d : Drop =>
          { d with settle := (s.drop e.seg e.drop).settle, page := (s.drop e.seg e.drop).page }) hdrop :).trans hsame.symm
    · exact hu.drops g d fun p _ hp => by
        rw [State.mappedAt_pinnedRoster, hgd] at hp
        cases hp
    · have hcol : { u.confirmedOf.col p with creep := (s.col p).creep } =
          { ({ u.col p with creep := (s.col p).creep } : Column) with wasLost := false } :=
        (congrArg (fun c : Column => { c with creep := (s.col p).creep }) (hlatch p) :)
      refine hcol.trans ?_
      obtain ⟨hmirror, -⟩ := hlinks p
      cases he : s.entry p with
      | none =>
        have hkept := hu.cols p (.inr (by rw [State.readyAt_pinnedRoster, State.readyAt, he]; rfl))
        rw [if_neg (by simp [State.validPos, he])]
        exact (congrArg (fun c : Column => { c with wasLost := false }) hkept :)
      | some e =>
        obtain ⟨hlink, hcap⟩ := hmirror e he
        rw [if_pos (by simp [State.validPos, he])]
        by_cases hready : (s.drop e.seg e.drop).link = .ready
        · have he' : s.pinnedRoster.entry p = some { e with serial := e.serial.or (s.drop e.seg e.drop).cap.serial } := by
            rw [State.entry_pinnedRoster, he]
            rfl
          obtain ⟨-, hmirrored⟩ := hu.enrolled p _ he' (List.mem_finRange p) hready
          have hcap' : { s.col p with link := .enrolled } = (s.col p).mirrors ((s.drop e.seg e.drop).enter .enrolled) :=
            (congrArg (fun k : Capability => { s.col p with link := .enrolled, cap := k }) hcap :)
          exact (congrArg (fun c : Column => { c with wasLost := false }) (hmirrored.trans hcap'.symm) :)
        · have henrolled : (s.drop e.seg e.drop).link = .enrolled :=
            by_contra fun hn => (hall p).2.1 ⟨e, he, hready, hn⟩
          have hkept := hu.cols p (.inr (by
            rw [State.readyAt_pinnedRoster, State.readyAt, he]
            exact decide_eq_false hready))
          have hsame : { s.col p with link := .enrolled } = s.col p := by rw [← henrolled, ← hlink]
          exact (congrArg (fun c : Column => { c with wasLost := false }) (hkept.trans hsame.symm) :)
    · have hwritten : (if u.confirmedOf.power = .running then u.confirmedOf.retention.triggered u.confirmedOf.image
          else u.confirmedOf.retention) = if s.power = .running then s.retention.triggered u.confirmedOf.image else s.retention := by
        rw [show u.confirmedOf.power = s.power from hpower, show u.confirmedOf.retention = s.retention from hretention]
      exact hwritten
    · have hwatches := hu.watches
      rw [State.readyAt_pinnedRoster] at hwatches
      refine hwatches.trans (State.foldl_testWatches_congr rfl fun p _ => ?_)
      have htested : WatchState.tested p (u.confirmedOf.col p) = WatchState.tested p (u.col p) := by
        rw [hlatch]
        rfl
      exact htested.symm
    · obtain ⟨hcreep, hlines⟩ := hu.stirs.wakes hp (hany.imp fun x hx => ⟨List.mem_finRange x, by
        rw [State.readyAt_pinnedRoster]
        exact hx⟩)
      exact ⟨fun p => (congrArg Column.creep (hlatch p) :).trans (hcreep p), hlines⟩
    · obtain ⟨hcreep, hlines⟩ := hu.stirs.rests fun ⟨hp, x, _, hx⟩ => by
        rw [State.readyAt_pinnedRoster] at hx
        exact hn.elim (fun h => h hp) fun h => Bool.eq_false_iff.mp (h x) hx
      exact ⟨fun p => (congrArg Column.creep (hlatch p) :).trans (hcreep p), hlines⟩
    · exact (congrArg (fun w : State => { w with roster := s.roster, retention := s.retention, ports := s.ports }) hu.kept :)

end Sys2Proof.Machine

/-! What a reply makes of its drop, whole (R48, R51 to R55), and O48: the reply of an unmapped drop. -/

namespace Sys2Proof.Machine

set_option Elab.async false

/-! ### One drop changed, with its column, the watches and the wake -/

/-- Between `s` and `t` drop `d` on segment `g` has become `x` and the notices `n`: with a wake and the watches' test where `moved`
holds, and with the copy in the mapped column where `copied` holds. -/
structure State.redrops (s t : State) (g : SegId) (d : DropId) (x : Drop) (n : Table NoticeState 4) (moved copied : Prop) : Prop where
  drop : t.drop g d = x
  drops : ∀ g' d', ¬ (g' = g ∧ d' = d) → t.drop g' d' = s.drop g' d'
  copies : ∀ p, s.mappedAt g d = some p → copied → { t.col p with creep := (s.col p).creep } = (s.col p).mirrors x
  cols : ∀ p, s.mappedAt g d ≠ some p ∨ ¬ copied → { t.col p with creep := (s.col p).creep } = s.col p
  stirs : s.stirs t moved fun _ => True
  untested : s.mappedAt g d = none ∨ ¬ moved → t.watches = s.watches
  tested : ∀ p, s.mappedAt g d = some p → moved → t.watches = (({ t with watches := s.watches } : State).testWatches p).watches
  notices : t.notices = n
  kept : { t with segs := s.segs, cols := s.cols, watches := s.watches, notices := s.notices } = s

/-- A notice is no wake. -/
theorem State.stirs.raise {s t : State} {a : Prop} {held : Pos → Prop} (h : s.stirs t a held) (k : Category) :
    s.stirs (t.raise k) a held :=
  ⟨h.power, h.phase, h.awake, h.asleep⟩

namespace State.redrops
variable {s u t : State} {g : SegId} {d : DropId} {x y : Drop} {n m : Table NoticeState 4} {a b c : Prop}

/-- A change of the drop alone. -/
theorem of_modDrop (s : State) (g : SegId) (d : DropId) (f : Drop → Drop) :
    s.redrops (s.modDrop g d f) g d (f (s.drop g d)) s.notices False False where
  drop := s.drop_modDrop_self g d f
  drops g' d' h := (s.drop_modDrop g g' d d' f).trans (if_neg h)
  copies _ _ h := h.elim
  cols _ _ := rfl
  stirs := .of_same rfl rfl (fun g' => s.modDrop_segs g g' d f) (fun _ _ => rfl) not_false
  untested _ := rfl
  tested _ _ h := h.elim
  notices := rfl
  kept := rfl

/-- A change of link state. -/
theorem of_changeLink {new : LinkState} (hne : (s.drop g d).link ≠ new) :
    s.redrops (s.changeLink g d new) g d ((s.drop g d).enter new) s.notices True True := by
  have h := State.changeLink_relinks hne
  refine ⟨?_, fun g' d' hgd => ?_, fun p hm _ => ?_, fun p hm => ?_, h.stirs, fun hm => h.untested (hm.resolve_right (not_not_intro trivial)),
    fun p hm _ => h.tested p hm, (congrArg State.notices h.kept :), ?_⟩
  · rw [h.drops, if_pos ⟨rfl, rfl⟩]
  · rw [h.drops, if_neg hgd]
  · rw [h.cols, if_pos hm]
  · rw [h.cols, if_neg (hm.resolve_right (not_not_intro trivial))]
  · exact (congrArg (fun w : State => { w with notices := s.notices }) h.kept :)

/-- A stored page: the drop and the copy in its column (R51). -/
theorem of_storePage (s : State) (g : SegId) (d : DropId) (cap : Capability) (page : Fin 4) :
    s.redrops (s.storePage g d cap page) g d { s.drop g d with cap := cap, page := page } s.notices False True := by
  have hmap : (s.modDrop g d fun x => { x with cap := cap, page := page }).mappedAt g d = s.mappedAt g d := rfl
  cases hm : s.mappedAt g d with
  | none =>
    have hstore : s.storePage g d cap page = s.modDrop g d fun x => { x with cap := cap, page := page } := by
      simp [State.storePage, State.mirror, hmap, hm]
    have h := State.redrops.of_modDrop s g d fun x => { x with cap := cap, page := page }
    rw [hstore]
    refine ⟨h.drop, h.drops, fun p hp => ?_, fun p _ => rfl, h.stirs, h.untested, h.tested, rfl, rfl⟩
    cases hm.symm.trans hp
  | some y =>
    have hstore : s.storePage g d cap page = (s.modDrop g d fun x => { x with cap := cap, page := page }).modCol y fun k =>
        k.mirrors { s.drop g d with cap := cap, page := page } := by
      simp [State.storePage, State.mirror, hmap, hm, Column.mirrors]
    have h := State.redrops.of_modDrop s g d fun x => { x with cap := cap, page := page }
    have hcol : ∀ p, (s.storePage g d cap page).col p =
        if p = y then (s.col p).mirrors { s.drop g d with cap := cap, page := page } else s.col p := fun p => by
      rw [hstore]
      exact State.col_modCol _ y p _
    refine ⟨by rw [hstore]; exact h.drop, fun g' d' hgd => by rw [hstore]; exact h.drops g' d' hgd, fun p hp _ => ?_, fun p hp => ?_,
      .of_same (by rw [hstore]; rfl) (by rw [hstore]; rfl) (fun g' => by rw [hstore]; exact s.modDrop_segs g g' d _) (fun p _ => ?_)
        not_false, fun _ => by rw [hstore]; rfl, fun _ _ h => h.elim, by rw [hstore]; rfl, by rw [hstore]; rfl⟩
    · cases hm.symm.trans hp
      rw [hcol, if_pos rfl]
      rfl
    · rw [hcol, if_neg]
      rintro rfl
      exact hp.elim (fun hn => hn hm) fun hn => hn trivial
    · rw [hcol]
      split <;> rfl

/-- A notice raised besides. -/
theorem raise (h : s.redrops t g d x n a b) (k : Category) : s.redrops (t.raise k) g d x (n.map (NoticeState.raised k)) a b where
  drop := h.drop
  drops := h.drops
  copies := h.copies
  cols := h.cols
  stirs := h.stirs.raise k
  untested := h.untested
  tested := h.tested
  notices := congrArg (Table.map (NoticeState.raised k)) h.notices
  kept := h.kept

/-- Two changes of the drop, of which the second alone can be one of the link state. -/
theorem trans (h1 : s.redrops u g d x n False a) (h2 : u.redrops t g d y m b c) (hac : a → c) : s.redrops t g d y m b c := by
  have hmap : u.mappedAt = s.mappedAt := State.mappedAt_congr (congrArg State.roster h1.kept :)
  have hwatches : u.watches = s.watches := h1.untested (.inr not_false)
  have hcopies := h2.copies
  have hcols := h2.cols
  have huntested := h2.untested
  have htested := h2.tested
  rw [hmap] at hcopies hcols huntested htested
  rw [hwatches] at huntested htested
  refine ⟨h2.drop, fun g' d' hgd => (h2.drops g' d' hgd).trans (h1.drops g' d' hgd), fun p hp hc => ?_, fun p hp => ?_,
    (h1.stirs.trans h2.stirs).congr (by simp), huntested, htested, h2.notices, ?_⟩
  · refine (congrArg (fun k : Column => { k with creep := (s.col p).creep }) (hcopies p hp hc) :).trans ?_
    by_cases ha : a
    · exact (congrArg (fun k : Column => k.mirrors y) (h1.copies p hp ha) :)
    · exact (congrArg (fun k : Column => k.mirrors y) (h1.cols p (.inr ha)) :)
  · exact (congrArg (fun k : Column => { k with creep := (s.col p).creep }) (hcols p hp) :).trans
      (h1.cols p (hp.imp id fun hn ha => hn (hac ha)))
  · exact (congrArg (fun w : State => { w with segs := s.segs, cols := s.cols, watches := s.watches, notices := s.notices })
      h2.kept :).trans h1.kept

/-- The same change, with the notion of a move put otherwise. -/
theorem congr (h : s.redrops t g d x n a c) (hab : a ↔ b) : s.redrops t g d x n b c :=
  (propext hab : a = b) ▸ h

end State.redrops

/-! ### The reply of a drop (R48, R51 to R55) -/

/-- The drop whose reply has been accepted, before its enrolment moves on. -/
def Drop.heard (d : Drop) : Drop :=
  { d with miss := 0 }

/-- A drop with page 2 accepted, in the link state that follows (R53, R55). -/
def Drop.paged (d : Drop) (r : Report) (l : LinkState) : Drop :=
  { d with link := l, settle := .stopped, page := 3, cap := { d.cap with maxSpeed := some (min r.high 400) } }

/-- A drop that the part cannot accept (R52, R53). -/
def Drop.refused (d : Drop) : Drop :=
  { d with link := .refused, settle := .stopped, page := 3 }

section
variable {s : State} {g : SegId} {x : Exchange} {r : Report} {n : Table NoticeState 4} {d : Drop}

theorem State.enrols_of_fresh (h : (s.drop g x.drop).link = .absent ∨ (s.drop g x.drop).link = .lost) :
    s.enrols g x r ((s.drop g x.drop).heard.enter .settling) s.notices := by
  refine ⟨fun _ => ⟨rfl, rfl⟩, fun h' => ?_, fun h' => ?_, fun h' => ?_⟩
  · rcases h with h | h <;> simp [h] at h'
  · rcases h with h | h <;> simp [h] at h'
  · rcases h with h | h <;> simp [h] at h'

theorem State.enrols_of_settled (h1 : (s.drop g x.drop).link ≠ .absent) (h2 : (s.drop g x.drop).link ≠ .lost)
    (h3 : (s.drop g x.drop).link ≠ .paging) : s.enrols g x r (s.drop g x.drop).heard s.notices :=
  ⟨fun h => (h.elim h1 h2).elim, fun _ => ⟨rfl, rfl⟩, fun h => absurd h h3, fun h => absurd h h3⟩

theorem State.enrols_of_no_page (h : (s.drop g x.drop).link = .paging)
    (hpage : ¬ (r.page = (s.drop g x.drop).page ∧ x.page = (s.drop g x.drop).page) ∨ r.page = 3) :
    s.enrols g x r (s.drop g x.drop).heard s.notices := by
  refine ⟨fun h' => ?_, fun _ => ⟨rfl, rfl⟩, fun _ _ => ⟨rfl, rfl⟩, fun _ h1 h2 => ?_⟩
  · rcases h' with h' | h' <;> exact absurd (h.symm.trans h') (by decide)
  · have h1' : r.page = (s.drop g x.drop).page := h1
    have h3 : (s.drop g x.drop).page = 3 := h1' ▸ hpage.resolve_left fun hn => hn ⟨h1, h2⟩
    exact ⟨fun h' => absurd (h3.symm.trans h') (by decide), fun h' => absurd (h3.symm.trans h') (by decide),
      fun h' => absurd (h3.symm.trans h') (by decide), fun h' => absurd (h3.symm.trans h') (by decide),
      fun h' => absurd (h3.symm.trans h') (by decide)⟩

/-- What a taken page has to satisfy: the clauses of the page that it is (R51 to R53, R55). -/
theorem State.enrols_of_page (h : (s.drop g x.drop).link = .paging) (hr : r.page = (s.drop g x.drop).page)
    (hx : x.page = (s.drop g x.drop).page) (h3 : r.page ≠ 3)
    (h0 : r.page = 0 → d = { (s.drop g x.drop).heard with
      page := 1, cap := { (s.drop g x.drop).cap with serial := some r.data } } ∧ n = s.notices)
    (h1low : r.page = 1 → r.low < 1000 → d = (s.drop g x.drop).heard.refused ∧ n = s.noticesWith .enrol)
    (h1 : r.page = 1 → 1000 ≤ r.low → d = { (s.drop g x.drop).heard with
      page := 2, cap := { (s.drop g x.drop).cap with stroke := some (min r.high 40000), rated := some r.low } } ∧ n = s.notices)
    (h2low : r.page = 2 → r.high < 10 → d = (s.drop g x.drop).heard.refused ∧ n = s.noticesWith .enrol)
    (h2 : r.page = 2 → 10 ≤ r.high →
      (s.mappedAt g x.drop = none → d = (s.drop g x.drop).heard.paged r .ready ∧ n = s.noticesWith .enrol) ∧
      ∀ p e, s.mappedAt g x.drop = some p → s.entry p = some e →
        (s.roster.confirmed = true → e.serial.isSome = true → (s.drop g x.drop).cap.serial = e.serial →
          d = (s.drop g x.drop).heard.paged r .enrolled ∧ n = s.noticesWith .enrol) ∧
        (e.serial.isSome = true → (s.drop g x.drop).cap.serial ≠ e.serial →
          d = (s.drop g x.drop).heard.paged r .ready ∧ n = s.noticesWith .rosterMismatch) ∧
        (e.serial = none ∨ s.roster.confirmed = false ∧ (s.drop g x.drop).cap.serial = e.serial →
          d = (s.drop g x.drop).heard.paged r .ready ∧ n = s.noticesWith .enrol)) : s.enrols g x r d n := by
  refine ⟨fun h' => ?_, fun h' => ?_, fun _ h' => ?_, fun _ _ _ => ⟨fun h' => h0 (hr.trans h'), fun h' => h1low (hr.trans h'),
    fun h' => h1 (hr.trans h'), fun h' => h2low (hr.trans h'), fun h' => h2 (hr.trans h')⟩⟩
  · rcases h' with h' | h' <;> exact absurd (h.symm.trans h') (by decide)
  · rcases h' with h' | h' | h' | h' <;> exact absurd (h.symm.trans h') (by decide)
  · exact (h'.elim (fun h' => h' hr) fun h' => h'.elim (fun h' => h' hx) fun h' => h3 (hr.trans h')).elim

end

/-- What a reply makes of its drop, with the enrolment of `State.enrols`. -/
structure State.acceptsReply (s t : State) (g : SegId) (x : Exchange) (r : Report) (copied : Prop) : Prop where
  redrops : s.redrops t g x.drop (t.drop g x.drop) t.notices ((t.drop g x.drop).link ≠ (s.drop g x.drop).link) copied
  enrols : s.enrols g x r (t.drop g x.drop) t.notices
  copied : copied ∨ (t.drop g x.drop).link = (s.drop g x.drop).link ∧ (t.drop g x.drop).cap = (s.drop g x.drop).cap

theorem State.acceptsReply.of_redrops {s t : State} {g : SegId} {x : Exchange} {r : Report} {d : Drop} {n : Table NoticeState 4}
    {moved copied : Prop} (h : s.redrops t g x.drop d n moved copied) (hmoved : moved ↔ d.link ≠ (s.drop g x.drop).link)
    (hcopied : copied ∨ d.link = (s.drop g x.drop).link ∧ d.cap = (s.drop g x.drop).cap) (henrols : s.enrols g x r d n) :
    s.acceptsReply t g x r copied := by
  obtain rfl := h.drop
  obtain rfl := h.notices
  exact ⟨h.congr hmoved, henrols, hcopied⟩

/-- The state in which an acceptable reply has been counted (R30). -/
def State.heardAt (s : State) (g : SegId) (d : DropId) : State :=
  s.modDrop g d Drop.heard

theorem State.acceptReply_cases (s : State) (g : SegId) (x : Exchange) (r : Report) :
    ((s.drop g x.drop).link = .absent ∨ (s.drop g x.drop).link = .lost →
      s.acceptReply g x r = (s.heardAt g x.drop).changeLink g x.drop .settling) ∧
    ((s.drop g x.drop).link = .paging → s.acceptReply g x r = (s.heardAt g x.drop).takePage g x r) ∧
    ((s.drop g x.drop).link ≠ .absent → (s.drop g x.drop).link ≠ .lost → (s.drop g x.drop).link ≠ .paging →
      s.acceptReply g x r = s.heardAt g x.drop) := by
  have hlink : ((s.heardAt g x.drop).drop g x.drop).link = (s.drop g x.drop).link := by
    rw [State.heardAt, State.drop_modDrop_self]
    rfl
  unfold State.acceptReply
  rw [← hlink]
  dsimp only
  rw [show (s.modDrop g x.drop fun d => { d with miss := 0 }) = s.heardAt g x.drop from rfl]
  cases ((s.heardAt g x.drop).drop g x.drop).link <;> simp

theorem State.acceptReply_page {s : State} {g : SegId} {x : Exchange} {r : Report} (h : (s.drop g x.drop).link = .paging)
    (hr : r.page = (s.drop g x.drop).page) (hx : x.page = (s.drop g x.drop).page) :
    s.acceptReply g x r = match r.page with
      | 0 => (s.heardAt g x.drop).storePage g x.drop { (s.drop g x.drop).cap with serial := some r.data } 1
      | 1 => (s.heardAt g x.drop).takePage1 g x.drop r
      | 2 => (s.heardAt g x.drop).takePage2 g x.drop r
      | 3 => s.heardAt g x.drop := by
  have hdrop : (s.heardAt g x.drop).drop g x.drop = (s.drop g x.drop).heard := State.drop_modDrop_self _ _ _ _
  obtain ⟨-, hpaging, -⟩ := s.acceptReply_cases g x r
  rw [hpaging h]
  unfold State.takePage
  rw [hdrop]
  exact if_pos ⟨hr, hx⟩

theorem State.acceptReply_no_page {s : State} {g : SegId} {x : Exchange} {r : Report} (h : (s.drop g x.drop).link = .paging)
    (hpage : ¬ (r.page = (s.drop g x.drop).page ∧ x.page = (s.drop g x.drop).page)) :
    s.acceptReply g x r = s.heardAt g x.drop := by
  have hdrop : (s.heardAt g x.drop).drop g x.drop = (s.drop g x.drop).heard := State.drop_modDrop_self _ _ _ _
  obtain ⟨-, hpaging, -⟩ := s.acceptReply_cases g x r
  rw [hpaging h]
  unfold State.takePage
  rw [hdrop]
  exact if_neg hpage

section
variable {s u : State} {g : SegId} {d : DropId}

/-- A refusal raises ENROL (R52, R53). -/
theorem State.redrops_refuseDrop (h : (s.drop g d).link ≠ .refused) :
    s.redrops (s.refuseDrop g d) g d (s.drop g d).refused (s.noticesWith .enrol) True True :=
  (State.redrops.of_changeLink h).raise .enrol

/-- The end of paging by the choice of R55. -/
theorem State.redrops_endPaging (h : (s.drop g d).link ≠ (s.endOfPagingChoice g d).1) :
    s.redrops (s.endPaging g d) g d ((s.drop g d).enter (s.endOfPagingChoice g d).1)
      (s.noticesWith (s.endOfPagingChoice g d).2) True True :=
  (State.redrops.of_changeLink h).raise _

theorem State.endOfPagingChoice_link (s : State) (g : SegId) (d : DropId) :
    (s.endOfPagingChoice g d).1 = .ready ∨ (s.endOfPagingChoice g d).1 = .enrolled := by
  unfold State.endOfPagingChoice
  split
  · exact .inl rfl
  · split
    · exact .inr rfl
    · split
      · exact .inl rfl
      · exact .inl rfl

theorem State.endOfPagingChoice_ne (h : (s.drop g d).link = .paging) : (s.drop g d).link ≠ (s.endOfPagingChoice g d).1 := by
  rw [h]
  rcases s.endOfPagingChoice_link g d with hl | hl <;> rw [hl] <;> decide

/-- The choice of R55, case by case. -/
theorem State.endOfPagingChoice_eq :
    (s.mappedAt g d = none → s.endOfPagingChoice g d = (.ready, .enrol)) ∧
    ∀ p e, s.mappedAt g d = some p → s.entry p = some e →
      (s.roster.confirmed = true → e.serial.isSome = true → (s.drop g d).cap.serial = e.serial →
        s.endOfPagingChoice g d = (.enrolled, .enrol)) ∧
      (e.serial.isSome = true → (s.drop g d).cap.serial ≠ e.serial → s.endOfPagingChoice g d = (.ready, .rosterMismatch)) ∧
      (e.serial = none ∨ s.roster.confirmed = false ∧ (s.drop g d).cap.serial = e.serial →
        s.endOfPagingChoice g d = (.ready, .enrol)) := by
  constructor
  · intro h
    simp [State.endOfPagingChoice, h]
  · intro p e hm he
    have hbind : (s.mappedAt g d).bind s.entry = some e := by rw [hm]; exact he
    unfold State.endOfPagingChoice
    rw [hbind]
    dsimp only
    refine ⟨fun hc hs heq => ?_, fun hs hne => ?_, fun h => ?_⟩
    · rw [if_pos ⟨hc, hs, heq.symm⟩]
    · rw [if_neg fun h => hne h.2.2.symm, if_pos ⟨hs, hne.symm⟩]
    · rcases h with h | ⟨hc, heq⟩
      · rw [if_neg (by simp [h]), if_neg (by simp [h])]
      · rw [if_neg (by simp [hc]), if_neg fun h => h.2 heq.symm]

end

/-- Page 2: the refusal, or the end of paging by the roster (R53, R55). -/
theorem State.redrops_takePage2 {s : State} {g : SegId} {d : DropId} {r : Report} (h : (s.drop g d).link = .paging) :
    (r.high < 10 → s.redrops (s.takePage2 g d r) g d (s.drop g d).refused (s.noticesWith .enrol) True True) ∧
    (10 ≤ r.high → s.redrops (s.takePage2 g d r) g d ((s.drop g d).paged r (s.endOfPagingChoice g d).1)
      (s.noticesWith (s.endOfPagingChoice g d).2) True True) := by
  constructor
  · intro hlow
    have htake : s.takePage2 g d r = s.refuseDrop g d := if_pos hlow
    rw [htake]
    exact State.redrops_refuseDrop (by rw [h]; decide)
  · intro hhigh
    have htake : s.takePage2 g d r =
        (s.storePage g d { (s.drop g d).cap with maxSpeed := some (min r.high 400) } 3).endPaging g d := if_neg (by omega)
    rw [htake]
    have hstore := State.redrops.of_storePage s g d { (s.drop g d).cap with maxSpeed := some (min r.high 400) } 3
    generalize s.storePage g d { (s.drop g d).cap with maxSpeed := some (min r.high 400) } 3 = u at hstore
    have hlink : (u.drop g d).link = .paging := by
      rw [hstore.drop]
      exact h
    have hroster : u.roster = s.roster := (congrArg State.roster hstore.kept :)
    have hchoice : u.endOfPagingChoice g d = s.endOfPagingChoice g d := by
      unfold State.endOfPagingChoice
      rw [State.mappedAt_congr hroster, hroster, hstore.drop, show u.entry = s.entry from funext (State.entry_congr hroster)]
    have hend := State.redrops_endPaging (State.endOfPagingChoice_ne hlink)
    rw [hchoice, hstore.drop, State.noticesWith, hstore.notices] at hend
    have hboth := hstore.trans hend fun _ => trivial
    have hpaged : ({ s.drop g d with cap := { (s.drop g d).cap with maxSpeed := some (min r.high 400) }, page := 3 } : Drop).enter
        (s.endOfPagingChoice g d).1 = (s.drop g d).paged r (s.endOfPagingChoice g d).1 := by
      rcases s.endOfPagingChoice_link g d with hl | hl <;> rw [hl] <;> rfl
    rw [hpaged] at hboth
    exact hboth

/-- A taken page, by its number (R51 to R53). -/
theorem State.acceptReply_page_spec {s : State} {g : SegId} {x : Exchange} {r : Report} (h : (s.drop g x.drop).link = .paging)
    (hr : r.page = (s.drop g x.drop).page) (hx : x.page = (s.drop g x.drop).page) (h3 : r.page ≠ 3) :
    ∃ copied, s.acceptsReply (s.acceptReply g x r) g x r copied := by
  have hheard := State.redrops.of_modDrop s g x.drop Drop.heard
  have haccept := State.acceptReply_page h hr hx
  have hmap : (s.heardAt g x.drop).mappedAt = s.mappedAt := rfl
  have hchoice : (s.heardAt g x.drop).endOfPagingChoice g x.drop = s.endOfPagingChoice g x.drop := by
    have hdrop : (s.heardAt g x.drop).drop g x.drop = (s.drop g x.drop).heard := hheard.drop
    unfold State.endOfPagingChoice
    rw [hdrop]
    rfl
  change s.redrops (s.heardAt g x.drop) _ _ _ _ _ _ at hheard
  generalize s.heardAt g x.drop = u at hheard haccept hchoice
  have hlink : (u.drop g x.drop).link = .paging := by
    rw [hheard.drop]
    exact h
  have hnotices : u.notices = s.notices := hheard.notices
  rw [haccept]
  have hcases : r.page = 0 ∨ r.page = 1 ∨ r.page = 2 := by omega
  rcases hcases with h0 | h1 | h2
  · rw [h0]
    have hstore := State.redrops.of_storePage u g x.drop { (s.drop g x.drop).cap with serial := some r.data } 1
    rw [hheard.drop, hnotices] at hstore
    refine ⟨_, .of_redrops (hheard.trans hstore False.elim) ?_ (.inl trivial) ?_⟩
    · exact iff_of_false not_false fun hn => hn rfl
    · refine State.enrols_of_page h hr hx h3 (fun _ => ⟨rfl, rfl⟩) ?_ ?_ ?_ ?_
      all_goals exact fun h' => absurd (h0.symm.trans h') (by decide)
  · rw [h1]
    by_cases hlow : r.low < 1000
    · have htake : u.takePage1 g x.drop r = u.refuseDrop g x.drop := if_pos hlow
      have hrefuse := State.redrops_refuseDrop (s := u) (g := g) (d := x.drop) (by rw [hlink]; decide)
      rw [hheard.drop, State.noticesWith, hnotices] at hrefuse
      refine ⟨_, .of_redrops (htake ▸ hheard.trans hrefuse False.elim) ?_ (.inl trivial) ?_⟩
      · exact iff_of_true trivial (by rw [h]; exact nofun)
      · refine State.enrols_of_page h hr hx h3 ?_ (fun _ _ => ⟨rfl, rfl⟩) (fun _ hge => absurd hlow (by omega)) ?_ ?_
        all_goals exact fun h' => absurd (h1.symm.trans h') (by decide)
    · have htake : u.takePage1 g x.drop r = u.storePage g x.drop
          { (u.drop g x.drop).cap with stroke := some (min r.high 40000), rated := some r.low } 2 := if_neg hlow
      rw [hheard.drop] at htake
      have hstore := State.redrops.of_storePage u g x.drop
        { (s.drop g x.drop).heard.cap with stroke := some (min r.high 40000), rated := some r.low } 2
      rw [hheard.drop, hnotices] at hstore
      refine ⟨_, .of_redrops (htake ▸ hheard.trans hstore False.elim) ?_ (.inl trivial) ?_⟩
      · exact iff_of_false not_false fun hn => hn rfl
      · refine State.enrols_of_page h hr hx h3 ?_ (fun _ hlt => absurd hlt hlow) (fun _ _ => ⟨rfl, rfl⟩) ?_ ?_
        all_goals exact fun h' => absurd (h1.symm.trans h') (by decide)
  · rw [h2]
    obtain ⟨hrefuse, hend⟩ := State.redrops_takePage2 (r := r) hlink
    rw [hheard.drop, State.noticesWith, hnotices] at hrefuse
    rw [hheard.drop, hchoice, State.noticesWith, hnotices] at hend
    by_cases hlow : r.high < 10
    · refine ⟨_, .of_redrops (hheard.trans (hrefuse hlow) False.elim) ?_ (.inl trivial) ?_⟩
      · exact iff_of_true trivial (by rw [h]; exact nofun)
      · refine State.enrols_of_page h hr hx h3 ?_ ?_ ?_ (fun _ _ => ⟨rfl, rfl⟩) (fun _ hge => absurd hlow (by omega))
        all_goals exact fun h' => absurd (h2.symm.trans h') (by decide)
    · refine ⟨_, .of_redrops (hheard.trans (hend (by omega)) False.elim) ?_ (.inl trivial) ?_⟩
      · exact iff_of_true trivial (State.endOfPagingChoice_ne h).symm
      · obtain ⟨hnone, hsome⟩ := State.endOfPagingChoice_eq (s := s) (g := g) (d := x.drop)
        refine State.enrols_of_page h hr hx h3 ?_ ?_ ?_ (fun _ hlt => absurd hlt hlow) fun _ _ =>
          ⟨fun hm => ?_, fun p e hm he => ⟨fun hc hs heq => ?_, fun hs hne => ?_, fun hother => ?_⟩⟩
        any_goals exact fun h' => absurd (h2.symm.trans h') (by decide)
        · rw [hnone hm]
          exact ⟨rfl, rfl⟩
        · obtain ⟨hpinned, -, -⟩ := hsome p e hm he
          rw [hpinned hc hs heq]
          exact ⟨rfl, rfl⟩
        · obtain ⟨-, hmismatch, -⟩ := hsome p e hm he
          rw [hmismatch hs hne]
          exact ⟨rfl, rfl⟩
        · obtain ⟨-, -, hready⟩ := hsome p e hm he
          rw [hready hother]
          exact ⟨rfl, rfl⟩

/-- Every acceptable reply moves the enrolment of its drop as `State.enrols` says. -/
theorem State.acceptReply_spec (s : State) (g : SegId) (x : Exchange) (r : Report) :
    ∃ copied, s.acceptsReply (s.acceptReply g x r) g x r copied := by
  have hheard : s.redrops (s.heardAt g x.drop) g x.drop (s.drop g x.drop).heard s.notices False False :=
    State.redrops.of_modDrop s g x.drop Drop.heard
  have hstays : s.enrols g x r (s.drop g x.drop).heard s.notices →
      s.acceptsReply (s.heardAt g x.drop) g x r False := fun henrols =>
    .of_redrops hheard (iff_of_false not_false fun hn => hn rfl) (.inr ⟨rfl, rfl⟩) henrols
  obtain ⟨hfresh, -, hsettled⟩ := s.acceptReply_cases g x r
  by_cases habsent : (s.drop g x.drop).link = .absent ∨ (s.drop g x.drop).link = .lost
  · have hne : ((s.heardAt g x.drop).drop g x.drop).link ≠ .settling := by
      rw [hheard.drop]
      rcases habsent with h | h <;> rw [Drop.heard, h] <;> decide
    have hchange := State.redrops.of_changeLink hne
    rw [hheard.drop, hheard.notices] at hchange
    rw [hfresh habsent]
    refine ⟨_, .of_redrops (hheard.trans hchange False.elim) (iff_of_true trivial ?_) (.inl trivial) (State.enrols_of_fresh habsent)⟩
    rcases habsent with h | h <;> rw [h] <;> exact nofun
  · by_cases hpaging : (s.drop g x.drop).link = .paging
    · by_cases hpage : (r.page = (s.drop g x.drop).page ∧ x.page = (s.drop g x.drop).page) ∧ r.page ≠ 3
      · obtain ⟨⟨hr, hx⟩, h3⟩ := hpage
        exact State.acceptReply_page_spec hpaging hr hx h3
      · have hno := hstays (State.enrols_of_no_page hpaging (by tauto))
        refine ⟨False, ?_⟩
        by_cases hpage' : r.page = (s.drop g x.drop).page ∧ x.page = (s.drop g x.drop).page
        · have h3 : r.page = 3 := by tauto
          rw [State.acceptReply_page hpaging hpage'.1 hpage'.2, h3]
          exact hno
        · rw [State.acceptReply_no_page hpaging hpage']
          exact hno
    · have h1 : (s.drop g x.drop).link ≠ .absent := fun h => habsent (.inl h)
      have h2 : (s.drop g x.drop).link ≠ .lost := fun h => habsent (.inr h)
      rw [hsettled h1 h2 hpaging]
      exact ⟨False, hstays (State.enrols_of_settled h1 h2 hpaging)⟩

end Sys2Proof.Machine

/-! The STATUS frame read back (R29, R198), and O48: the reply of an unmapped drop. -/

namespace Sys2Proof.Machine

set_option Elab.async false

/-! ### The frame -/

theorem readStatus_bytes (d : DropId) (toggle : Bool) (b0 b1 b2 b3 b4 b5 b6 b7 b8 b9 b10 b11 b12 b13 : Byte) :
    readStatus d toggle [b0, b1, b2, b3, b4, b5, b6, b7, b8, b9, b10, b11, b12, b13] =
      if crcBytes [b0, b1, b2, b3, b4, b5, b6, b7, b8, b9, b10, b11] = [b12, b13] ∧ b0.toNat = d.val + 1 ∧ b1 = 0x04 ∧
          b2.getLsbD 0 = toggle then
        some { page := Fin.ofNat 4 (b2.toNat / 16), height := word16 b3 b4, load := word16 b5 b6,
               flags := { moving := b7.getLsbD 0, upperLimit := b7.getLsbD 1, lowerLimit := b7.getLsbD 2,
                          driveFault := b7.getLsbD 3 },
               data := word32 b8 b9 b10 b11 }
      else none :=
  rfl

/-- A frame that is not the awaited STATUS is not read (R29). -/
theorem readStatus_eq_none {d : DropId} {toggle : Bool} {frame : List Byte}
    (h : frame.length ≠ 14 ∨ crcBytes (frame.take 12) ≠ frame.drop 12 ∨ byteAt frame 0 ≠ byteOf (d.val + 1) ∨
      byteAt frame 1 ≠ 0x04 ∨ (byteAt frame 2).getLsbD 0 ≠ toggle) : readStatus d toggle frame = none := by
  by_cases hlen : frame.length = 14
  · match frame, hlen with
    | [b0, b1, b2, b3, b4, b5, b6, b7, b8, b9, b10, b11, b12, b13], _ =>
      rw [readStatus_bytes, if_neg]
      rintro ⟨hcrc, hdrop, htype, htoggle⟩
      rcases h with h | h | h | h | h
      · exact h rfl
      · exact h hcrc
      · refine h (BitVec.eq_of_toNat_eq ?_)
        rw [byteOf_val (by omega)]
        exact hdrop
      · exact h htype
      · exact h htoggle
  · unfold readStatus
    split
    · exact absurd rfl hlen
    · rfl

/-- A drive's STATUS is read back whole (R198). -/
theorem readStatus_statusFrame (d : DropId) (toggle : Bool) {r : Report} (hheight : r.height < 65536) (hload : r.load < 65536) :
    readStatus d toggle (statusFrame d toggle r) = some r := by
  have hframe : statusFrame d toggle r =
      let body := [byteOf (d.val + 1), 0x04, byteOf (toggle.toNat + 16 * r.page.val), byteOf (r.height / 256), byteOf r.height,
        byteOf (r.load / 256), byteOf r.load, byteOf (bitsOf r.flags.bits), byteOf (r.data.toNat / 16777216),
        byteOf (r.data.toNat / 65536), byteOf (r.data.toNat / 256), byteOf r.data.toNat]
      body ++ [byteOf ((crc16 body).toNat / 256), byteOf (crc16 body).toNat] := rfl
  have htoggle : toggle.toNat < 2 := Bool.toNat_lt toggle
  have hpage := r.page.isLt
  have hbit : (byteOf (toggle.toNat + 16 * r.page.val)).getLsbD 0 = toggle := by
    rw [byteOf_bit _ (by decide)]
    cases toggle with
    | false => exact decide_eq_false (by simp only [Bool.toNat_false]; omega)
    | true => exact decide_eq_true (by simp only [Bool.toNat_true]; omega)
  have hfield : Fin.ofNat 4 ((byteOf (toggle.toNat + 16 * r.page.val)).toNat / 16) = r.page := by
    rw [byteOf_val (by omega)]
    exact Fin.ext (by simp only [Fin.ofNat]; omega)
  rw [hframe]
  dsimp only [List.cons_append, List.nil_append]
  rw [readStatus_bytes, if_pos ⟨rfl, byteOf_val (by omega), rfl, hbit⟩, hfield, word16_byteOf hheight, word16_byteOf hload,
    word32_be32, byteOf_bitsOf_getLsbD _ (by decide), byteOf_bitsOf_getLsbD _ (by decide), byteOf_bitsOf_getLsbD _ (by decide),
    byteOf_bitsOf_getLsbD _ (by decide)]
  rfl

section
variable {s : State} {g : SegId} {x : Exchange}

theorem State.statusArrival_of_not_read (hx : (s.seg g).inFlight = some x) {frame : List Byte}
    (h : readStatus x.drop x.toggle frame = none) : s.statusArrival g frame = s := by
  unfold State.statusArrival
  rw [hx]
  cases s.power with
  | running => simp only [h]
  | _ => rfl

theorem State.statusArrival_of_read (hp : s.power = .running) (hx : (s.seg g).inFlight = some x) {r : Report}
    (hheight : r.height < 65536) (hload : r.load < 65536) :
    s.statusArrival g (statusFrame x.drop x.toggle r) = s.takeReply g x r := by
  unfold State.statusArrival
  rw [hp, hx]
  simp only [readStatus_statusFrame x.drop x.toggle hheight hload]

/-! ### The reply of an unmapped drop (R12, R31) -/

theorem State.drop_lineFreed (s : State) (g g' : SegId) (d : DropId) : (s.lineFreed g).drop g' d = s.drop g' d :=
  State.drop_modSeg s g g' d _ rfl

theorem State.enrols_lineFreed (s : State) (g : SegId) (x : Exchange) (r : Report) (d : Drop) (n : Table NoticeState 4) :
    (s.lineFreed g).enrols g x r d n ↔ s.enrols g x r d n := by
  unfold State.enrols
  rw [State.drop_lineFreed]
  exact Iff.rfl

/-- A reply with MOVING set is a wake (R36). -/
theorem State.wakeIfMoving_stirs (s : State) (r : Report) :
    s.stirs (s.wakeIfMoving r) (r.flags.moving = true) fun _ => True := by
  unfold State.wakeIfMoving
  by_cases h : r.flags.moving = true
  · rw [if_pos h]
    exact s.stirs_wake.congr (iff_of_true trivial h)
  · rw [if_neg h]
    exact .of_same rfl rfl (fun _ => rfl) (fun _ _ => rfl) h

theorem State.wakeIfMoving_kept (s : State) (r : Report) : { s.wakeIfMoving r with segs := s.segs, cols := s.cols } = s := by
  unfold State.wakeIfMoving
  split
  · exact s.wake_frame
  · rfl

theorem State.drop_wakeIfMoving (s : State) (r : Report) (g : SegId) (d : DropId) : (s.wakeIfMoving r).drop g d = s.drop g d := by
  unfold State.wakeIfMoving
  split
  · exact s.drop_wake g d
  · rfl

theorem State.col_wakeIfMoving (s : State) (r : Report) (p : Pos) :
    { (s.wakeIfMoving r).col p with creep := (s.col p).creep } = s.col p := by
  unfold State.wakeIfMoving
  split
  · exact s.col_wake_creep p
  · rfl

end

/-- Settles O48: the frames that are not read, and the reply of a drop that no position names. -/
theorem unmappedReply : Obligations.UnmappedReply := by
  unfold Obligations.UnmappedReply
  intro s g x hp hx
  refine ⟨fun frame hbad => congrArg Host.Outcome.next (State.statusArrival_of_not_read hx (readStatus_eq_none hbad)),
    fun r hheight hload hm => ?_⟩
  obtain ⟨copied, haccepts⟩ := (s.lineFreed g).acceptReply_spec g x r
  have hmap : ∀ p, (s.lineFreed g).mappedAt g x.drop ≠ some p := fun p h => by
    cases hm.symm.trans h
  have htake : s.takeReply g x r = (((s.lineFreed g).acceptReply g x r).wakeIfMoving r).modSeg g Segment.goOn := by
    have hmt : ((s.lineFreed g).acceptReply g x r).mappedAt g x.drop = none :=
      (congrFun (congrFun (State.mappedAt_congr (congrArg State.roster haccepts.redrops.kept :)) g) x.drop).trans hm
    unfold State.takeReply
    change (match ((s.lineFreed g).acceptReply g x r).mappedAt g x.drop with
      | none => ((s.lineFreed g).acceptReply g x r).wakeIfMoving r
      | some p => ((s.lineFreed g).acceptReply g x r).handleReport g p r).modSeg g Segment.goOn = _
    rw [hmt]
  generalize (s.lineFreed g).acceptReply g x r = u at haccepts htake
  obtain ⟨hredrops, henrols, -⟩ := haccepts
  have hstirs := hredrops.stirs.trans (u.wakeIfMoving_stirs r)
  have hkept := u.wakeIfMoving_kept r
  have hdrop := u.drop_wakeIfMoving r
  have hcol := u.col_wakeIfMoving r
  refine ⟨_, u.wakeIfMoving r, congrArg Host.Outcome.next ((State.statusArrival_of_read hp hx hheight hload).trans htake), rfl, ?_, ?_,
    fun g' d hgd => ?_, fun p => ?_, ?_⟩
  · rw [hdrop, show (u.wakeIfMoving r).notices = u.notices from (congrArg State.notices hkept :)]
    exact (s.enrols_lineFreed g x r _ _).mp henrols
  · intro moved
    have hmoved : ((u.drop g x.drop).link ≠ ((s.lineFreed g).drop g x.drop).link ∨ r.flags.moving = true) ↔ moved := by
      rw [State.drop_lineFreed, ← hdrop]
    exact ⟨fun h => hstirs.wakes hp (hmoved.mpr h), fun h => hstirs.rests fun ⟨_, h'⟩ => h (hmoved.mp h')⟩
  · rw [hdrop, hredrops.drops g' d hgd, State.drop_lineFreed]
  · exact (congrArg (fun c : Column => { c with creep := (s.col p).creep }) (hcol p) :).trans (hredrops.cols p (.inl (hmap p)))
  · have hwatches : u.watches = s.watches := hredrops.untested (.inl hm)
    have hu : { u with segs := s.segs, cols := s.cols, notices := s.notices } = { s with watches := u.watches } :=
      (congrArg (fun w : State => { w with segs := s.segs, watches := u.watches }) hredrops.kept :)
    exact (congrArg (fun w : State => { w with segs := s.segs, cols := s.cols, notices := s.notices }) hkept :).trans
      (hu.trans (by rw [hwatches]))

end Sys2Proof.Machine

/-! O56: a missed exchange, the loss of a drop, and the settle timer. -/

namespace Sys2Proof.Machine

set_option Elab.async false

/-! ### What a miss makes of its drop (R30, R49, R54, R56, R58) -/

theorem Segment.awake_inFlight (sg : Segment) (q : Timer) : (sg.awake q).inFlight = sg.inFlight :=
  rfl

theorem State.stirs.inFlight {s t : State} {a : Prop} {held : Pos → Prop} (h : s.stirs t a held) (g : SegId) :
    (t.seg g).inFlight = (s.seg g).inFlight := by
  by_cases hm : s.power = .running ∧ a
  · exact (congrArg Segment.inFlight ((h.awake hm.1 hm.2).1 g) :)
  · exact (congrArg Segment.inFlight ((h.asleep hm).1 g) :)

/-- A drop with one more miss counted, up to 3 (R30). -/
def Drop.counted (d : Drop) : Drop :=
  { d with miss := min 3 (d.miss + 1) }

/-- A drop that is gone to ABSENT (R30, R47). -/
def Drop.gone (d : Drop) : Drop :=
  { d with link := .absent, miss := 0, settle := .stopped, page := 3, cap := Capability.empty }

/-- A drop that has become LOST at its third miss (R58). -/
def Drop.lostAt (d : Drop) : Drop :=
  { d with link := .lost, miss := 3, settle := .stopped, page := 3 }

theorem Drop.counted_miss_eq_three {d : Drop} : d.counted.miss = 3 ↔ 2 ≤ d.miss := by
  unfold Drop.counted
  dsimp only
  omega

theorem Drop.enter_gone (d : Drop) : d.counted.enter .absent = d.gone :=
  rfl

theorem Drop.enter_lost {d : Drop} (h : 2 ≤ d.miss) : d.counted.enter .lost = d.lostAt := by
  have hmiss : d.counted.miss = 3 := Drop.counted_miss_eq_three.mpr h
  unfold Drop.enter
  rw [hmiss]
  rfl

section
variable {s : State} {g : SegId} {x : Exchange}

/-- Whether a miss takes an ENROLLED drop to LOST: its third (R58). -/
def State.losesDrop (s : State) (g : SegId) (x : Exchange) : Prop :=
  x.kind = .poll ∧ (s.drop g x.drop).link = .enrolled ∧ 2 ≤ (s.drop g x.drop).miss

/-- The drop after a miss that does not lose it. -/
structure Drop.misses (old new : Drop) (kind : ExchangeKind) : Prop where
  probe : kind = .probe ∨ old.link = .absent → new = old
  early : kind = .poll → old.link = .settling ∨ old.link = .paging → new = old.gone
  third : kind = .poll → old.link = .ready ∨ old.link = .refused → new = if 2 ≤ old.miss then old.gone else old.counted
  enrolled : kind = .poll → old.link = .enrolled → old.miss < 2 → new = old.counted
  lost : kind = .poll → old.link = .lost → new = old.counted

theorem State.takeMiss_poll (hk : x.kind = .poll) (hl : (s.drop g x.drop).link ≠ .absent) :
    s.takeMiss g x = (s.modDrop g x.drop Drop.counted).missedLink g x.drop := by
  unfold State.takeMiss
  rw [hk]
  exact if_neg hl

/-- The link state that a counted miss changes, state by state. -/
theorem State.missedLink_eq (s : State) (g : SegId) (d : DropId) :
    ((s.drop g d).link = .settling ∨ (s.drop g d).link = .paging → s.missedLink g d = s.changeLink g d .absent) ∧
    ((s.drop g d).link = .ready ∨ (s.drop g d).link = .refused →
      s.missedLink g d = if (s.drop g d).miss = 3 then s.changeLink g d .absent else s) ∧
    ((s.drop g d).link = .enrolled → s.missedLink g d = if (s.drop g d).miss = 3 then s.loseDrop g d else s) ∧
    ((s.drop g d).link = .lost → s.missedLink g d = s) := by
  unfold State.missedLink
  cases (s.drop g d).link <;> simp

/-- A change of the drop in which the link state moves exactly where it differs. -/
theorem State.redrops.of_link {t : State} {d : DropId} {new : Drop} {n : Table NoticeState 4} {a : Prop}
    (h : s.redrops t g d new n a a) (ha : a ↔ new.link ≠ (s.drop g d).link) :
    s.redrops t g d new n (new.link ≠ (s.drop g d).link) (new.link ≠ (s.drop g d).link) :=
  (propext ha : a = _) ▸ h

theorem State.redrops.refl (s : State) (g : SegId) (d : DropId) : s.redrops s g d (s.drop g d) s.notices False False :=
  ⟨rfl, fun _ _ _ => rfl, fun _ _ h => h.elim, fun _ _ => rfl, .of_same rfl rfl (fun _ => rfl) (fun _ _ => rfl) not_false,
    fun _ => rfl, fun _ _ h => h.elim, rfl, rfl⟩

/-- A miss that loses no ENROLLED drop. -/
theorem State.takeMiss_spec (hlost : ¬ s.losesDrop g x) :
    ∃ new, s.redrops (s.takeMiss g x) g x.drop new s.notices (new.link ≠ (s.drop g x.drop).link)
      (new.link ≠ (s.drop g x.drop).link) ∧ (s.drop g x.drop).misses new x.kind := by
  by_cases hnone : x.kind = .probe ∨ (s.drop g x.drop).link = .absent
  · have htake : s.takeMiss g x = s := by
      unfold State.takeMiss
      split
      · rfl
      · next hk => exact if_pos (hnone.resolve_left (by rw [hk]; decide))
    rw [htake]
    refine ⟨s.drop g x.drop, (State.redrops.refl s g x.drop).of_link (by simp), fun _ => rfl, fun hk h => ?_, fun hk h => ?_,
      fun hk h => ?_, fun hk h => ?_⟩
    all_goals have habsent := hnone.resolve_left (by rw [hk]; decide)
    · rcases h with h | h <;> cases habsent.symm.trans h
    · rcases h with h | h <;> cases habsent.symm.trans h
    · cases habsent.symm.trans h
    · cases habsent.symm.trans h
  · obtain ⟨hprobe, hl⟩ := not_or.mp hnone
    have hk : x.kind = .poll := by
      cases h : x.kind with
      | poll => rfl
      | probe => exact absurd h hprobe
    rw [State.takeMiss_poll hk hl]
    have hcount := State.redrops.of_modDrop s g x.drop Drop.counted
    obtain ⟨hearly, hthird, henrolled, hlost'⟩ := (s.modDrop g x.drop Drop.counted).missedLink_eq g x.drop
    generalize s.modDrop g x.drop Drop.counted = m at hcount hearly hthird henrolled hlost'
    rw [hcount.drop] at hearly hthird henrolled hlost'
    have hgone : (s.drop g x.drop).link ≠ .absent → s.redrops (m.changeLink g x.drop .absent) g x.drop (s.drop g x.drop).gone
        s.notices ((s.drop g x.drop).gone.link ≠ (s.drop g x.drop).link) ((s.drop g x.drop).gone.link ≠ (s.drop g x.drop).link) :=
      fun hne => by
        have hchange := State.redrops.of_changeLink (s := m) (g := g) (d := x.drop) (new := .absent) (by rw [hcount.drop]; exact hne)
        rw [hcount.drop, hcount.notices] at hchange
        exact (hcount.trans hchange False.elim).of_link (iff_of_true trivial hne.symm)
    have hstill := hcount.of_link (iff_of_false not_false fun hn => hn rfl)
    have hprobe' : x.kind = .probe ∨ (s.drop g x.drop).link = .absent → ∀ d, d = s.drop g x.drop := fun h => absurd h hnone
    by_cases hpaging : (s.drop g x.drop).link = .settling ∨ (s.drop g x.drop).link = .paging
    · rw [hearly hpaging]
      refine ⟨_, hgone hl, fun h' => hprobe' h' _, fun _ _ => rfl, fun _ h => ?_, fun _ h => ?_, fun _ h => ?_⟩
      · rcases hpaging with h' | h' <;> simp [h'] at h
      · rcases hpaging with h' | h' <;> simp [h'] at h
      · rcases hpaging with h' | h' <;> simp [h'] at h
    · by_cases hready : (s.drop g x.drop).link = .ready ∨ (s.drop g x.drop).link = .refused
      · rw [hthird hready]
        by_cases hmiss : (s.drop g x.drop).counted.miss = 3
        · rw [if_pos hmiss]
          refine ⟨_, hgone hl, fun h' => hprobe' h' _, fun _ h => absurd h hpaging,
            fun _ _ => (if_pos (Drop.counted_miss_eq_three.mp hmiss)).symm, fun _ h => ?_, fun _ h => ?_⟩
          · rcases hready with h' | h' <;> simp [h'] at h
          · rcases hready with h' | h' <;> simp [h'] at h
        · rw [if_neg hmiss]
          exact ⟨_, hstill, fun h' => hprobe' h' _, fun _ h => absurd h hpaging,
            fun _ _ => (if_neg fun h2 => hmiss (Drop.counted_miss_eq_three.mpr h2)).symm, fun _ _ _ => rfl, fun _ _ => rfl⟩
      · have hm : m.missedLink g x.drop = m := by
          by_cases hen : (s.drop g x.drop).link = .enrolled
          · rw [henrolled hen, if_neg fun hmiss => hlost ⟨hk, hen, Drop.counted_miss_eq_three.mp hmiss⟩]
          · refine hlost' ?_
            change (s.drop g x.drop).link = .lost
            cases h : (s.drop g x.drop).link <;> simp_all
        rw [hm]
        exact ⟨_, hstill, fun h' => hprobe' h' _, fun _ h => absurd h hpaging, fun _ h => absurd h hready, fun _ _ _ => rfl,
          fun _ _ => rfl⟩

/-- The third miss of an ENROLLED drop: LOST, before the latch, the notice and the stop (R58). -/
theorem State.takeMiss_lost (hlost : s.losesDrop g x) : ∃ t, s.redrops t g x.drop (s.drop g x.drop).lostAt s.notices True True ∧
    (s.mappedAt g x.drop = none → s.takeMiss g x = t.raise .columnLost) ∧
    ∀ p, s.mappedAt g x.drop = some p → s.takeMiss g x =
      (let v := (t.modCol p fun c => { c with wasLost := true }).raise .columnLost
      if v.phase = .idle then v else v.offerStop (columnOffer .columnLost p none)) := by
  obtain ⟨hk, hen, hmiss⟩ := hlost
  have hcount := State.redrops.of_modDrop s g x.drop Drop.counted
  obtain ⟨-, -, henrolled, -⟩ := (s.modDrop g x.drop Drop.counted).missedLink_eq g x.drop
  rw [State.takeMiss_poll hk (by rw [hen]; decide)]
  generalize s.modDrop g x.drop Drop.counted = m at hcount henrolled
  rw [hcount.drop] at henrolled
  rw [henrolled hen, if_pos (Drop.counted_miss_eq_three.mpr hmiss)]
  have hchange := State.redrops.of_changeLink (s := m) (g := g) (d := x.drop) (new := .lost) (by
    rw [hcount.drop]
    change (s.drop g x.drop).link ≠ .lost
    rw [hen]
    decide)
  rw [hcount.drop, hcount.notices, Drop.enter_lost hmiss] at hchange
  have hboth := hcount.trans hchange False.elim
  have hlose : m.loseDrop g x.drop = match (m.changeLink g x.drop .lost).mappedAt g x.drop with
      | none => (m.changeLink g x.drop .lost).raise .columnLost
      | some p =>
        let v := ((m.changeLink g x.drop .lost).modCol p fun c => { c with wasLost := true }).raise .columnLost
        if v.phase = .idle then v else v.offerStop (columnOffer .columnLost p none) := rfl
  generalize m.changeLink g x.drop .lost = t at hboth hlose
  have hmap : t.mappedAt = s.mappedAt := State.mappedAt_congr (congrArg State.roster hboth.kept :)
  refine ⟨t, hboth, fun hm => ?_, fun p hm => ?_⟩
  · rw [hlose, hmap, hm]
  · rw [hlose, hmap, hm]

end

/-! ### The close of the reply window (R30) -/

/-- The state after a miss, before the stop of a lost column: what the manual says of the drop, its column, the watches and the
wake, with `latched` the position whose column has been lost. -/
structure State.missesAt (r v : State) (g : SegId) (d : DropId) (new : Drop) (latched : Option Pos) : Prop where
  drop : v.drop g d = new
  drops : ∀ g' d', ¬ (g' = g ∧ d' = d) → v.drop g' d' = r.drop g' d'
  stirs : r.stirs v (new.link ≠ (r.drop g d).link) fun _ => True
  copies : ∀ y, r.mappedAt g d = some y → new.link ≠ (r.drop g d).link →
    { v.col y with creep := (r.col y).creep, wasLost := (r.col y).wasLost } = (r.col y).mirrors new
  latch : ∀ y, r.mappedAt g d = some y → (latched = some y → (v.col y).wasLost = true) ∧
    (latched ≠ some y → (v.col y).wasLost = (r.col y).wasLost)
  cols : ∀ y, r.mappedAt g d ≠ some y ∨ ¬ new.link ≠ (r.drop g d).link → { v.col y with creep := (r.col y).creep } = r.col y
  untested : r.mappedAt g d = none ∨ ¬ new.link ≠ (r.drop g d).link → v.watches = r.watches
  tested : ∀ y, r.mappedAt g d = some y → new.link ≠ (r.drop g d).link →
    v.watches = (({ v with watches := r.watches } : State).testWatches y).watches
  kept : { v with segs := r.segs, cols := r.cols, watches := r.watches, notices := r.notices } = r

theorem State.missesAt_of_redrops {r v : State} {g : SegId} {d : DropId} {new : Drop} {n : Table NoticeState 4}
    (h : r.redrops v g d new n (new.link ≠ (r.drop g d).link) (new.link ≠ (r.drop g d).link)) : r.missesAt v g d new none where
  drop := h.drop
  drops := h.drops
  stirs := h.stirs
  copies y hm hmoved := (congrArg (fun c : Column => { c with wasLost := (r.col y).wasLost }) (h.copies y hm hmoved) :)
  latch y hm := by
    refine ⟨nofun, fun _ => ?_⟩
    by_cases hmoved : new.link ≠ (r.drop g d).link
    · exact (congrArg Column.wasLost (h.copies y hm hmoved) :)
    · exact (congrArg Column.wasLost (h.cols y (.inr hmoved)) :)
  cols := h.cols
  untested := h.untested
  tested := h.tested
  kept := h.kept

/-- The latch of a lost column (R17, R58). -/
def State.latchAt (s : State) (p : Pos) : State :=
  s.modCol p fun c => { c with wasLost := true }

theorem State.missesAt_latch {r t : State} {g : SegId} {d : DropId} {new : Drop} {n : Table NoticeState 4} {p : Pos}
    (h : r.redrops t g d new n True True) (hm : r.mappedAt g d = some p) (hmoved : new.link ≠ (r.drop g d).link) :
    r.missesAt (t.latchAt p) g d new (some p) := by
  have hself : (t.latchAt p).col p = { t.col p with wasLost := true } := State.col_modCol_self _ _ _
  have hother : ∀ y, y ≠ p → (t.latchAt p).col y = t.col y := fun y hy => State.col_modCol_of_ne _ _ hy
  have htrue : True ↔ new.link ≠ (r.drop g d).link := (iff_true_intro hmoved).symm
  have hstirs : t.stirs (t.latchAt p) False fun _ => True :=
    .of_same rfl rfl (fun _ => rfl) (fun y _ => by
      by_cases hy : y = p
      · subst hy
        rw [hself]
      · rw [hother y hy]) not_false
  refine ⟨h.drop, h.drops, (h.stirs.trans hstirs).congr (by simp [hmoved]), fun y hy _ => ?_, fun y hy => ?_, fun y hy => ?_,
    fun h' => ?_, fun y hy _ => ?_, h.kept⟩
  · cases hm.symm.trans hy
    rw [hself]
    exact (congrArg (fun c : Column => { c with wasLost := (r.col p).wasLost }) (h.copies p hm trivial) :)
  · cases hm.symm.trans hy
    exact ⟨fun _ => by rw [hself], fun hn => absurd rfl hn⟩
  · have hy' : y ≠ p := by
      rintro rfl
      exact hy.elim (fun hn => hn hm) fun hn => hn hmoved
    rw [hother y hy']
    exact h.cols y (.inl fun hn => hy' (Option.some.inj (hn.symm.trans hm)))
  · exact h'.elim (fun hn => nomatch hn.symm.trans hm) fun hn => absurd hmoved hn
  · cases hm.symm.trans hy
    have htested := h.tested p hm trivial
    refine htested.trans ?_
    have hcol : WatchState.tested p ((t.latchAt p).col p) = WatchState.tested p (t.col p) := by
      rw [hself]
      rfl
    exact congrArg (fun f => r.watches.map f) hcol.symm

theorem State.missesAt.raise {r v : State} {g : SegId} {d : DropId} {new : Drop} {o : Option Pos} (h : r.missesAt v g d new o)
    (k : Category) : r.missesAt (v.raise k) g d new o :=
  ⟨h.drop, h.drops, h.stirs.raise k, h.copies, h.latch, h.cols, h.untested, h.tested, h.kept⟩

theorem State.windowClose_eq {s : State} {g : SegId} {x : Exchange} (hp : s.power = .running) (hx : (s.seg g).inFlight = some x) :
    s.windowClose g = ((s.lineFreed g).takeMiss g x).modSeg g Segment.goOn := by
  unfold State.windowClose
  rw [hp, hx]
  rfl

theorem State.windowClose_none {s : State} {g : SegId} (hx : (s.seg g).inFlight = none) : s.windowClose g = s := by
  unfold State.windowClose
  rw [hx]
  cases s.power <;> rfl

/-- A stop offered in STOPPED, as a record update (R149). -/
theorem State.offerStop_stopped {s : State} (hp : s.power = .running) (hphase : s.phase = .stopped) (o : Offer) :
    s.offerStop o = { s with stop := { s.stop with
      further := if s.stop.recordCause = some o.cause then s.stop.further else s.stop.further.set o.cause.code true } } := by
  rw [s.offerStop_further o hp hphase]
  split
  · rfl
  · rfl

/-- The state after a missed exchange, as the statement has it: `u` with the stop of a lost column, `v` without. -/
theorem State.takeMiss_outcome {r : State} (g : SegId) (x : Exchange) : ∃ v new o,
    r.missesAt v g x.drop new o ∧ (o.isSome = true → r.losesDrop g x ∧ o = r.mappedAt g x.drop) ∧
    (r.losesDrop g x → new = (r.drop g x.drop).lostAt ∧ o = r.mappedAt g x.drop ∧ v.notices = r.noticesWith .columnLost) ∧
    (¬ r.losesDrop g x → (r.drop g x.drop).misses new x.kind ∧ v.notices = r.notices) ∧
    (o = none ∨ r.phase = .idle → r.takeMiss g x = v) ∧
    ∀ p, o = some p → r.phase ≠ .idle → r.takeMiss g x = v.offerStop (columnOffer .columnLost p none) := by
  by_cases hlost : r.losesDrop g x
  · obtain ⟨t, hredrops, hnone, hsome⟩ := State.takeMiss_lost hlost
    have hmoved : (r.drop g x.drop).lostAt.link ≠ (r.drop g x.drop).link := by
      obtain ⟨-, hen, -⟩ := hlost
      rw [hen]
      exact nofun
    have hnotices : (t.raise .columnLost).notices = r.noticesWith .columnLost :=
      congrArg (Table.map (NoticeState.raised .columnLost)) hredrops.notices
    have hphase : t.phase = r.phase := hredrops.stirs.phase
    cases hm : r.mappedAt g x.drop with
    | none =>
      refine ⟨t.raise .columnLost, _, none, State.missesAt_of_redrops ((hredrops.raise .columnLost).of_link
        (iff_of_true trivial hmoved)), nofun, fun _ => ⟨rfl, rfl, hnotices⟩, fun h => absurd hlost h, fun _ => hnone hm, nofun⟩
    | some p =>
      have htake := hsome p hm
      refine ⟨(t.latchAt p).raise .columnLost, _, some p, (State.missesAt_latch hredrops hm hmoved).raise .columnLost,
        fun _ => ⟨hlost, rfl⟩, fun _ => ⟨rfl, rfl, hnotices⟩, fun h => absurd hlost h, fun h => ?_, fun y hy hidle => ?_⟩
      · have hidle : r.phase = .idle := h.resolve_left nofun
        rw [htake]
        exact if_pos (hphase.trans hidle)
      · cases hy
        rw [htake]
        exact if_neg fun h => hidle (hphase.symm.trans h)
  · obtain ⟨new, hredrops, hmisses⟩ := State.takeMiss_spec hlost
    exact ⟨_, new, none, State.missesAt_of_redrops hredrops, nofun, fun h => absurd h hlost, fun _ => ⟨hmisses, hredrops.notices⟩,
      fun _ => rfl, nofun⟩

/-- Settles O56: the missed exchange with its stop, and the settle timer. -/
theorem missesAndSettling : Obligations.MissesAndSettling := by
  unfold Obligations.MissesAndSettling
  intro s g d hp
  refine ⟨fun hx => congrArg Host.Outcome.next (State.windowClose_none hx), fun x hx hd => ?_, fun ms hl ht => ?_, fun h => ?_⟩
  · subst hd
    obtain ⟨v, new, o, hmisses, hsome, hlost, hkept, hstill, hstop⟩ := State.takeMiss_outcome (r := s.lineFreed g) g x
    have hdrop : (s.lineFreed g).drop g x.drop = s.drop g x.drop := s.drop_lineFreed g g x.drop
    have hlostiff : (s.lineFreed g).losesDrop g x ↔
        x.kind = .poll ∧ (s.drop g x.drop).link = .enrolled ∧ 2 ≤ (s.drop g x.drop).miss := by
      rw [State.losesDrop, hdrop]
    rw [hdrop] at hlost hkept
    rw [hlostiff] at hsome hlost hkept
    have hv : v.drop g x.drop = new := hmisses.drop
    have hmap : (s.lineFreed g).mappedAt g x.drop = s.mappedAt g x.drop := rfl
    refine ⟨_, (s.lineFreed g).takeMiss g x, v, congrArg Host.Outcome.next (State.windowClose_eq hp hx), rfl, ?_, ?_⟩
    · rw [hmisses.stirs.inFlight, State.lineFreed, State.seg_modSeg_self]
    · intro old gone counted lost moved
      have hmoved : moved ↔ new.link ≠ ((s.lineFreed g).drop g x.drop).link := by
        rw [hdrop, ← hv]
      have hunlost : ∀ l, old.link = l → l ≠ .enrolled → ¬ lost := fun l h hne hlost => hne (h.symm.trans hlost.2.1)
      refine ⟨fun h => ?_, fun hk => ⟨fun h => ?_, fun h => ?_, fun h h2 => ?_, fun h => ?_⟩, fun h => ?_, fun h => ?_,
        fun g' d' hgd => ?_, fun h => ?_, fun h => ?_, fun y hy hm => ⟨?_, fun h => ?_, fun h => ?_, ?_⟩, fun y hy => ?_, fun h => ?_,
        ?_, fun h => ?_, fun y hlost' hy => ⟨fun hst => ?_, fun hidle hst => ?_⟩⟩
      · have hn : ¬ lost := h.elim (fun hk hl => nomatch hk.symm.trans hl.1) fun ha => hunlost _ ha nofun
        rw [hv]
        exact (hkept hn).1.probe h
      · rw [hv]
        exact (hkept (h.elim (fun h => hunlost _ h nofun) fun h => hunlost _ h nofun)).1.early hk h
      · rw [hv]
        exact (hkept (h.elim (fun h => hunlost _ h nofun) fun h => hunlost _ h nofun)).1.third hk h
      · rw [hv]
        exact (hkept fun hl => absurd hl.2.2 (Nat.not_le.mpr h2)).1.enrolled hk h h2
      · rw [hv]
        exact (hkept (hunlost _ h nofun)).1.lost hk h
      · obtain ⟨hnew, -, hnotices⟩ := hlost h
        exact ⟨hv.trans hnew, hnotices⟩
      · obtain ⟨-, hnotices⟩ := hkept h
        exact hnotices
      · exact (hmisses.drops g' d' hgd).trans (s.drop_lineFreed g g' d')
      · exact hmisses.stirs.wakes hp (hmoved.mp h)
      · exact hmisses.stirs.rests fun ⟨_, h'⟩ => h (hmoved.mpr h')
      · rw [hv]
        exact hmisses.copies y hy (hmoved.mp hm)
      · obtain ⟨-, ho, -⟩ := hlost h
        exact (hmisses.latch y hy).1 (ho.trans hy)
      · refine (hmisses.latch y hy).2 fun ho => ?_
        obtain ⟨hl, -⟩ := hsome (by rw [ho]; rfl)
        exact h hl
      · exact hmisses.tested y hy (hmoved.mp hm)
      · exact hmisses.cols y (hy.imp id fun h h' => h (hmoved.mpr h'))
      · exact hmisses.untested (h.imp id fun h h' => h (hmoved.mpr h'))
      · exact (congrArg (fun w : State => { w with segs := s.segs }) hmisses.kept :)
      · refine hstill ?_
        rcases h with h | h | h
        · refine .inl (Option.not_isSome_iff_eq_none.mp fun ho => h ?_)
          obtain ⟨hl, -⟩ := hsome ho
          exact hl
        · exact .inr h
        · refine .inl (Option.not_isSome_iff_eq_none.mp fun ho => ?_)
          obtain ⟨-, ho'⟩ := hsome ho
          rw [ho', hmap, h] at ho
          cases ho
      · obtain ⟨-, ho, -⟩ := hlost hlost'
        have hvp : v.power = .running := hmisses.stirs.power.trans hp
        have hvs : v.phase = .stopped := hmisses.stirs.phase.trans hst
        have hstopv : v.stop = s.stop := (congrArg State.stop hmisses.kept :)
        have hne : (s.lineFreed g).phase ≠ .idle := by
          change s.phase ≠ .idle
          rw [hst]
          decide
        rw [hstop y (ho.trans hy) hne, State.offerStop_stopped hvp hvs, hstopv]
        rfl
      · obtain ⟨-, ho, -⟩ := hlost hlost'
        have hvp : v.power = .running := hmisses.stirs.power.trans hp
        have hvs : v.phase ≠ .stopped := fun h => hst (hmisses.stirs.phase.symm.trans h)
        rw [hstop y (ho.trans hy) hidle, v.offerStop_first _ hvp hvs]
        exact v.firstStop_spec _ hvp hvs
  · have hexpiry : s.settleExpiry g d = s.changeLink g d .paging := by
      unfold State.settleExpiry
      rw [hp, ht]
      exact if_pos hl
    have h := State.redrops.of_changeLink (s := s) (g := g) (d := d) (new := .paging) (by rw [hl]; decide)
    rw [← hexpiry] at h
    refine ⟨_, rfl, h.drop, h.drops, h.stirs.wakes hp trivial, fun y hy => ⟨?_, h.tested y hy trivial⟩, fun y hy => h.cols y (.inl hy),
      fun hm => h.untested (.inl hm), ?_⟩
    · exact h.copies y hy trivial
    · have hnotices : s.notices = (s.settleExpiry g d).notices := h.notices.symm
      have hk := h.kept
      rw [hnotices] at hk
      exact hk
  · have hexpiry : s.settleExpiry g d = s := by
      unfold State.settleExpiry
      split
      · next ht =>
        refine if_neg fun hl => h.elim (fun hn => hn hl) fun hs => ?_
        rw [hs] at ht
        cases ht
      · rfl
    exact congrArg Host.Outcome.next hexpiry

end Sys2Proof.Machine

/-! What a report makes of its column, the notices and the lines, before the stop of a drive fault and the tracking work (R15, R16,
R31, R36, R38, R61). -/

namespace Sys2Proof.Machine

set_option Elab.async false

/-! ### The creep test (R38) -/

/-- What the creep test of position `p` on segment `g`, at the stored height `h`, makes of a running part. -/
structure State.testsCreep (s t : State) (g : SegId) (p : Pos) (h : Nat) : Prop where
  stirs : s.stirs t (s.creeps g p h = true) fun y => y ≠ p
  crept : s.creeps g p h = true → (t.col p).creep = none
  quiet : s.creeps g p h = false →
    (t.col p).creep = if (s.seg g).mode = .quiet ∧ (s.col p).creep = none then some h else (s.col p).creep
  cols : ∀ y, { t.col y with creep := (s.col y).creep } = s.col y
  drops : ∀ g' d, t.drop g' d = s.drop g' d
  notices : t.notices = if s.creeps g p h = true then s.noticesWith .creep else s.notices
  record : ∀ b, s.creeps g p h = true → (s.col p).creep = some b → t.lastCreep = some { pos := p, baseline := b, height := h }
  noRecord : s.creeps g p h = false → t.lastCreep = s.lastCreep
  kept : { t with segs := s.segs, cols := s.cols, notices := s.notices, lastCreep := s.lastCreep } = s

section
variable {s : State} {g : SegId} {p : Pos} {h b : Nat}

theorem State.creeps_of_fast (hm : (s.seg g).mode = .fast) : s.creeps g p h = false := by
  unfold State.creeps
  rw [hm]

theorem State.creeps_of_first (hc : (s.col p).creep = none) : s.creeps g p h = false := by
  unfold State.creeps
  rw [hc]
  cases (s.seg g).mode <;> rfl

theorem State.creeps_of_baseline (hm : (s.seg g).mode = .quiet) (hc : (s.col p).creep = some b) :
    s.creeps g p h = decide (s.limit .creepBand < natDistance h b) := by
  unfold State.creeps
  rw [hm, hc]
  refine decide_eq_decide.mpr ?_
  rw [← natDistance_eq]
  omega

theorem State.creepTest_of_fast (hm : (s.seg g).mode = .fast) : s.creepTest g p = s := by
  unfold State.creepTest
  rw [hm]

theorem State.creepTest_of_first (hm : (s.seg g).mode = .quiet) (hh : (s.col p).height = some h) (hc : (s.col p).creep = none) :
    s.creepTest g p = s.modCol p fun c => { c with creep := some h } := by
  unfold State.creepTest
  rw [hm, hh, hc]

theorem State.creepTest_of_baseline (hm : (s.seg g).mode = .quiet) (hh : (s.col p).height = some h)
    (hc : (s.col p).creep = some b) : s.creepTest g p = if s.creeps g p h = true then s.foundCreep p b h else s := by
  rw [State.creeps_of_baseline hm hc]
  unfold State.creepTest
  rw [hm, hh, hc]
  simp only [decide_eq_true_eq]

/-- A report that meets no creep leaves the state. -/
theorem State.testsCreep.refl (hno : s.creeps g p h = false) (hc : (s.seg g).mode = .quiet → (s.col p).creep ≠ none) :
    s.testsCreep s g p h where
  stirs := .of_same rfl rfl (fun _ => rfl) (fun _ _ => rfl) (by rw [hno]; decide)
  crept hyes := absurd (hno.symm.trans hyes) (by decide)
  quiet _ := (if_neg fun hq => hc hq.1 hq.2).symm
  cols _ := rfl
  drops _ _ := rfl
  notices := (if_neg (by rw [hno]; decide)).symm
  record _ hyes := absurd (hno.symm.trans hyes) (by decide)
  noRecord _ := rfl
  kept := rfl

/-- The first report in quiet mode becomes the baseline (R38). -/
theorem State.testsCreep.first (hm : (s.seg g).mode = .quiet) (hc : (s.col p).creep = none) :
    s.testsCreep (s.modCol p fun c => { c with creep := some h }) g p h := by
  have hno : s.creeps g p h = false := State.creeps_of_first hc
  have hyes : ¬ s.creeps g p h = true := by
    rw [hno]
    decide
  refine ⟨.of_same rfl rfl (fun _ => rfl) (fun y hy => ?_) hyes, fun h' => absurd h' hyes, fun _ => ?_, fun y => ?_, fun _ _ => rfl,
    (if_neg hyes).symm, fun _ h' => absurd h' hyes, fun _ => rfl, rfl⟩
  · rw [State.col_modCol_of_ne _ _ hy]
  · rw [State.col_modCol_self, if_pos ⟨hm, hc⟩]
  · rw [State.col_modCol]
    split <;> rfl

/-- A creep: the record, the notice and the wake (R38). -/
theorem State.testsCreep.found (hp : s.power = .running) (hcrept : s.creeps g p h = true) (hc : (s.col p).creep = some b) :
    s.testsCreep (s.foundCreep p b h) g p h := by
  have hno : ¬ s.creeps g p h = false := by
    rw [hcrept]
    decide
  let u : State := { s.raise .creep with lastCreep := some { pos := p, baseline := b, height := h } }
  have hwake : s.foundCreep p b h = u.wake := rfl
  have hstirs : s.stirs u.wake True fun _ => True :=
    ((State.stirs.of_same rfl rfl (fun _ => rfl) (fun _ _ => rfl) not_false : s.stirs u False _).trans u.stirs_wake).congr
      (by simp)
  have hkept : { u.wake with segs := s.segs, cols := s.cols } = u := u.wake_frame
  rw [hwake]
  refine ⟨(hstirs.congr (iff_of_true trivial hcrept)).weaken fun _ _ => trivial, fun _ => ?_, fun h' => absurd h' hno, u.col_wake_creep,
    u.drop_wake, ?_, fun b' _ hb' => ?_, fun h' => absurd h' hno, ?_⟩
  · exact (hstirs.awake hp trivial).2 p trivial
  · rw [if_pos hcrept]
    exact (congrArg State.notices hkept :)
  · cases hc.symm.trans hb'
    exact (congrArg State.lastCreep hkept :)
  · exact (congrArg (fun w : State => { w with notices := s.notices, lastCreep := s.lastCreep }) hkept :)

/-- The creep test of the running part, whole (R38). -/
theorem State.creepTest_spec (hp : s.power = .running) (hh : (s.col p).height = some h) : s.testsCreep (s.creepTest g p) g p h := by
  cases hm : (s.seg g).mode with
  | fast =>
    rw [State.creepTest_of_fast hm]
    exact .refl (State.creeps_of_fast hm) fun hq => nomatch hm.symm.trans hq
  | quiet =>
    cases hc : (s.col p).creep with
    | none =>
      rw [State.creepTest_of_first hm hh hc]
      exact .first hm hc
    | some b =>
      rw [State.creepTest_of_baseline hm hh hc]
      by_cases hcrept : s.creeps g p h = true
      · rw [if_pos hcrept]
        exact .found hp hcrept hc
      · rw [if_neg hcrept]
        exact .refl (Bool.eq_false_iff.mpr hcrept) fun _ => by rw [hc]; exact nofun

end

/-! ### The report in the column record (R15, R16) -/

/-- A column that holds a report: the clamped height and load, the range flag and the drive flags (R15, R16). -/
def Column.reporting (c : Column) (r : Report) : Column :=
  { c with
    height := some (min r.height 40000)
    load := some (min r.load 60000)
    range := decide (40000 < r.height ∨ 60000 < r.load)
    flags := r.flags }

/-- A notice that is raised where a test holds. -/
def State.raiseWhere (s : State) (raised : Bool) (c : Category) : State :=
  if raised = true then s.raise c else s

theorem State.raiseWhere_notices (s : State) (raised : Bool) (c : Category) :
    (s.raiseWhere raised c).notices = if raised = true then s.noticesWith c else s.notices := by
  unfold State.raiseWhere
  split <;> rfl

theorem State.raiseWhere_kept (s : State) (raised : Bool) (c : Category) : { s.raiseWhere raised c with notices := s.notices } = s := by
  unfold State.raiseWhere
  split <;> rfl

/-- A report in its record, with the notice of a new range flag (R15). -/
theorem State.writeReport_eq (s : State) (p : Pos) (r : Report) : s.writeReport p r =
    (s.modCol p fun c => c.reporting r).raiseWhere (decide (40000 < r.height ∨ 60000 < r.load) && !(s.col p).range) .range := by
  have hflag : rangeFlag r.height r.load = decide (40000 < r.height ∨ 60000 < r.load) := by
    unfold rangeFlag
    simp
  unfold State.writeReport
  rw [hflag]
  rfl

/-- The state of a report of position `p` before the stop of a drive fault and the tracking work: the record, the creep test, the
wake of MOVING and the notice of a new fault (R18, R31, R61). -/
def State.toldOf (s : State) (g : SegId) (p : Pos) (r : Report) : State :=
  (((s.writeReport p r).creepTest g p).wakeIfMoving r).raiseWhere (r.flags.driveFault && !(s.col p).flags.driveFault) .columnFault

/-- The stop of a reported drive fault outside IDLE (R61). -/
def State.stopAtFault (s : State) (p : Pos) (r : Report) : State :=
  if r.flags.driveFault = true ∧ s.phase ≠ .idle then s.offerStop (columnOffer .driveFault p none) else s

theorem State.handleReport_eq (s : State) (g : SegId) (p : Pos) (r : Report) : s.handleReport g p r =
    ((((s.toldOf g p r).stopAtFault p r).trackingWork p).testCompletion).testWatches p := by
  have hcheck : ∀ (u : State) (before : Bool), u.faultCheck p before r =
      (u.raiseWhere (r.flags.driveFault && !before) .columnFault).stopAtFault p r := fun u before => by
    unfold State.faultCheck State.stopAtFault State.raiseWhere
    cases r.flags.driveFault <;> cases before <;> simp
  unfold State.handleReport
  dsimp only
  rw [hcheck]
  rfl

/-- What a report of position `p` makes of a running part, before the stop of a drive fault and the tracking work. -/
structure State.reports (s t : State) (g : SegId) (p : Pos) (r : Report) : Prop where
  stirs : s.stirs t (s.creeps g p (min r.height 40000) = true ∨ r.flags.moving = true) fun y => y ≠ p
  awake : s.creeps g p (min r.height 40000) = true ∨ r.flags.moving = true → (t.col p).creep = none
  asleep : s.creeps g p (min r.height 40000) = false → r.flags.moving = false → (t.col p).creep =
    if (s.seg g).mode = .quiet ∧ (s.col p).creep = none then some (min r.height 40000) else (s.col p).creep
  column : { t.col p with creep := (s.col p).creep } = (s.col p).reporting r
  cols : ∀ y, y ≠ p → { t.col y with creep := (s.col y).creep } = s.col y
  drops : ∀ g' d, t.drop g' d = s.drop g' d
  notices : t.notices = s.newsOf p r (s.creeps g p (min r.height 40000)) s.notices
  record : ∀ b, s.creeps g p (min r.height 40000) = true → (s.col p).creep = some b →
    t.lastCreep = some { pos := p, baseline := b, height := min r.height 40000 }
  noRecord : s.creeps g p (min r.height 40000) = false → t.lastCreep = s.lastCreep
  kept : { t with segs := s.segs, cols := s.cols, notices := s.notices, lastCreep := s.lastCreep } = s

/-- A report, whole. -/
theorem State.toldOf_reports {s : State} (hp : s.power = .running) (g : SegId) (p : Pos) (r : Report) :
    s.reports (s.toldOf g p r) g p r := by
  let height := min r.height 40000
  let written := s.writeReport p r
  have hwritten : written = (s.modCol p fun c => c.reporting r).raiseWhere
      (decide (40000 < r.height ∨ 60000 < r.load) && !(s.col p).range) .range := s.writeReport_eq p r
  have hwkept : { written with cols := s.cols, notices := s.notices } = s := by
    rw [hwritten]
    exact (congrArg (fun w : State => { w with cols := s.cols }) (State.raiseWhere_kept (s.modCol p fun c => c.reporting r) _ _) :)
  have hwcols : written.cols = (s.modCol p fun c => c.reporting r).cols := by
    rw [hwritten]
    exact (congrArg State.cols (State.raiseWhere_kept (s.modCol p fun c => c.reporting r) _ _) :)
  have hwself : written.col p = (s.col p).reporting r := (State.col_congr hwcols p).trans (State.col_modCol_self _ _ _)
  have hwother : ∀ y, y ≠ p → written.col y = s.col y := fun y hy =>
    (State.col_congr hwcols y).trans (State.col_modCol_of_ne _ _ hy)
  have hwcreep : ∀ y, (written.col y).creep = (s.col y).creep := fun y => by
    by_cases hy : y = p
    · subst hy
      rw [hwself]
      rfl
    · rw [hwother y hy]
  have hwsegs : written.segs = s.segs := (congrArg State.segs hwkept :)
  have hwlimits : written.limits = s.limits := (congrArg State.limits hwkept :)
  have hwnotices : written.notices = if (decide (40000 < r.height ∨ 60000 < r.load) && !(s.col p).range) = true
      then s.noticesWith .range else s.notices := by
    rw [hwritten, State.raiseWhere_notices]
    rfl
  have hwpower : written.power = .running := (congrArg State.power hwkept :).trans hp
  have hcreeps : written.creeps g p height = s.creeps g p height := by
    unfold State.creeps
    rw [State.seg_congr hwsegs, hwcreep, State.limit_congr hwlimits]
  have htest := State.creepTest_spec (s := written) (g := g) (p := p) (h := height) hwpower (by rw [hwself]; rfl)
  have htold : s.toldOf g p r = ((written.creepTest g p).wakeIfMoving r).raiseWhere
      (r.flags.driveFault && !(s.col p).flags.driveFault) .columnFault := rfl
  rw [htold]
  generalize written.creepTest g p = u at htest
  have hmove := u.wakeIfMoving_stirs r
  have hmkept := u.wakeIfMoving_kept r
  have hmdrop := u.drop_wakeIfMoving r
  have hmcol := u.col_wakeIfMoving r
  generalize u.wakeIfMoving r = v at hmove hmkept hmdrop hmcol
  have hraise := State.raiseWhere_kept v (r.flags.driveFault && !(s.col p).flags.driveFault) .columnFault
  have hrnotices := State.raiseWhere_notices v (r.flags.driveFault && !(s.col p).flags.driveFault) .columnFault
  generalize v.raiseWhere (r.flags.driveFault && !(s.col p).flags.driveFault) .columnFault = w at hraise hrnotices
  have hrsegs : w.segs = v.segs := (congrArg State.segs hraise :)
  have hwcol : ∀ y, w.col y = v.col y := State.col_congr (congrArg State.cols hraise :)
  have hwseg : ∀ z, w.seg z = v.seg z := State.seg_congr hrsegs
  have hstart : s.stirs written False fun y => y ≠ p :=
    .of_same (congrArg State.power hwkept :) (congrArg State.phase hwkept :) (fun z => by rw [State.seg_congr hwsegs])
      (fun y _ => hwcreep y) not_false
  have hend : v.stirs w False fun y => y ≠ p :=
    .of_same (congrArg State.power hraise :) (congrArg State.phase hraise :) (fun z => by rw [hwseg]) (fun y _ => by rw [hwcol]) not_false
  have hcol : ∀ y, { w.col y with creep := (s.col y).creep } = { written.col y with creep := (s.col y).creep } := fun y => by
    rw [hwcol]
    exact (congrArg (fun c : Column => { c with creep := (s.col y).creep }) (hmcol y) :).trans
      (congrArg (fun c : Column => { c with creep := (s.col y).creep }) (htest.cols y) :)
  have hupower : u.power = .running := htest.stirs.power.trans hwpower
  constructor
  case stirs =>
    refine (((hstart.trans htest.stirs).trans (hmove.weaken fun _ _ => trivial)).trans hend).congr ?_
    rw [hcreeps]
    simp [height]
  case awake =>
    intro h
    rw [hwcol]
    by_cases hmoving : r.flags.moving = true
    · exact (hmove.awake hupower hmoving).2 p trivial
    · rw [(hmove.asleep fun h' => hmoving h'.2).2 p trivial]
      exact htest.crept (hcreeps.trans (h.resolve_right hmoving))
  case asleep =>
    intro hno hmoving
    rw [hwcol, (hmove.asleep fun h' => absurd (hmoving.symm.trans h'.2) (by decide)).2 p trivial, htest.quiet (hcreeps.trans hno),
      State.seg_congr hwsegs, hwcreep]
  case column =>
    rw [hcol, hwself]
    rfl
  case cols =>
    intro y hy
    rw [hcol, hwother y hy]
  case drops =>
    intro g' d
    rw [State.drop_congr hrsegs, hmdrop, htest.drops, State.drop_congr hwsegs]
  case notices =>
    rw [hrnotices, State.noticesWith, show v.notices = u.notices from (congrArg State.notices hmkept :), htest.notices, State.noticesWith,
      hwnotices, hcreeps]
    rfl
  case record =>
    intro b hcrept hb
    rw [show w.lastCreep = u.lastCreep from (congrArg State.lastCreep hraise :).trans (congrArg State.lastCreep hmkept :)]
    exact htest.record b (hcreeps.trans hcrept) ((hwcreep p).trans hb)
  case noRecord =>
    intro hno
    rw [show w.lastCreep = u.lastCreep from (congrArg State.lastCreep hraise :).trans (congrArg State.lastCreep hmkept :)]
    exact (htest.noRecord (hcreeps.trans hno)).trans (congrArg State.lastCreep hwkept :)
  case kept =>
    have h1 : { w with segs := s.segs, cols := s.cols, notices := s.notices, lastCreep := s.lastCreep } =
        { v with segs := s.segs, cols := s.cols, notices := s.notices, lastCreep := s.lastCreep } :=
      (congrArg (fun x : State => { x with segs := s.segs, cols := s.cols, notices := s.notices, lastCreep := s.lastCreep }) hraise :)
    have h2 : { v with segs := s.segs, cols := s.cols, notices := s.notices, lastCreep := s.lastCreep } =
        { u with segs := s.segs, cols := s.cols, notices := s.notices, lastCreep := s.lastCreep } :=
      (congrArg (fun x : State => { x with segs := s.segs, cols := s.cols, notices := s.notices, lastCreep := s.lastCreep }) hmkept :)
    have h3 : { u with segs := s.segs, cols := s.cols, notices := s.notices, lastCreep := s.lastCreep } =
        { written with segs := s.segs, cols := s.cols, notices := s.notices, lastCreep := s.lastCreep } :=
      (congrArg (fun x : State => { x with segs := s.segs, cols := s.cols, notices := s.notices, lastCreep := s.lastCreep }) htest.kept :)
    have h4 : { written with segs := s.segs, cols := s.cols, notices := s.notices, lastCreep := s.lastCreep } = s :=
      (congrArg (fun x : State => { x with segs := s.segs, lastCreep := s.lastCreep }) hwkept :)
    exact h1.trans (h2.trans (h3.trans h4))

end Sys2Proof.Machine

/-! An arrival from a mapped drop, up to the tracking work: the enrolment of its drop and the report together (R18, R31, R51 to R55). -/

namespace Sys2Proof.Machine

set_option Elab.async false

/-- The state of an arrival in exchange `x` from mapped position `p`, before the stop of a drive fault and the tracking work. -/
def State.heardFrom (s : State) (g : SegId) (x : Exchange) (r : Report) (p : Pos) : State :=
  ((s.lineFreed g).acceptReply g x r).toldOf g p r

/-- What an arrival makes of a running part before the stop of a drive fault and the tracking work; `changed` says whether the drop's
link state has changed. -/
structure State.tells (s t : State) (g : SegId) (x : Exchange) (r : Report) (p : Pos) (changed : Bool) : Prop where
  changed_eq : changed = decide ((t.drop g x.drop).link ≠ (s.drop g x.drop).link)
  told : s.isTold t g x r p changed
  enrols : ∃ n, s.enrols g x r (t.drop g x.drop) n ∧ t.notices = s.newsOf p r (!changed && s.creeps g p (min r.height 40000)) n
  inFlight : (t.seg g).inFlight = none
  column : { t.col p with creep := (s.col p).creep, link := (s.col p).link, cap := (s.col p).cap } = (s.col p).reporting r
  copied : (s.col p).link = (s.drop g x.drop).link → (s.col p).cap = (s.drop g x.drop).cap →
    (t.col p).link = (t.drop g x.drop).link ∧ (t.col p).cap = (t.drop g x.drop).cap
  still : (s.drop g x.drop).link = .enrolled → (t.col p).link = (s.col p).link ∧ (t.col p).cap = (s.col p).cap
  cols : ∀ y, y ≠ p → { t.col y with creep := (s.col y).creep } = s.col y
  watches : t.watches = (if changed = true then (s.modCol p fun c => { c with link := (t.drop g x.drop).link }).testWatches p
    else s).watches
  kept : { t with segs := s.segs, cols := s.cols, notices := s.notices, watches := s.watches, lastCreep := s.lastCreep } = s

theorem State.seg_lineFreed_drops (s : State) (g z : SegId) : ((s.lineFreed g).seg z).drops = (s.seg z).drops := by
  unfold State.lineFreed
  rw [State.seg_modSeg]
  split <;> rfl

theorem State.seg_lineFreed_mode (s : State) (g z : SegId) : ((s.lineFreed g).seg z).mode = (s.seg z).mode := by
  unfold State.lineFreed
  rw [State.seg_modSeg]
  split <;> rfl

/-- The creep test looks at the mode, at the baseline and at the creep band. -/
theorem State.creeps_congr {s t : State} {g : SegId} {p : Pos} (h : Nat) (hm : (t.seg g).mode = (s.seg g).mode)
    (hc : (t.col p).creep = (s.col p).creep) (hl : t.limits = s.limits) : t.creeps g p h = s.creeps g p h := by
  unfold State.creeps
  rw [hm, hc, State.limit_congr hl]

/-- What the creep test finds once the reply has been accepted: nothing after a change of link state, whose wake comes first, and else
what it would have found before. -/
theorem State.acceptsReply.creeps {s a : State} {g : SegId} {x : Exchange} {r : Report} {copied : Prop} (hp : s.power = .running)
    (h : (s.lineFreed g).acceptsReply a g x r copied) (p : Pos) (n : Nat) :
    a.creeps g p n = (!decide ((a.drop g x.drop).link ≠ (s.drop g x.drop).link) && s.creeps g p n) := by
  have hdrop := s.drop_lineFreed g g x.drop
  by_cases hmoved : (a.drop g x.drop).link ≠ (s.drop g x.drop).link
  · obtain ⟨hsegs, -⟩ := h.redrops.stirs.awake hp (by rw [hdrop]; exact hmoved)
    have hmode : (a.seg g).mode = .fast := (congrArg Segment.mode (hsegs g) :)
    rw [State.creeps_of_fast hmode, decide_eq_true hmoved]
    rfl
  · obtain ⟨hsegs, hcreep⟩ := h.redrops.stirs.asleep (by rw [hdrop]; exact fun h' => hmoved h'.2)
    have hmode : (a.seg g).mode = ((s.lineFreed g).seg g).mode := (congrArg Segment.mode (hsegs g) :)
    have hlimits : a.limits = s.limits := (congrArg State.limits h.redrops.kept :)
    rw [State.creeps_congr n (hmode.trans (s.seg_lineFreed_mode g g)) (hcreep p trivial) hlimits, decide_eq_false hmoved]
    rfl

section
variable {s a w : State} {g : SegId} {x : Exchange} {r : Report} {p : Pos} {copied : Prop}

/-- The lines and the creep baselines after an arrival (R36, R38). -/
theorem State.isTold_of_reports (hp : s.power = .running) (haccepts : (s.lineFreed g).acceptsReply a g x r copied)
    (hreports : a.reports w g p r) : s.isTold w g x r p (decide ((a.drop g x.drop).link ≠ (s.drop g x.drop).link)) := by
  have hcreeps := haccepts.creeps hp p (min r.height 40000)
  have hredrops := haccepts.redrops
  have hdrop := s.drop_lineFreed g g x.drop
  rw [hdrop] at hredrops
  have hcreep : a.lastCreep = s.lastCreep := (congrArg State.lastCreep hredrops.kept :)
  have hstirs := (hredrops.stirs.weaken (held' := fun y => y ≠ p) fun _ _ => trivial).trans hreports.stirs
  generalize hmoved : decide ((a.drop g x.drop).link ≠ (s.drop g x.drop).link) = changed at hcreeps
  have hiff : (a.drop g x.drop).link ≠ (s.drop g x.drop).link ↔ changed = true := by
    rw [← hmoved]
    exact decide_eq_true_iff.symm
  have hpa : (s.lineFreed g).power = .running := hp
  rw [hiff] at hredrops hstirs
  constructor
  case record =>
    intro b hch hcr hb
    obtain ⟨-, hac⟩ := hredrops.stirs.asleep fun h => absurd (hch.symm.trans h.2) (by decide)
    exact hreports.record b (by rw [hcreeps, hch, hcr]; rfl) ((hac p trivial).trans hb)
  case noRecord =>
    intro h
    refine (hreports.noRecord ?_).trans hcreep
    rw [hcreeps]
    rcases h with h | h <;> simp [h]
  case wakes =>
    intro h
    have hany : changed = true ∨ a.creeps g p (min r.height 40000) = true ∨ r.flags.moving = true := by
      rw [hcreeps]
      cases changed with
      | false => simpa using h
      | true => exact .inl rfl
    obtain ⟨hsegs, hothers⟩ := hstirs.awake hpa hany
    refine ⟨fun y => ?_, hsegs⟩
    by_cases hy : y = p
    · subst hy
      by_cases htold : a.creeps g y (min r.height 40000) = true ∨ r.flags.moving = true
      · exact hreports.awake htold
      · obtain ⟨hasegs, hac⟩ := hredrops.stirs.awake hpa (hany.resolve_right htold)
        have hmode : (a.seg g).mode = .fast := (congrArg Segment.mode (hasegs g) :)
        rw [hreports.asleep (Bool.eq_false_iff.mpr fun h => htold (.inl h)) (Bool.eq_false_iff.mpr fun h => htold (.inr h)),
          if_neg fun hq => absurd (hq.1.symm.trans hmode) nofun]
        exact hac y trivial
    · exact hothers y hy
  case rests =>
    intro hch hcr hmv
    have hno : a.creeps g p (min r.height 40000) = false := by
      rw [hcreeps, hch, hcr]
      rfl
    obtain ⟨hasegs, hac⟩ := hredrops.stirs.asleep fun h => absurd (hch.symm.trans h.2) (by decide)
    obtain ⟨hsegs, hothers⟩ := hstirs.asleep fun h => h.2.elim (fun h => absurd (hch.symm.trans h) (by decide)) fun h =>
      h.elim (fun h => absurd (hno.symm.trans h) (by decide)) fun h => absurd (hmv.symm.trans h) (by decide)
    have hmode : (a.seg g).mode = (s.seg g).mode := (congrArg Segment.mode (hasegs g) :).trans (s.seg_lineFreed_mode g g)
    have hself : (a.col p).creep = (s.col p).creep := hac p trivial
    refine ⟨?_, hothers, fun z => ?_⟩
    · rw [hreports.asleep hno hmv, hmode, hself]
    · rw [← s.seg_lineFreed_drops g z]
      exact hsegs z
  case drops =>
    intro g' d hgd
    rw [hreports.drops, hredrops.drops g' d hgd, State.drop_lineFreed]

/-- The notices of a report look at its column before the report alone. -/
theorem State.newsOf_congr {s t : State} {p : Pos} (hr : (t.col p).range = (s.col p).range) (hf : (t.col p).flags = (s.col p).flags)
    (r : Report) (crept : Bool) (n : Table NoticeState 4) : t.newsOf p r crept n = s.newsOf p r crept n := by
  unfold State.newsOf
  rw [hr, hf]

/-- The watches test a record by its link state where nothing else of it has changed (R183). -/
theorem State.testWatches_link {s t : State} {l : LinkState} {c : Capability} (hw : t.watches = s.watches)
    (hcol : { t.col p with creep := (s.col p).creep } = { s.col p with link := l, cap := c }) :
    (t.testWatches p).watches = ((s.modCol p fun c => { c with link := l }).testWatches p).watches := by
  have htested : WatchState.tested p (t.col p) = WatchState.tested p { s.col p with link := l } := by
    funext v
    rw [← WatchState.tested_creep p (t.col p) (s.col p).creep v, hcol]
    rfl
  rw [State.testWatches_watches, State.testWatches_watches, hw, State.col_modCol_self, htested]
  rfl

/-- The column of the position that is heard, once the reply has been accepted. -/
theorem State.acceptsReply.column (h : (s.lineFreed g).acceptsReply a g x r copied) (hm : s.mappedAt g x.drop = some p) :
    (copied → { a.col p with creep := (s.col p).creep } = (s.col p).mirrors (a.drop g x.drop)) ∧
    (¬ copied → { a.col p with creep := (s.col p).creep } = s.col p) ∧
    { a.col p with creep := (s.col p).creep, link := (s.col p).link, cap := (s.col p).cap } = s.col p := by
  have hyes : copied → { a.col p with creep := (s.col p).creep } = (s.col p).mirrors (a.drop g x.drop) := h.redrops.copies p hm
  have hno : ¬ copied → { a.col p with creep := (s.col p).creep } = s.col p := fun hc => h.redrops.cols p (.inr hc)
  refine ⟨hyes, hno, ?_⟩
  by_cases hc : copied
  · exact (congrArg (fun c : Column => { c with link := (s.col p).link, cap := (s.col p).cap }) (hyes hc) :)
  · exact (congrArg (fun c : Column => { c with link := (s.col p).link, cap := (s.col p).cap }) (hno hc) :)

theorem State.acceptsReply.watches (h : (s.lineFreed g).acceptsReply a g x r copied)
    (hm : s.mappedAt g x.drop = some p) : a.watches =
      (if (a.drop g x.drop).link ≠ (s.drop g x.drop).link then
        (s.modCol p fun c => { c with link := (a.drop g x.drop).link }).testWatches p else s).watches := by
  have hredrops := h.redrops
  rw [s.drop_lineFreed g g x.drop] at hredrops
  by_cases hmoved : (a.drop g x.drop).link ≠ (s.drop g x.drop).link
  · obtain ⟨hyes, -, -⟩ := h.column hm
    have hcopied : copied := h.copied.resolve_right fun h' => hmoved (h'.1.trans (congrArg Drop.link (s.drop_lineFreed g g x.drop)))
    rw [if_pos hmoved, hredrops.tested p hm hmoved]
    exact State.testWatches_link (s := s) (t := { a with watches := s.watches }) rfl (hyes hcopied)
  · rw [if_neg hmoved]
    exact hredrops.untested (.inr hmoved)

end

/-- An arrival, up to the tracking work. -/
theorem State.hears.tells {s : State} {g : SegId} {x : Exchange} {r : Report} {p : Pos} (h : s.hears g x r p) :
    ∃ changed, s.tells (s.heardFrom g x r p) g x r p changed := by
  have hp := h.running
  have hm := h.mapped
  have hsettled := (s.lineFreed g).acceptReply_cases g x r
  obtain ⟨copied, haccepts⟩ := (s.lineFreed g).acceptReply_spec g x r
  have hheard : s.heardFrom g x r p = ((s.lineFreed g).acceptReply g x r).toldOf g p r := rfl
  have hinFlight : ((s.lineFreed g).seg g).inFlight = none := by
    unfold State.lineFreed
    rw [State.seg_modSeg_self]
  rw [hheard]
  have hstay : (s.drop g x.drop).link = .enrolled →
      ((s.lineFreed g).acceptReply g x r).col p = s.col p := fun hen => by
    obtain ⟨-, -, hrest⟩ := hsettled
    rw [s.drop_lineFreed] at hrest
    rw [hrest (by rw [hen]; decide) (by rw [hen]; decide) (by rw [hen]; decide)]
    rfl
  generalize (s.lineFreed g).acceptReply g x r = a at haccepts hstay
  have hapower : a.power = .running := haccepts.redrops.stirs.power.trans hp
  have hreports := State.toldOf_reports hapower g p r
  generalize a.toldOf g p r = w at hreports
  have hdrop : w.drop g x.drop = a.drop g x.drop := hreports.drops g x.drop
  obtain ⟨hyes, hno, hcolumn⟩ := haccepts.column hm
  have hcreeps := haccepts.creeps hp p (min r.height 40000)
  have hlink : (w.col p).link = (a.col p).link := (congrArg Column.link hreports.column :)
  have hcap : (w.col p).cap = (a.col p).cap := (congrArg Column.cap hreports.column :)
  refine ⟨_, ⟨rfl, ?_, ⟨a.notices, ?_, ?_⟩, ?_, ?_, fun hl hc => ?_, fun hen => ?_, fun y hy => ?_, ?_, ?_⟩⟩
  · rw [hdrop]
    exact State.isTold_of_reports hp haccepts hreports
  · rw [hdrop]
    exact (s.enrols_lineFreed g x r _ _).mp haccepts.enrols
  · rw [hdrop, ← hcreeps, hreports.notices]
    exact State.newsOf_congr (congrArg Column.range hcolumn :) (congrArg Column.flags hcolumn :) r _ _
  · rw [hreports.stirs.inFlight, haccepts.redrops.stirs.inFlight, hinFlight]
  · refine (congrArg (fun c : Column => { c with creep := (s.col p).creep, link := (s.col p).link, cap := (s.col p).cap })
      hreports.column :).trans ?_
    exact (congrArg (fun c : Column => c.reporting r) hcolumn :)
  · rw [hdrop, hlink, hcap]
    by_cases hcopied : copied
    · exact ⟨(congrArg Column.link (hyes hcopied) :), (congrArg Column.cap (hyes hcopied) :)⟩
    · obtain ⟨hl', hc'⟩ := haccepts.copied.resolve_left hcopied
      rw [s.drop_lineFreed] at hl' hc'
      have hsl : (a.col p).link = (s.col p).link := (congrArg Column.link (hno hcopied) :)
      have hsc : (a.col p).cap = (s.col p).cap := (congrArg Column.cap (hno hcopied) :)
      exact ⟨hsl.trans (hl.trans hl'.symm), hsc.trans (hc.trans hc'.symm)⟩
  · rw [hlink, hcap, hstay hen]
    exact ⟨rfl, rfl⟩
  · refine (congrArg (fun c : Column => { c with creep := (s.col y).creep }) (hreports.cols y hy) :).trans ?_
    exact haccepts.redrops.cols y (.inl fun h' => hy (Option.some.inj (h'.symm.trans hm)))
  · have hwatches : w.watches = a.watches := (congrArg State.watches hreports.kept :)
    rw [hwatches, haccepts.watches hm, hdrop]
    simp only [decide_eq_true_eq]
  · let restore := fun v : State =>
      { v with segs := s.segs, cols := s.cols, notices := s.notices, watches := s.watches, lastCreep := s.lastCreep }
    refine (congrArg restore hreports.kept :).trans ?_
    exact (congrArg (fun v : State => { v with segs := s.segs, lastCreep := s.lastCreep }) haccepts.redrops.kept :)

/-- The whole arrival, from the state in which its report has been told. -/
theorem State.hears.statusArrival {s : State} {g : SegId} {x : Exchange} {r : Report} {p : Pos} (h : s.hears g x r p) :
    s.statusArrival g (statusFrame x.drop x.toggle r) =
      (((((s.heardFrom g x r p).stopAtFault p r).trackingWork p).testCompletion).testWatches p).modSeg g Segment.goOn := by
  obtain ⟨copied, haccepts⟩ := (s.lineFreed g).acceptReply_spec g x r
  have hroster : ((s.lineFreed g).acceptReply g x r).roster = s.roster := (congrArg State.roster haccepts.redrops.kept :)
  have hmap : ((s.lineFreed g).acceptReply g x r).mappedAt g x.drop = some p := by
    rw [State.mappedAt_congr hroster]
    exact h.mapped
  rw [State.statusArrival_of_read h.running h.inFlight h.height h.load]
  unfold State.takeReply
  change (match ((s.lineFreed g).acceptReply g x r).mappedAt g x.drop with
    | none => ((s.lineFreed g).acceptReply g x r).wakeIfMoving r
    | some p => ((s.lineFreed g).acceptReply g x r).handleReport g p r).modSeg g Segment.goOn = _
  rw [hmap]
  dsimp only
  rw [State.handleReport_eq]
  rfl

end Sys2Proof.Machine

/-! The tracking work of an arrival in ALIGNED, LANDED and STOPPED, and O53. -/

namespace Sys2Proof.Machine

set_option Elab.async false

/-- The stop causes in the order of their numbers (the table of section 8.1). -/
def stopCauses : List StopCause :=
  [.stopRequest, .stopByte, .stopIn, .authorityLapse, .lag, .carSpread, .articulation, .overload, .loadLost, .driveLimit,
    .noContact, .columnLost, .driveFault, .powerRestored]

theorem stopCauses_code (c : StopCause) : stopCauses[c.code.val]? = some c := by
  cases c <;> rfl

/-- No two stop causes have one number. -/
theorem StopCause.code_injective {c d : StopCause} (h : c.code = d.code) : c = d := by
  have hd := stopCauses_code d
  rw [← h, stopCauses_code c] at hd
  exact Option.some.inj hd

theorem StopCause.exists_code (i : Fin 14) : ∃ c : StopCause, c.code = i := by
  refine ⟨stopCauses[i.val]'(by exact i.isLt), ?_⟩
  fin_cases i <;> rfl

/-- Two sets of causes with the same members. -/
theorem causes_ext {a b : Table Bool 14} (h : ∀ c : StopCause, a.get c.code = true ↔ b.get c.code = true) : a = b :=
  Table.ext_get fun i => by
    obtain ⟨c, rfl⟩ := StopCause.exists_code i
    exact Bool.eq_iff_iff.mpr (h c)

/-! ### Offers one after another (R121, R149) -/

/-- Offers taken in STOPPED: the causes join the further-causes set, but for that of the record (R149). -/
theorem State.offerAll_stopped {s : State} (hp : s.power = .running) (hphase : s.phase = .stopped) (os : List Offer) :
    ∃ further, s.offerAll os = { s with stop := { s.stop with further := further } } ∧
      ∀ c : StopCause, further.get c.code = true ↔
        s.stop.further.get c.code = true ∨ s.stop.recordCause ≠ some c ∧ ∃ o ∈ os, o.cause = c := by
  induction os generalizing s with
  | nil => exact ⟨s.stop.further, rfl, fun c => by simp⟩
  | cons o os ih =>
    let first := if s.stop.recordCause = some o.cause then s.stop.further else s.stop.further.set o.cause.code true
    have hstep : s.offerStop o = { s with stop := { s.stop with further := first } } := State.offerStop_stopped hp hphase o
    obtain ⟨further, hall, hget⟩ := ih (s := { s with stop := { s.stop with further := first } }) hp hphase
    refine ⟨further, ?_, fun c => ?_⟩
    · change (s.offerStop o).offerAll os = _
      rw [hstep]
      exact hall
    · have hfirst : first.get c.code = true ↔ s.stop.further.get c.code = true ∨ s.stop.recordCause ≠ some c ∧ o.cause = c := by
        have hcode : c.code = o.cause.code ↔ o.cause = c := ⟨fun h => (StopCause.code_injective h).symm, fun h => by rw [h]⟩
        by_cases hrec : s.stop.recordCause = some o.cause
        · have hno : ¬ (s.stop.recordCause ≠ some c ∧ o.cause = c) := by
            rintro ⟨hne, rfl⟩
            exact hne hrec
          simp only [first, if_pos hrec, hno, or_false]
        · simp only [first, if_neg hrec, Table.get_set, hcode]
          by_cases hc : o.cause = c
          · subst hc
            simp [hrec]
          · simp [hc]
      have hcause : ({ s with stop := { s.stop with further := first } } : State).stop.recordCause = s.stop.recordCause := rfl
      rw [hget, hcause]
      change first.get c.code = true ∨ _ ↔ _
      rw [hfirst, List.exists_mem_cons_iff]
      tauto

/-! ### rel, the spread and the checks of an arrival (R120, R131, R133) -/

theorem spreadOf_eq (a b c d : Int) (n : Nat) :
    spreadOf a b c d = n ↔ (n : Int) = max (max a b) (max c d) - min (min a b) (min c d) := by
  unfold spreadOf
  have h1 : min (min a b) (min c d) ≤ max (max a b) (max c d) :=
    (min_le_left _ _).trans ((min_le_left _ _).trans ((le_max_left _ _).trans (le_max_left _ _)))
  omega

/-- A car's spread is that of its four present rel values (R131). -/
theorem State.spreadNow_eq_some {s : State} {k : CarId} {n : Nat} :
    s.spreadNow k = some n ↔ spreadIs (fun y => (s.col y).rel) k n := by
  unfold State.spreadNow spreadIs
  constructor
  · intro h
    split at h
    · next a b c d ha hb hc hd => exact ⟨a, b, c, d, ha, hb, hc, hd, (spreadOf_eq a b c d n).mp (Option.some.inj h)⟩
    · cases h
  · rintro ⟨a, b, c, d, ha, hb, hc, hd, hn⟩
    simp only [ha, hb, hc, hd]
    exact congrArg some ((spreadOf_eq a b c d n).mpr hn)

/-- rel after a report: the height less the contact height, absent without one (R120). -/
theorem Column.withRel_rel {c : Column} {h : Nat} (hh : c.height = some h) :
    c.withRel.rel = c.contact.map fun k => (h : Int) - k := by
  unfold Column.withRel
  rw [hh]
  cases c.contact <;> rfl

/-- The overload check of a position: its load is above a present rated load (R133). -/
def State.isOverloaded (s : State) (p : Pos) : Prop :=
  ∃ rated load, (s.col p).cap.rated = some rated ∧ (s.col p).load = some load ∧ rated < load

theorem State.overloadCheck_eq_nil {s : State} {p : Pos} (h : ¬ s.isOverloaded p) : s.overloadCheck p = [] := by
  unfold State.overloadCheck
  split
  · next l r hl hr => exact if_neg fun hlt => h ⟨r, l, hr, hl, of_decide_eq_true hlt⟩
  · rfl

theorem State.overloadCheck_eq {s : State} {p : Pos} {rated load : Nat} (hr : (s.col p).cap.rated = some rated)
    (hl : (s.col p).load = some load) (hlt : rated < load) : s.overloadCheck p = [columnOffer .overload p (some load)] := by
  unfold State.overloadCheck
  rw [hr, hl]
  exact if_pos (decide_eq_true hlt)

/-! ### The work in ALIGNED, LANDED and STOPPED (R120) -/

/-- rel and the car's spread brought up to date at an arrival of position `p` (R120, R131). -/
def State.measured (s : State) (p : Pos) : State :=
  (s.modCol p Column.withRel).writeSpread (carOf p)

theorem State.col_measured (s : State) (p y : Pos) : (s.measured p).col y = if y = p then (s.col y).withRel else s.col y :=
  State.col_modCol _ _ _ _

theorem State.measured_spread (s : State) (p : Pos) (k : CarId) :
    (s.measured p).spread.get k = if k = carOf p then (s.measured p).spreadNow k else s.spread.get k := by
  have hnow : (s.measured p).spreadNow = (s.modCol p Column.withRel).spreadNow := rfl
  rw [hnow]
  unfold State.measured State.writeSpread
  rw [Table.get_set]
  split
  · next h => rw [h]
  · rfl

theorem State.measured_kept (s : State) (p : Pos) : { s.measured p with cols := s.cols, spread := s.spread } = s :=
  rfl

theorem State.measured_isOverloaded (s : State) (p : Pos) : (s.measured p).isOverloaded p ↔ s.isOverloaded p := by
  unfold State.isOverloaded
  rw [State.col_measured, if_pos rfl]
  rfl

/-- The work of an arrival of `p` that takes no first stop: rel, the spread and demand 0, with the further causes of `os`. -/
structure State.levels (s t : State) (p : Pos) (overload : Prop) : Prop where
  column : t.col p = { (s.col p).withRel with demand := 0 }
  cols : ∀ y, y ≠ p → t.col y = s.col y
  spread : ∀ n, t.spread.get (carOf p) = some n ↔ spreadIs (fun y => (t.col y).rel) (carOf p) n
  spreads : ∀ k, k ≠ carOf p → t.spread.get k = s.spread.get k
  further : ∀ c : StopCause, t.stop.further.get c.code = true ↔
    s.stop.further.get c.code = true ∨ s.stop.recordCause ≠ some c ∧ c = .overload ∧ overload
  stop : { t.stop with further := s.stop.further } = s.stop
  kept : { t with cols := s.cols, spread := s.spread, stop := s.stop } = s

theorem State.restWork_eq (s : State) (p : Pos) :
    (s.modCol p Column.withRel).restWork p = ((s.measured p).offerAll ((s.measured p).overloadCheck p)).setDemand p 0 :=
  rfl

/-- The work without a first stop changes the columns, the spread and the further causes alone. -/
theorem State.levels_of_further {s : State} {p : Pos} {further : Table Bool 14} {overload : Prop}
    (h : ∀ c : StopCause, further.get c.code = true ↔
      s.stop.further.get c.code = true ∨ s.stop.recordCause ≠ some c ∧ c = .overload ∧ overload) :
    s.levels (({ s.measured p with stop := { s.stop with further := further } } : State).setDemand p 0) p overload := by
  let u : State := { s.measured p with stop := { s.stop with further := further } }
  have hself : (u.setDemand p 0).col p = { (s.col p).withRel with demand := 0 } := by
    unfold State.setDemand
    rw [State.col_modCol_self]
    change { (s.measured p).col p with demand := 0 } = _
    rw [State.col_measured, if_pos rfl]
  have hother : ∀ y, y ≠ p → (u.setDemand p 0).col y = s.col y := fun y hy => by
    unfold State.setDemand
    rw [State.col_modCol_of_ne _ _ hy]
    change (s.measured p).col y = _
    rw [State.col_measured, if_neg hy]
  have hrel : ∀ y, ((u.setDemand p 0).col y).rel = ((s.measured p).col y).rel := fun y => by
    by_cases hy : y = p
    · subst hy
      rw [hself, State.col_measured, if_pos rfl]
    · rw [hother y hy, State.col_measured, if_neg hy]
  refine ⟨hself, hother, fun n => ?_, fun k hk => ?_, h, rfl, rfl⟩
  · change (s.measured p).spread.get (carOf p) = some n ↔ spreadIs (fun y => ((u.setDemand p 0).col y).rel) (carOf p) n
    rw [State.measured_spread, if_pos rfl, State.spreadNow_eq_some]
    simp only [hrel]
  · exact (s.measured_spread p k).trans (if_neg hk)

theorem State.restWork_levels {s : State} {p : Pos} (h : ¬ s.isOverloaded p) :
    s.levels ((s.modCol p Column.withRel).restWork p) p (s.isOverloaded p) := by
  rw [State.restWork_eq, State.overloadCheck_eq_nil fun h' => h ((s.measured_isOverloaded p).mp h')]
  exact State.levels_of_further (further := s.stop.further) fun c => by simp [h]

/-- In STOPPED an overload joins the further causes (R149). -/
theorem State.restWork_levels_stopped {s : State} {p : Pos} (hp : s.power = .running) (hphase : s.phase = .stopped) :
    s.levels ((s.modCol p Column.withRel).restWork p) p (s.isOverloaded p) := by
  by_cases h : s.isOverloaded p
  · have ⟨rated, load, hr, hl, hlt⟩ := (s.measured_isOverloaded p).mpr h
    have hpower : (s.measured p).power = .running := hp
    have hphase' : (s.measured p).phase = .stopped := hphase
    obtain ⟨further, hall, hget⟩ := State.offerAll_stopped hpower hphase' [columnOffer .overload p (some load)]
    rw [State.restWork_eq, State.overloadCheck_eq hr hl hlt, hall]
    refine State.levels_of_further fun c => (hget c).trans ?_
    have hstop : (s.measured p).stop = s.stop := rfl
    rw [hstop, List.exists_mem_cons_iff]
    simp only [columnOffer, h, and_true, List.not_mem_nil, false_and, exists_false, or_false, eq_comm]
  · exact State.restWork_levels h

/-- Outside STOPPED an overload is a first stop (R133, R148). -/
theorem State.restWork_stops {s : State} {p : Pos} {rated load : Nat} (hp : s.power = .running) (hphase : s.phase ≠ .stopped)
    (hr : (s.col p).cap.rated = some rated) (hl : (s.col p).load = some load) (hlt : rated < load) :
    ∃ t, (s.measured p).takesFirstStop t (columnOffer .overload p (some load)) ∧
      (s.modCol p Column.withRel).restWork p = t.setDemand p 0 := by
  have hpower : (s.measured p).power = .running := hp
  have hphase' : (s.measured p).phase ≠ .stopped := hphase
  have hself : (s.measured p).col p = (s.col p).withRel := (s.col_measured p p).trans (if_pos rfl)
  refine ⟨_, State.firstStop_spec (s.measured p) (columnOffer .overload p (some load)) hpower hphase', ?_⟩
  rw [State.restWork_eq, State.overloadCheck_eq (s := s.measured p) (by rw [hself]; exact hr) (by rw [hself]; exact hl) hlt]
  change ((s.measured p).offerStop (columnOffer .overload p (some load))).setDemand p 0 = _
  rw [State.offerStop_first _ _ hpower hphase']

/-! ### O53 -/

/-- What is told of an arrival is told of a state that differs in neither the lines nor the creep baselines nor the creep record. -/
theorem State.isTold.congr {s t u : State} {g : SegId} {x : Exchange} {r : Report} {p : Pos} {changed : Bool}
    (h : s.isTold t g x r p changed) (hcreep : u.lastCreep = t.lastCreep) (hsegs : u.segs = t.segs)
    (hcols : ∀ y, (u.col y).creep = (t.col y).creep) : s.isTold u g x r p changed where
  record b hch hcr hb := hcreep.trans (h.record b hch hcr hb)
  noRecord hn := hcreep.trans (h.noRecord hn)
  wakes hw := by
    obtain ⟨hc, hs⟩ := h.wakes hw
    exact ⟨fun y => (hcols y).trans (hc y), fun z => by rw [State.seg_congr hsegs]; exact hs z⟩
  rests h1 h2 h3 := by
    obtain ⟨hc, hy, hs⟩ := h.rests h1 h2 h3
    exact ⟨(hcols p).trans hc, fun y hne => (hcols y).trans (hy y hne), fun z => by rw [State.seg_congr hsegs]; exact hs z⟩
  drops g' d hgd := (State.drop_congr hsegs g' d).trans (h.drops g' d hgd)

/-- The end of an arrival changes the watches and the line alone. -/
def State.ended (s : State) (g : SegId) (p : Pos) : State :=
  (s.testWatches p).modSeg g Segment.goOn

theorem State.ended_kept (s : State) (g : SegId) (p : Pos) : { s.ended g p with watches := s.watches, segs := s.segs } = s :=
  rfl

section
variable {s w u : State} {g : SegId} {x : Exchange} {r : Report} {p : Pos} {changed : Bool}

/-- The parts of a report's record that the tracking work reads. -/
theorem State.tells.values (h : s.tells w g x r p changed) : (w.col p).height = some (min r.height 40000) ∧
    (w.col p).load = some (min r.load 60000) ∧ (w.col p).flags = r.flags ∧ (w.col p).contact = (s.col p).contact ∧
    (w.col p).offset = (s.col p).offset ∧ (w.col p).range = decide (40000 < r.height ∨ 60000 < r.load) :=
  ⟨(congrArg Column.height h.column :), (congrArg Column.load h.column :), (congrArg Column.flags h.column :),
    (congrArg Column.contact h.column :), (congrArg Column.offset h.column :), (congrArg Column.range h.column :)⟩

theorem State.tells.fields (h : s.tells w g x r p changed) : w.power = s.power ∧ w.phase = s.phase ∧ w.ref = s.ref ∧ w.plan = s.plan ∧
    w.stop = s.stop ∧ w.limits = s.limits ∧ w.roster = s.roster ∧ w.spread = s.spread ∧ w.retention = s.retention ∧
    w.starts = s.starts ∧ w.holdCount = s.holdCount ∧ w.outCount = s.outCount :=
  ⟨(congrArg State.power h.kept :), (congrArg State.phase h.kept :), (congrArg State.ref h.kept :), (congrArg State.plan h.kept :),
    (congrArg State.stop h.kept :), (congrArg State.limits h.kept :), (congrArg State.roster h.kept :), (congrArg State.spread h.kept :),
    (congrArg State.retention h.kept :), (congrArg State.starts h.kept :), (congrArg State.holdCount h.kept :),
    (congrArg State.outCount h.kept :)⟩

/-- rel of every position after a report is the measured one of the reporting position and the stored one elsewhere. -/
theorem State.tells.rel_of_ne (h : s.tells w g x r p changed) {y : Pos} (hy : y ≠ p) : (w.col y).rel = (s.col y).rel :=
  (congrArg Column.rel (h.cols y hy) :)

/-- The spread of the state that an arrival leaves, from the stored rel values. -/
theorem State.tells.spread_rels (h : s.tells w g x r p changed) (hself : (u.col p).rel = (w.col p).withRel.rel)
    (hother : ∀ y, y ≠ p → (u.col y).rel = (w.col y).rel) : (fun y => (u.col y).rel) =
      fun y => if y = p then (s.col p).contact.map fun k => ((min r.height 40000 : Nat) : Int) - k else (s.col y).rel := by
  obtain ⟨hheight, -, -, hcontact, -⟩ := h.values
  funext y
  by_cases hy : y = p
  · subst hy
    rw [if_pos rfl, hself, Column.withRel_rel hheight, hcontact]
  · rw [if_neg hy, hother y hy, h.rel_of_ne hy]

theorem State.tells.isOverloaded_iff (h : s.tells w g x r p changed) :
    w.isOverloaded p ↔ ∃ rated, (w.col p).cap.rated = some rated ∧ rated < min r.load 60000 := by
  obtain ⟨-, hload, -⟩ := h.values
  unfold State.isOverloaded
  rw [hload]
  exact ⟨fun ⟨rated, load, hr, hl, hlt⟩ => ⟨rated, hr, Option.some.inj hl ▸ hlt⟩, fun ⟨rated, hr, hlt⟩ => ⟨rated, _, hr, rfl, hlt⟩⟩

/-- The arrival of an unfaulted report in a phase without a leg, by its work. -/
theorem State.hears.rest_arrival (hears : s.hears g x r p) (hfault : r.flags.driveFault = false)
    (hwork : ((s.heardFrom g x r p).trackingWork p) = u) (hleg : u.phase.isLeg = false) :
    exec (.statusArrival g (statusFrame x.drop x.toggle r)) s = .next ((u.testWatches p).modSeg g Segment.goOn) := by
  have hcomplete : u.legComplete = false := by
    unfold State.legComplete
    rw [hleg]
    rfl
  have hstop : (s.heardFrom g x r p).stopAtFault p r = s.heardFrom g x r p :=
    if_neg fun h => absurd (hfault.symm.trans h.1) (by decide)
  refine congrArg Host.Outcome.next (hears.statusArrival.trans ?_)
  rw [hstop, hwork, State.testCompletion_of_not hcomplete]

theorem State.trackingWork_rest {w : State} (p : Pos) (h : w.phase ∈ [Phase.aligned, .landed, .stopped]) :
    w.trackingWork p = (w.modCol p Column.withRel).restWork p := by
  have hphase : (w.modCol p Column.withRel).phase = w.phase := rfl
  unfold State.trackingWork
  dsimp only
  rw [hphase]
  simp only [List.mem_cons, List.not_mem_nil, or_false] at h
  rcases h with h | h | h <;> rw [h]

end

/-- Settles O53: the arrival at rest, with the overload as a stop or as a further cause. -/
theorem restArrival : Obligations.RestArrival := by
  unfold Obligations.RestArrival
  intro s g x r p hears hfault hphase
  obtain ⟨changed, htells⟩ := hears.tells
  have hwork := State.trackingWork_rest (w := s.heardFrom g x r p) p (by rw [htells.fields.2.1]; exact hphase)
  have harrival := fun u (hu : (s.heardFrom g x r p).trackingWork p = u) => hears.rest_arrival hfault hu
  generalize s.heardFrom g x r p = w at htells hwork harrival
  obtain ⟨hwpower, hwphase, hwref, hwplan, hwstop, -, -, hwspread, hwretention, -⟩ := htells.fields
  obtain ⟨hheight, hload, hflags, hcontact, -⟩ := htells.values
  have hrunning : w.power = .running := hwpower.trans hears.running
  have hrest : s.phase.isLeg = false := by
    simp only [List.mem_cons, List.not_mem_nil, or_false] at hphase
    rcases hphase with h | h | h <;> rw [h] <;> rfl
  by_cases hcalm : ¬ w.isOverloaded p ∨ s.phase = .stopped
  · have hlevels : w.levels ((w.modCol p Column.withRel).restWork p) p (w.isOverloaded p) :=
      hcalm.elim State.restWork_levels fun h => State.restWork_levels_stopped hrunning (hwphase.trans h)
    rw [← hwork] at hlevels
    generalize hu : w.trackingWork p = u at hlevels
    have huphase : u.phase = w.phase := (congrArg State.phase hlevels.kept :)
    have hsegs : u.segs = w.segs := (congrArg State.segs hlevels.kept :)
    have hdrop : u.drop g x.drop = w.drop g x.drop := State.drop_congr hsegs _ _
    have hcreep : ∀ y, (u.col y).creep = (w.col y).creep := fun y => by
      by_cases hy : y = p
      · subst hy
        rw [hlevels.column]
        rfl
      · rw [hlevels.cols y hy]
    have hcap : (u.col p).cap = (w.col p).cap := (congrArg Column.cap hlevels.column :)
    have hrels := htells.spread_rels (u := u) (congrArg Column.rel hlevels.column :) fun y hy => by rw [hlevels.cols y hy]
    refine ⟨_, u, harrival u hu (by rw [huphase, hwphase]; exact hrest), rfl, ?_⟩
    intro rel load overload
    have hover : overload ↔ w.isOverloaded p := by
      rw [htells.isOverloaded_iff, ← hcap]
      rfl
    refine ⟨?_, ?_, ?_, fun n => ?_, fun c hc => ?_, fun _ => ⟨?_, ?_, fun hch => ?_, ?_⟩, fun hno => ⟨?_, ?_, ?_, ?_, fun y hy => ?_⟩,
      fun hyes hne => ?_, fun k hyes hst hk => ⟨?_, ?_⟩⟩
    · exact (congrFun hrels p).trans (if_pos rfl)
    · exact (congrArg Column.contact hlevels.column :).trans hcontact
    · exact (congrArg Column.demand hlevels.column :)
    · refine (hlevels.spread n).trans ?_
      rw [hrels]
    · exact (hlevels.spreads c hc).trans (by rw [hwspread])
    · rw [hdrop, ← htells.changed_eq]
      exact htells.told.congr (congrArg State.lastCreep hlevels.kept :) hsegs hcreep
    · rw [hdrop, ← htells.changed_eq]
      obtain ⟨n, henrols, hnotices⟩ := htells.enrols
      exact ⟨n, henrols, (congrArg State.notices hlevels.kept :).trans hnotices⟩
    · rw [hdrop, ← htells.changed_eq] at hch
      refine (congrArg State.watches hlevels.kept :).trans (htells.watches.trans ?_)
      rw [if_neg (by rw [hch]; decide)]
    · let restore := fun v : State =>
        { v with segs := s.segs, cols := s.cols, notices := s.notices, watches := s.watches, lastCreep := s.lastCreep,
                 spread := s.spread, stop := s.stop }
      exact (congrArg restore hlevels.kept :).trans
        (congrArg (fun v : State => { v with spread := s.spread, stop := s.stop }) htells.kept :)
    · exact huphase.trans hwphase
    · have hfurther : u.stop.further = w.stop.further := causes_ext fun c => by
        simp [hlevels.further c, show ¬ w.isOverloaded p from fun h => hno (hover.mpr h)]
      have hstop := hlevels.stop
      rw [← hfurther] at hstop
      exact hstop.trans hwstop
    · exact (congrArg State.retention hlevels.kept :).trans hwretention
    · exact (congrArg State.ref hlevels.kept :).trans hwref
    · change { u.col y with creep := (s.col y).creep } = s.col y
      rw [hlevels.cols y hy]
      exact htells.cols y hy
    · exact absurd (hover.mp hyes) (hcalm.resolve_right hne)
    · exact huphase.trans (hwphase.trans hst)
    · have hstop : { u.stop with further := w.stop.further } = w.stop := hlevels.stop
      have hcause : w.stop.recordCause = some k.cause := by
        rw [hwstop, StopUnit.recordCause, hk]
        rfl
      have hfurther : u.stop.further =
          if k.cause = .overload then w.stop.further else w.stop.further.set StopCause.overload.code true := causes_ext fun c => by
        rw [hlevels.further c, hcause]
        by_cases hov : k.cause = .overload
        · rw [if_pos hov, hov]
          simp only [ne_eq, Option.some.injEq]
          tauto
        · rw [if_neg hov, Table.get_set]
          by_cases hc : c = .overload
          · subst hc
            simp [hov, hover.mp hyes]
          · rw [if_neg fun h => hc (StopCause.code_injective h)]
            simp [hc]
      rw [← hwstop, ← hfurther]
      exact (congrArg (fun v : StopUnit => { v with further := u.stop.further }) hstop :)
  · obtain ⟨hov, hst⟩ := not_or.mp hcalm
    have hov' : w.isOverloaded p := not_not.mp hov
    obtain ⟨rated, load', hr, hl, hlt⟩ := hov'
    cases hload.symm.trans hl
    obtain ⟨v, hfirst, hrestwork⟩ := State.restWork_stops hrunning (fun h => hst (hwphase.symm.trans h)) hr hl hlt
    rw [hrestwork] at hwork
    have hself : (w.measured p).col p = (w.col p).withRel := (w.col_measured p p).trans (if_pos rfl)
    have hcols := hfirst.columns
    have hvrel : ∀ y, (v.col y).rel = ((w.measured p).col y).rel := fun y => (congrArg Column.rel (hcols y) :)
    have hcap : ((v.setDemand p 0).col p).cap = (w.col p).cap := by
      rw [State.setDemand, State.col_modCol_self, ← show ((w.measured p).col p).cap = (w.col p).cap by rw [hself]; rfl]
      exact (congrArg Column.cap (hcols p) :)
    have hrel : ∀ y, ((v.setDemand p 0).col y).rel = ((w.measured p).col y).rel := fun y => by
      rw [← hvrel, State.setDemand, State.col_modCol]
      split <;> rfl
    have hrels := htells.spread_rels (u := v.setDemand p 0) (by rw [hrel, hself]) fun y hy => by
      rw [hrel, State.col_measured, if_neg hy]
    have hspread : v.spread = (w.measured p).spread := (congrArg State.spread hfirst.kept :)
    refine ⟨_, v.setDemand p 0, harrival _ hwork (by change v.phase.isLeg = false; rw [hfirst.phase]; rfl), rfl, ?_⟩
    intro rel load overload
    have hover : overload := ⟨rated, (congrArg Capability.rated hcap).trans hr, hlt⟩
    have hdemand : ∀ y, ((v.setDemand p 0).col y).demand = 0 := fun y => by
      rw [State.setDemand, State.col_modCol]
      split
      · rfl
      · exact (hfirst.demands y).1
    refine ⟨?_, ?_, hdemand p, fun n => ?_, fun c hc => ?_, fun h => ?_, fun hno => absurd hover hno, fun _ _ => ⟨?_, hdemand, ?_, ?_, ?_⟩,
      fun k _ hstop => absurd hstop hst⟩
    · exact (congrFun hrels p).trans (if_pos rfl)
    · change ((v.setDemand p 0).col p).contact = _
      rw [State.setDemand, State.col_modCol_self, ← hcontact, ← show ((w.measured p).col p).contact = (w.col p).contact by rw [hself]; rfl]
      exact (congrArg Column.contact (hcols p) :)
    · change v.spread.get (carOf p) = some n ↔ _
      rw [hspread, State.measured_spread, if_pos rfl, State.spreadNow_eq_some]
      simp only [← hrel]
      rw [hrels]
    · change v.spread.get c = _
      rw [hspread, State.measured_spread, if_neg hc, hwspread]
    · exact absurd h (not_or.mpr ⟨not_not.mpr hover, hst⟩)
    · exact hfirst.phase
    · exact hfirst.stopOut
    · intro c
      change v.stop.further.get c = false
      rw [hfirst.further, Table.get_fill]
    · change v.stop.record = _
      rw [hfirst.record]
      change some ((w.measured p).recordOf (columnOffer .overload p (some load))) = _
      unfold State.recordOf
      change some ({ cause := _, pos := _, car := _, value := _, phase := w.phase, h := w.ref.h, legIndex := w.plan.index,
                     port := _ } : StopRecord) = _
      rw [hwphase, hwref, hwplan]
      rfl

end Sys2Proof.Machine

/-! What the tracking work and the completion test leave of a report: its record, its notices, the drops and the return to fast polling
(R15, R36, R38, R61). `State.respects` says it of two states, and one lemma an operation follows the operation's definition. -/

namespace Sys2Proof.Machine

set_option Elab.async false

/-- The report in a column record stays, and no creep baseline comes up. -/
structure Column.respects (c d : Column) : Prop where
  height : d.height = c.height
  load : d.load = c.load
  range : d.range = c.range
  flags : d.flags = c.flags
  creep : c.creep = none → d.creep = none

/-- The exchange of a segment stays, a segment in fast mode stays in it, and of its drops nothing but a settle timer changes. -/
structure Segment.respects (a b : Segment) : Prop where
  inFlight : b.inFlight = a.inFlight
  fast : a.mode = .fast → b.mode = .fast
  link : ∀ d, (b.drops.get d).link = (a.drops.get d).link
  drop : ∀ d, (a.drops.get d).link ≠ .settling → b.drops.get d = a.drops.get d

/-- The categories that the part raises at a report alone, with the share notice where `shared` holds (R15, R38, R61, R137). -/
def Category.reported (shared : Prop) (c : Category) : Prop :=
  c = .range ∨ c = .creep ∨ c = .columnFault ∨ c = .loadShare ∧ shared

/-- Between `s` and `t` the report of each column stays, with its notices, and the lines that are awake stay awake; with `shared` the
share flags and their notice stay too. -/
structure State.respects (s t : State) (shared : Prop) : Prop where
  waiting : ∀ (c : Category) (q : PortId), c.reported shared →
    (t.notices.get q).waiting.get c.code = (s.notices.get q).waiting.get c.code
  enabled : ∀ q, (t.notices.get q).enabled = (s.notices.get q).enabled
  cols : ∀ y, (s.col y).respects (t.col y)
  share : shared → ∀ y, (t.col y).share = (s.col y).share
  segs : ∀ z, (s.seg z).respects (t.seg z)
  lastCreep : t.lastCreep = s.lastCreep

namespace Column.respects

theorem refl (c : Column) : c.respects c := ⟨rfl, rfl, rfl, rfl, id⟩

theorem trans {c d e : Column} (h : c.respects d) (h' : d.respects e) : c.respects e :=
  ⟨h'.height.trans h.height, h'.load.trans h.load, h'.range.trans h.range, h'.flags.trans h.flags, h'.creep ∘ h.creep⟩

end Column.respects

namespace Segment.respects
variable {a b c : Segment}

theorem refl (a : Segment) : a.respects a := ⟨rfl, id, fun _ => rfl, fun _ _ => rfl⟩

theorem trans (h : a.respects b) (h' : b.respects c) : a.respects c :=
  ⟨h'.inFlight.trans h.inFlight, h'.fast ∘ h.fast, fun d => (h'.link d).trans (h.link d), fun d hd =>
    (h'.drop d (by rw [h.link]; exact hd)).trans (h.drop d hd)⟩

theorem awake (a : Segment) (q : Timer) : a.respects (a.awake q) :=
  ⟨rfl, fun _ => rfl, fun _ => rfl, fun _ _ => rfl⟩

theorem echoAborted (a : Segment) : a.respects a.echoAborted := by
  unfold Segment.echoAborted
  split
  · exact .refl a
  · refine ⟨rfl, id, fun d => ?_, fun d hd => ?_⟩
    · change ((a.drops.map fun d => if d.link = .settling then { d with settle := .running Config.settleTime } else d).get d).link = _
      rw [Table.get_map]
      split <;> rfl
    · change (a.drops.map _).get d = _
      rw [Table.get_map]
      exact if_neg hd

end Segment.respects

namespace State.respects

variable {s t u : State} {shared : Prop}

theorem refl (s : State) : s.respects s shared :=
  ⟨fun _ _ _ => rfl, fun _ => rfl, fun _ => .refl _, fun _ _ => rfl, fun _ => .refl _, rfl⟩

theorem trans (h : s.respects t shared) (h' : t.respects u shared) : s.respects u shared :=
  ⟨fun c q hc => (h'.waiting c q hc).trans (h.waiting c q hc), fun q => (h'.enabled q).trans (h.enabled q),
    fun y => (h.cols y).trans (h'.cols y), fun hs y => (h'.share hs y).trans (h.share hs y), fun z => (h.segs z).trans (h'.segs z),
    h'.lastCreep.trans h.lastCreep⟩

theorem ite {c : Prop} [Decidable c] (h : s.respects t shared) (h' : s.respects u shared) : s.respects (if c then t else u) shared := by
  split
  · exact h
  · exact h'

/-- The work respects less where less is asked. -/
theorem mono {less : Prop} (h : s.respects t shared) (hl : less → shared) : s.respects t less :=
  ⟨fun c q hc => h.waiting c q (hc.imp_right (Or.imp_right (Or.imp_right (And.imp_right hl)))), h.enabled, h.cols,
    fun hs => h.share (hl hs), h.segs, h.lastCreep⟩

/-! ### The ways in which a report is respected -/

/-- An update of other parts than the columns. -/
theorem update (h : s.respects t shared) (hn : u.notices = t.notices := by rfl) (hc : u.cols = t.cols := by rfl)
    (hs : u.segs = t.segs := by rfl) (hl : u.lastCreep = t.lastCreep := by rfl) : s.respects u shared :=
  h.trans ⟨fun _ _ _ => by rw [hn], fun _ => by rw [hn], fun y => by rw [State.col_congr hc]; exact .refl _,
    fun _ y => by rw [State.col_congr hc], fun z => by rw [State.seg_congr hs]; exact .refl _, hl⟩

theorem modCol (h : s.respects t shared) (p : Pos) (f : Column → Column) (hf : ∀ c : Column, c.respects (f c) := by exact fun _ =>
    ⟨rfl, rfl, rfl, rfl, id⟩) (hshare : ∀ c : Column, (f c).share = c.share := by exact fun _ => rfl) : s.respects (t.modCol p f) shared := by
  refine h.trans ⟨fun _ _ _ => rfl, fun _ => rfl, fun y => ?_, fun _ y => ?_, fun _ => .refl _, rfl⟩
  · rw [State.col_modCol]
    split
    · exact hf _
    · exact .refl _
  · rw [State.col_modCol]
    split
    · exact hshare _
    · rfl

theorem setDemand (h : s.respects t shared) (p : Pos) (v : Int) : s.respects (t.setDemand p v) shared := h.modCol p _

/-- A notice of another category leaves those of a report. -/
theorem waiting_raised {n : NoticeState} {c k : Category} (hck : c.code ≠ k.code) :
    (n.raised k).waiting.get c.code = n.waiting.get c.code := by
  unfold NoticeState.raised
  split
  · exact (Table.get_set _ _ _ _).trans (if_neg hck)
  · rfl

theorem raise (h : s.respects t shared) {k : Category} (hk : ∀ c : Category, c.reported shared → c.code ≠ k.code) :
    s.respects (t.raise k) shared :=
  h.trans ⟨fun c q hc => by rw [State.notices_raise]; exact waiting_raised (hk c hc),
    fun q => by rw [State.notices_raise, NoticeState.raised_enabled], fun _ => .refl _, fun _ _ => rfl, fun _ => .refl _, rfl⟩

/-- A category that is none of a report's. -/
theorem of_others {k : Category} (hk : k ∉ [Category.range, .creep, .columnFault, .loadShare]) :
    ∀ c : Category, c.reported shared → c.code ≠ k.code := by
  rintro c (rfl | rfl | rfl | ⟨rfl, -⟩) <;> revert hk <;> cases k <;> decide

theorem trigger (h : s.respects t shared) : s.respects t.trigger shared :=
  h.update (by simp) (by simp) (by simp) (by simp)

theorem wake (h : s.respects t shared) : s.respects t.wake shared := by
  by_cases hp : t.power = .running
  · have hkept := t.wake_frame
    have hcol : ∀ y, { t.wake.col y with creep := (t.col y).creep } = t.col y := t.col_wake_creep
    have hn : t.wake.notices = t.notices := (congrArg State.notices hkept :)
    refine h.trans ⟨fun _ _ _ => by rw [hn], fun _ => by rw [hn], fun y => ⟨(congrArg Column.height (hcol y) :),
      (congrArg Column.load (hcol y) :), (congrArg Column.range (hcol y) :), (congrArg Column.flags (hcol y) :), fun _ => ?_⟩,
      fun _ y => (congrArg Column.share (hcol y) :), fun z => ?_, (congrArg State.lastCreep hkept :)⟩
    · rw [State.col_wake, if_pos hp]
    · rw [State.seg_wake t hp, Segment.woken_awake]
      exact .awake _ _
  · rw [State.wake_of_not_running t hp]
    exact h

theorem mapSegs (h : s.respects t shared) (f : Segment → Segment) (hf : ∀ a : Segment, a.respects (f a)) : s.respects (t.mapSegs f) shared :=
  h.trans ⟨fun _ _ _ => rfl, fun _ => rfl, fun _ => .refl _, fun _ _ => rfl, fun z => by rw [State.seg_mapSegs]; exact hf _, rfl⟩

theorem classify (h : s.respects t shared) (p : Pos) (cls : Classification) (m : Bool) (lag : Option Int) :
    s.respects (t.classify p cls m lag) shared :=
  update (u := t.classify p cls m lag) (h.modCol p fun c => { c with cls := cls, mark := m, lag := lag })

/-! ### A phase change and a stop -/

theorem changed (h : s.respects t shared) {new : Phase} (hnew : shared → new ≠ .idle) : s.respects (t.changed new) shared := by
  have hsegs := State.changed_segs t new
  have hn := State.changed_notices t new
  have hl : (t.changed new).lastCreep = t.lastCreep := by
    unfold State.changed
    dsimp only
    split <;> simp
  refine h.trans ⟨fun _ _ _ => by rw [hn], fun _ => by rw [hn], fun y => ?_, fun hs y => ?_, fun z => ?_, hl⟩
  · rw [State.col_changed]
    exact ⟨rfl, rfl, rfl, rfl, id⟩
  · rw [State.col_changed]
    exact if_neg (hnew hs)
  · rw [State.seg_congr hsegs]
    exact .refl _

theorem changePhase (h : s.respects t shared) {new : Phase} (hnew : shared → new ≠ .idle) :
    s.respects (t.changePhase new) shared := by
  by_cases hp : t.phase = new
  · subst hp
    rwa [State.changePhase_self]
  · rw [State.changePhase_eq t new hp]
    have hraised := State.respects.trigger ((h.changed hnew).raise (k := .phase) (of_others (by decide)))
    unfold State.applyPolling
    split
    · exact State.respects.wake (hraised.mapSegs _ fun a => ⟨rfl, id, fun _ => rfl, fun _ _ => rfl⟩)
    · exact hraised.wake

theorem raiseIfAny (h : s.respects t shared) (c : StopCause) : s.respects (t.raiseIfAny c.notice) shared := by
  cases c with
  | powerRestored => exact h
  | stopRequest | stopByte | stopIn | authorityLapse => exact h.raise (k := .stop) (of_others (by decide))
  | _ => exact h.raise (k := .trip) (of_others (by decide))

theorem abortEcho (h : s.respects t shared) (g : SegId) : s.respects (t.abortEcho g) shared := by
  have hkept : (t.abortEcho g).cols = t.cols ∧ (t.abortEcho g).lastCreep = t.lastCreep := by simp
  obtain ⟨hn, -⟩ := State.abortEcho_told t g
  have hechodone : t.respects (t.raise .echoDone) shared := (State.respects.refl t).raise (of_others (by decide))
  refine h.trans ⟨fun c q hc => ?_, fun q => ?_, fun y => ?_, fun _ y => ?_, fun z => ?_, hkept.2⟩
  · rw [hn]
    split
    · rfl
    · exact hechodone.waiting c q hc
  · rw [hn]
    split
    · rfl
    · exact hechodone.enabled q
  · rw [State.col_congr hkept.1]
    exact .refl _
  · rw [State.col_congr hkept.1]
  · rw [State.seg_abortEcho]
    split
    · rw [Segment.abortedEcho_whole]
      exact .echoAborted _
    · exact .refl _

theorem firstStop (h : s.respects t shared) (o : Offer) : s.respects (t.firstStop o) shared := by
  have hrec : s.respects (t.recorded o) shared := h.update
  have hall : s.respects (((t.recorded o).changePhase .stopped).mapSegs fun sg => { sg with allstopOwed := true }) shared :=
    (hrec.changePhase fun _ => by decide).mapSegs _ fun a => ⟨rfl, id, fun _ => rfl, fun _ _ => rfl⟩
  have hstopped : s.respects (t.stopped o) shared := State.respects.raiseIfAny hall.update o.cause
  rw [State.firstStop_eq]
  exact (((hstopped.abortEcho 0).abortEcho 1).abortEcho 2).abortEcho 3

theorem offerStop (h : s.respects t shared) (o : Offer) : s.respects (t.offerStop o) shared := by
  unfold State.offerStop
  split
  · exact h
  · exact h
  · split
    · unfold State.furtherCause
      exact ite h h.update
    · exact h.firstStop o

theorem offerAll (os : List Offer) : ∀ {t : State}, s.respects t shared → s.respects (t.offerAll os) shared := by
  induction os with
  | nil => exact id
  | cons o os ih => exact fun h => ih (h.offerStop o)

/-! ### The work of an arrival -/

theorem writeSpread (h : s.respects t shared) (c : CarId) : s.respects (t.writeSpread c) shared := h.update

theorem endJog (h : s.respects t shared) (p : Pos) : s.respects (t.endJog p) shared := by
  unfold State.endJog
  exact ite (h.modCol p _) (h.modCol p _).trigger

theorem trackedDemand (h : s.respects t shared) (p : Pos) (v : Nat) (e : Int) : s.respects (t.trackedDemand p v e) shared := by
  unfold State.trackedDemand
  split
  · exact h.setDemand p _
  · exact h.setDemand p _
  · exact ite (ite (h.endJog p) (h.setDemand p _)) (h.setDemand p _)
  all_goals exact h.setDemand p _

/-- The share flags are followed with their own notice alone (R137). -/
theorem followShare (h : s.respects t False) (n : Nat) (p : Pos) : s.respects (t.followShare n p) False := by
  unfold State.followShare
  split
  · exact h
  · have hset : ∀ b : Bool, s.respects (t.modCol p fun c => { c with share := b }) False := fun b =>
      h.trans ⟨fun _ _ _ => rfl, fun _ => rfl, fun y => by
        rw [State.col_modCol]
        split
        · exact ⟨rfl, rfl, rfl, rfl, id⟩
        · exact .refl _, nofun, fun _ => .refl _, rfl⟩
    refine ite (State.respects.raise (hset _) ?_) (hset _)
    rintro c (rfl | rfl | rfl | ⟨-, hno⟩)
    · decide
    · decide
    · decide
    · exact hno.elim

theorem evaluateShares (h : s.respects t False) (c : CarId) : s.respects (t.evaluateShares c) False := by
  unfold State.evaluateShares
  split
  · exact h
  · exact ite h ((((h.followShare _ _).followShare _ _).followShare _ _).followShare _ _)

theorem restWork (h : s.respects t shared) (p : Pos) : s.respects (t.restWork p) shared :=
  ((h.writeSpread (carOf p)).offerAll _).setDemand p 0

theorem takeStart (h : s.respects t shared) (p : Pos) : s.respects (t.takeStart p) shared := by
  unfold State.takeStart
  split
  · exact h
  · exact h.update

theorem rise (h : s.respects t shared) (p : Pos) : s.respects (t.rise p) shared := by
  unfold State.rise
  exact ite (h.offerStop _) (ite (h.offerStop _) (h.setDemand p _))

theorem approachColumn (h : s.respects t shared) (p : Pos) : s.respects (t.approachColumn p) shared := by
  have hrecord : s.respects (t.recordContact p) shared := (h.modCol p _).classify p _ _ _
  unfold State.approachColumn State.testAllContact
  exact ite (h.setDemand p 0) (ite (ite (hrecord.changePhase fun _ => by decide) hrecord) (h.rise p))

theorem approachWork (h : s.respects t shared) (p : Pos) : s.respects (t.approachWork p) shared := by
  unfold State.approachWork
  exact ite (((h.takeStart p).offerAll _).approachColumn p) ((h.takeStart p).offerAll _)

theorem park (h : s.respects t False) (p : Pos) : s.respects (t.park p) False := by
  unfold State.park
  exact ite (State.respects.changePhase (h.modCol p _) False.elim) (h.modCol p _)

theorem retractWork (h : s.respects t False) (p : Pos) : s.respects (t.retractWork p) False := by
  have hoffer := h.offerAll (t.overloadCheck p)
  unfold State.retractWork State.retractColumn
  exact ite (ite (hoffer.setDemand p 0) (ite (hoffer.park p) (ite (hoffer.park p) (ite (hoffer.offerStop _) (hoffer.setDemand p _)))))
    hoffer

theorem trackedWork (h : s.respects t False) (p : Pos) : s.respects (t.trackedWork p) False := by
  unfold State.trackedWork
  split
  · exact h.setDemand p 0
  · next rel _ =>
    have hwork := (((h.classify p _ _ _ : s.respects (t.classifyAt p (t.lagOf p rel)) False).writeSpread (carOf p)).offerAll
      (((t.classifyAt p (t.lagOf p rel)).writeSpread (carOf p)).groupChecks t.phase p (t.lagOf p rel))).trackedDemand p t.ref.vEff
        (t.lagOf p rel)
    exact ite (hwork.evaluateShares _) hwork

theorem withRel (h : s.respects t shared) (p : Pos) : s.respects (t.modCol p Column.withRel) shared := h.modCol p _

theorem trackingWork (h : s.respects t False) (p : Pos) : s.respects (t.trackingWork p) False := by
  have hrel := h.withRel p
  unfold State.trackingWork
  dsimp only
  split
  · exact hrel
  · exact hrel.approachWork p
  · exact hrel.retractWork p
  · exact hrel.restWork p
  · exact hrel.restWork p
  · exact hrel.restWork p
  all_goals exact hrel.trackedWork p

/-! ### The completion test -/

theorem runStepTimer (h : s.respects t shared) : s.respects t.runStepTimer shared := h.update

theorem startLeg (h : s.respects t shared) (b : Bool) : s.respects (t.startLeg b) shared := by
  obtain ⟨n, hn, -⟩ := t.takeLeg_eq b
  have htake : s.respects (t.takeLeg b) shared := by
    rw [hn]
    by_cases hc : t.legClamped b = true
    · rw [if_pos hc]
      exact (h.raise (k := .planClamped) (of_others (by decide))).update
    · rw [if_neg hc]
      exact h.update
  unfold State.startLeg
  have hphase : (t.takeLeg b).ref.dir.phase ≠ .idle := by
    cases (t.takeLeg b).ref.dir
    · exact nofun
    · exact nofun
  have hchange : s.respects ((t.takeLeg b).changePhase (t.takeLeg b).ref.dir.phase) shared := htake.changePhase fun _ => hphase
  exact hchange.runStepTimer

theorem afterDwell (h : s.respects t shared) : s.respects t.afterDwell.1 shared := by
  unfold State.afterDwell
  split
  · exact h
  · exact h.changePhase fun _ => by decide

theorem finishLeg (h : s.respects t shared) : s.respects t.finishLeg.1 shared := by
  have htold : s.respects (t.raise .legDone) shared := h.raise (of_others (by decide))
  have hcount : s.respects t.countLeg shared := State.respects.trigger htold.update
  unfold State.finishLeg
  dsimp only
  split
  · exact htold.changePhase fun _ => by decide
  · split
    · exact hcount.changePhase fun _ => by decide
    · split
      · exact State.respects.update (hcount.changePhase (new := .dwell) fun _ => by decide)
      · exact hcount.afterDwell

theorem completeLegs (n : Nat) : ∀ {t : State}, s.respects t shared → s.respects (State.completeLegs n t) shared := by
  induction n with
  | zero => exact id
  | succ n ih =>
    intro t h
    unfold State.completeLegs
    exact ite (ite (ih (h.finishLeg.startLeg false)) h.finishLeg) h

theorem testCompletion (h : s.respects t shared) : s.respects t.testCompletion shared := completeLegs _ h

end State.respects

end Sys2Proof.Machine

/-! O49: the report of a mapped drop, in every phase. -/

namespace Sys2Proof.Machine

set_option Elab.async false

/-! ### The notices of an enrolment and of a report -/

/-- Two tables of notices that agree on category `c`. -/
def agreeOn (c : Category) (n m : Table NoticeState 4) : Prop :=
  ∀ q, (n.get q).enabled = (m.get q).enabled ∧ (n.get q).waiting.get c.code = (m.get q).waiting.get c.code

theorem agreeOn.refl (c : Category) (n : Table NoticeState 4) : agreeOn c n n :=
  fun _ => ⟨rfl, rfl⟩

theorem NoticeState.raised_waiting_congr {a b : NoticeState} {c k : Category} (he : a.enabled = b.enabled)
    (hw : a.waiting.get c.code = b.waiting.get c.code) : (a.raised k).waiting.get c.code = (b.raised k).waiting.get c.code := by
  unfold NoticeState.raised
  rw [he]
  split
  · change (a.waiting.set k.code true).get c.code = (b.waiting.set k.code true).get c.code
    rw [Table.get_set, Table.get_set, hw]
  · exact hw

theorem agreeOn.raised {c : Category} {n m : Table NoticeState 4} (h : agreeOn c n m) (k : Category) :
    agreeOn c (n.map (NoticeState.raised k)) (m.map (NoticeState.raised k)) := fun q => by
  obtain ⟨he, hw⟩ := h q
  rw [Table.get_map, Table.get_map, NoticeState.raised_enabled, NoticeState.raised_enabled]
  exact ⟨he, NoticeState.raised_waiting_congr he hw⟩

/-- The news of a report are made of the notices before it. -/
theorem agreeOn.newsOf {c : Category} {n m : Table NoticeState 4} (h : agreeOn c n m) (s : State) (p : Pos) (r : Report)
    (crept : Bool) : agreeOn c (s.newsOf p r crept n) (s.newsOf p r crept m) := by
  have htold : ∀ (b : Bool) (k : Category) {n m : Table NoticeState 4}, agreeOn c n m →
      agreeOn c (if b = true then n.map (NoticeState.raised k) else n) (if b = true then m.map (NoticeState.raised k) else m) :=
    fun b k n m h => by
      split
      · exact h.raised k
      · exact h
  unfold State.newsOf
  exact htold _ _ (htold _ _ (htold _ _ h))

/-- A notice of another category changes nothing of a category. -/
theorem agreeOn_noticesWith (s : State) {c k : Category} (h : c.code ≠ k.code) : agreeOn c (s.noticesWith k) s.notices := fun q => by
  unfold State.noticesWith
  rw [Table.get_map, NoticeState.raised_enabled]
  exact ⟨rfl, State.respects.waiting_raised h⟩

section
variable {s : State} {g : SegId} {x : Exchange} {r : Report} {d : Drop} {n : Table NoticeState 4} {p : Pos}

/-- The notices of a page's end (R55). -/
theorem State.enrols.notices_of_last_page {e : RosterEntry} (h : s.enrols g x r d n) (hm : s.mappedAt g x.drop = some p)
    (he : s.entry p = some e) (hl : (s.drop g x.drop).link = .paging) (hr : r.page = (s.drop g x.drop).page)
    (hx : x.page = (s.drop g x.drop).page) (h2 : (s.drop g x.drop).page = 2) :
    n = s.noticesWith .enrol ∨ n = s.noticesWith .rosterMismatch := by
  obtain ⟨-, -, -, h⟩ := h
  obtain ⟨-, -, -, hlow, hhigh⟩ := h hl hr hx
  by_cases hten : r.data.toNat / 65536 < 10
  · exact .inl (hlow h2 hten).2
  · obtain ⟨-, hmapped⟩ := hhigh h2 (by omega)
    obtain ⟨hpinned, hmismatch, hready⟩ := hmapped p e hm he
    by_cases hs : e.serial = none
    · exact .inl (hready (.inl hs)).2
    · have hsome : e.serial.isSome = true := Option.isSome_iff_ne_none.mpr hs
      by_cases heq : (s.drop g x.drop).cap.serial = e.serial
      · by_cases hc : s.roster.confirmed = true
        · exact .inl (hpinned hc hsome heq).2
        · exact .inl (hready (.inr ⟨Bool.eq_false_iff.mpr hc, heq⟩)).2
      · exact .inr (hmismatch hsome heq).2

/-- An enrolment raises ENROL or ROSTER_MISMATCH or nothing (R52, R53, R55). -/
theorem State.enrols.notices_eq (h : s.enrols g x r d n) (hm : s.mappedAt g x.drop = some p) :
    n = s.notices ∨ n = s.noticesWith .enrol ∨ n = s.noticesWith .rosterMismatch := by
  obtain ⟨e, he, -⟩ := State.entry_of_mappedAt hm
  have hlast := h.notices_of_last_page hm he
  obtain ⟨hfresh, hsettled, hno, hpage⟩ := h
  by_cases hl : (s.drop g x.drop).link = .paging
  · by_cases hr : r.page = (s.drop g x.drop).page
    · by_cases hx : x.page = (s.drop g x.drop).page
      · obtain ⟨h0, h1low, h1, -, -⟩ := hpage hl hr hx
        have hcases : (s.drop g x.drop).page = 0 ∨ (s.drop g x.drop).page = 1 ∨ (s.drop g x.drop).page = 2 ∨
            (s.drop g x.drop).page = 3 := by omega
        rcases hcases with hp | hp | hp | hp
        · exact .inl (h0 hp).2
        · by_cases hlow : r.data.toNat % 65536 < 1000
          · exact .inr (.inl (h1low hp hlow).2)
          · exact .inl (h1 hp (by omega)).2
        · exact .inr (hlast hl hr hx hp)
        · exact .inl (hno hl (.inr (.inr hp))).2
      · exact .inl (hno hl (.inr (.inl hx))).2
    · exact .inl (hno hl (.inl hr)).2
  · cases hlink : (s.drop g x.drop).link with
    | absent => exact .inl (hfresh (.inl hlink)).2
    | lost => exact .inl (hfresh (.inr hlink)).2
    | settling => exact .inl (hsettled (.inl hlink)).2
    | ready => exact .inl (hsettled (.inr (.inl hlink))).2
    | enrolled => exact .inl (hsettled (.inr (.inr (.inl hlink)))).2
    | refused => exact .inl (hsettled (.inr (.inr (.inr hlink)))).2
    | paging => exact absurd hlink hl

end

/-! ### A group at rest stays, or stops (R120, R148) -/

/-- Between `s` and `t` the phase is kept, or a stop is taken, and the quiet-entry timers that a wake has restarted run on. -/
structure State.staysOrStops (s t : State) : Prop where
  power : t.power = s.power
  phase : t.phase = s.phase ∨ t.phase = .stopped
  quiet : (∀ z, (s.seg z).quietTimer = .running Config.quietEntryTime) → ∀ z, (t.seg z).quietTimer = .running Config.quietEntryTime

namespace State.staysOrStops
variable {s t u : State}

theorem refl (s : State) : s.staysOrStops s := ⟨rfl, .inl rfl, id⟩

theorem update (h : s.staysOrStops t) (hp : u.power = t.power := by rfl) (hphase : u.phase = t.phase := by rfl)
    (hsegs : u.segs = t.segs := by rfl) : s.staysOrStops u :=
  ⟨hp.trans h.power, by rw [hphase]; exact h.phase, fun hq z => by rw [State.seg_congr hsegs]; exact h.quiet hq z⟩

theorem ite {c : Prop} [Decidable c] (h : s.staysOrStops t) (h' : s.staysOrStops u) : s.staysOrStops (if c then t else u) := by
  split
  · exact h
  · exact h'

theorem echoAborted_quietTimer (sg : Segment) : sg.echoAborted.quietTimer = sg.quietTimer := by
  unfold Segment.echoAborted
  split <;> rfl

theorem offerStop (h : s.staysOrStops t) (o : Offer) : s.staysOrStops (t.offerStop o) := by
  by_cases hp : t.power = .running
  · by_cases hphase : t.phase = .stopped
    · rw [State.offerStop_stopped hp hphase]
      exact h.update
    · have hfirst := State.firstStop_spec t o hp hphase
      rw [State.offerStop_first t o hp hphase]
      refine ⟨(congrArg State.power hfirst.kept :).trans h.power, .inr hfirst.phase, fun _ z => ?_⟩
      rw [hfirst.lines]
      exact echoAborted_quietTimer _
  · rw [State.offerStop_unread t o hp]
    exact h

theorem offerAll (os : List Offer) : ∀ {t : State}, s.staysOrStops t → s.staysOrStops (t.offerAll os) := by
  induction os with
  | nil => exact id
  | cons o os ih => exact fun h => ih (h.offerStop o)

theorem setDemand (h : s.staysOrStops t) (p : Pos) (v : Int) : s.staysOrStops (t.setDemand p v) := h.update

theorem endJog (h : s.staysOrStops t) (p : Pos) : s.staysOrStops (t.endJog p) := by
  have hcol : s.staysOrStops (t.modCol p fun c => { c with jog := false, demand := 0 }) := h.update
  unfold State.endJog
  exact ite hcol (hcol.update (by simp) (by simp) (by simp))

theorem trackedDemand (h : s.staysOrStops t) (p : Pos) (v : Nat) (e : Int) : s.staysOrStops (t.trackedDemand p v e) := by
  unfold State.trackedDemand
  split
  · exact h.setDemand p _
  · exact h.setDemand p _
  · exact ite (ite (h.endJog p) (h.setDemand p _)) (h.setDemand p _)
  all_goals exact h.setDemand p _

theorem followShare (h : s.staysOrStops t) (n : Nat) (p : Pos) : s.staysOrStops (t.followShare n p) := by
  unfold State.followShare
  split
  · exact h
  · exact ite h.update h.update

theorem evaluateShares (h : s.staysOrStops t) (c : CarId) : s.staysOrStops (t.evaluateShares c) := by
  unfold State.evaluateShares
  split
  · exact h
  · exact ite h ((((h.followShare _ _).followShare _ _).followShare _ _).followShare _ _)

theorem trackedWork (h : s.staysOrStops t) (p : Pos) : s.staysOrStops (t.trackedWork p) := by
  unfold State.trackedWork
  split
  · exact h.setDemand p 0
  · next rel _ =>
    have hclass : s.staysOrStops ((t.classifyAt p (t.lagOf p rel)).writeSpread (carOf p)) := h.update
    have hwork := (hclass.offerAll (((t.classifyAt p (t.lagOf p rel)).writeSpread (carOf p)).groupChecks t.phase p
      (t.lagOf p rel))).trackedDemand p t.ref.vEff (t.lagOf p rel)
    exact ite (hwork.evaluateShares _) hwork

theorem restWork (h : s.staysOrStops t) (p : Pos) : s.staysOrStops (t.restWork p) :=
  (offerAll (t := t.writeSpread (carOf p)) _ h.update).setDemand p 0

/-- The tracking work outside the motion phases. -/
theorem trackingWork (h : s.staysOrStops t) (hmotion : t.phase.isMotion = false) (p : Pos) : s.staysOrStops (t.trackingWork p) := by
  have hrel : s.staysOrStops (t.modCol p Column.withRel) := h.update
  have hphase : (t.modCol p Column.withRel).phase = t.phase := rfl
  unfold State.trackingWork
  dsimp only
  rw [hphase]
  cases htp : t.phase with
  | idle => exact hrel
  | holding => exact hrel.trackedWork p
  | aligned | landed | stopped => exact hrel.restWork p
  | _ => rw [htp] at hmotion; cases hmotion

end State.staysOrStops

/-! ### The report in IDLE and in STOPPED (R120) -/

/-- The stop of a fault and the tracking work on a report in IDLE or in STOPPED. -/
structure State.settlesReport (s t : State) (p : Pos) (r : Report) : Prop where
  column : t.col p = { (s.col p).withRel with demand := if s.phase = .stopped then 0 else (s.col p).demand }
  cols : ∀ y, y ≠ p → t.col y = s.col y
  idle : s.phase = .idle → t.spread = s.spread ∧ t.stop = s.stop
  further : s.phase = .stopped → ∀ c : StopCause, t.stop.further.get c.code = true ↔ s.stop.further.get c.code = true ∨
    s.stop.recordCause ≠ some c ∧ (c = .driveFault ∧ r.flags.driveFault = true ∨ c = .overload ∧ s.isOverloaded p)
  stop : { t.stop with further := s.stop.further } = s.stop
  kept : { t with cols := s.cols, spread := s.spread, stop := s.stop } = s

section
variable {s w : State} {g : SegId} {x : Exchange} {r : Report} {p : Pos} {changed : Bool}

theorem State.settlesReport_idle (h : w.phase = .idle) : w.settlesReport ((w.stopAtFault p r).trackingWork p) p r := by
  have hfault : w.stopAtFault p r = w := if_neg fun h' => h'.2 h
  have hwork : w.trackingWork p = w.modCol p Column.withRel := by
    have hphase : (w.modCol p Column.withRel).phase = .idle := h
    unfold State.trackingWork
    dsimp only
    rw [hphase]
  rw [hfault, hwork]
  have hne : w.phase ≠ .stopped := by
    rw [h]
    decide
  refine ⟨?_, fun y hy => State.col_modCol_of_ne _ _ hy, fun _ => ⟨rfl, rfl⟩, fun h' => absurd h' hne, rfl, rfl⟩
  rw [State.col_modCol_self, if_neg hne]
  rfl

/-- In STOPPED a fault and an overload join the further causes (R61, R133, R149). -/
theorem State.settlesReport_stopped (hp : w.power = .running) (h : w.phase = .stopped) :
    w.settlesReport ((w.stopAtFault p r).trackingWork p) p r := by
  have hfault : ∃ further, w.stopAtFault p r = { w with stop := { w.stop with further := further } } ∧
      ∀ c : StopCause, further.get c.code = true ↔ w.stop.further.get c.code = true ∨
        w.stop.recordCause ≠ some c ∧ c = .driveFault ∧ r.flags.driveFault = true := by
    by_cases hf : r.flags.driveFault = true
    · obtain ⟨further, hall, hget⟩ := State.offerAll_stopped hp h [columnOffer .driveFault p none]
      have hstop : w.stopAtFault p r = w.offerAll [columnOffer .driveFault p none] := if_pos ⟨hf, by rw [h]; decide⟩
      refine ⟨further, hstop.trans hall, fun c => (hget c).trans ?_⟩
      rw [List.exists_mem_cons_iff]
      simp only [columnOffer, hf, and_true, List.not_mem_nil, false_and, exists_false, or_false, eq_comm]
    · exact ⟨w.stop.further, if_neg fun h' => hf h'.1, fun c => by simp [hf]⟩
  obtain ⟨further, hf, hget⟩ := hfault
  rw [hf]
  have hpower : ({ w with stop := { w.stop with further := further } } : State).power = .running := hp
  have hphase : ({ w with stop := { w.stop with further := further } } : State).phase = .stopped := h
  have hlevels := State.restWork_levels_stopped (p := p) hpower hphase
  rw [State.trackingWork_rest p (by rw [hphase]; simp)]
  generalize (({ w with stop := { w.stop with further := further } } : State).modCol p Column.withRel).restWork p = t at hlevels
  refine ⟨?_, hlevels.cols, fun h' => absurd (h.symm.trans h') (by decide), fun _ c => ?_, ?_, ?_⟩
  · rw [if_pos h]
    exact hlevels.column
  · have hover : ({ w with stop := { w.stop with further := further } } : State).isOverloaded p ↔ w.isOverloaded p := Iff.rfl
    have hcause : ({ w with stop := { w.stop with further := further } } : State).stop.recordCause = w.stop.recordCause := rfl
    rw [hlevels.further c, hover, hcause]
    change further.get c.code = true ∨ _ ↔ _
    rw [hget c]
    tauto
  · exact (congrArg (fun v : StopUnit => { v with further := w.stop.further }) hlevels.stop :)
  · exact (congrArg (fun v : State => { v with stop := w.stop }) hlevels.kept :)

/-- The column of a mapped drop after its report, where nothing else of it changes but what the report brings (R18, R46). -/
theorem State.tells.reported_column {c : Column} (h : s.tells w g x r p changed) (hl : (s.col p).link = (s.drop g x.drop).link)
    (hc : (s.col p).cap = (s.drop g x.drop).cap) (hcol : c = { (w.col p).withRel with
      demand := if w.phase = .stopped then 0 else (w.col p).demand }) :
    { c with creep := (s.col p).creep } = { s.col p with
      link := (w.drop g x.drop).link
      cap := (w.drop g x.drop).cap
      height := c.height
      load := c.load
      range := c.range
      flags := r.flags
      rel := (s.col p).contact.map fun k => ((min r.height 40000 : Nat) : Int) - k
      demand := if s.phase = .stopped then 0 else (s.col p).demand } := by
  obtain ⟨-, hphase, -⟩ := h.fields
  obtain ⟨hlink, hcap⟩ := h.copied hl hc
  obtain ⟨hheight, -, -, hcontact, -⟩ := h.values
  have hrel := Column.withRel_rel hheight
  have hw : w.col p = { (s.col p).reporting r with
      creep := (w.col p).creep, link := (w.drop g x.drop).link, cap := (w.drop g x.drop).cap } := by
    rw [← h.column, ← hlink, ← hcap]
  rw [hcontact] at hrel
  rw [← hrel, hcol, ← hphase, hw]
  rfl

theorem State.seg_goOn_mode (u : State) (g z : SegId) : ((u.modSeg g Segment.goOn).seg z).mode = (u.seg z).mode ∧
    ((u.modSeg g Segment.goOn).seg z).quietTimer = (u.seg z).quietTimer := by
  have hgo : ∀ sg : Segment, sg.goOn.mode = sg.mode ∧ sg.goOn.quietTimer = sg.quietTimer := fun sg => by
    unfold Segment.goOn
    rw [Segment.endCycle_whole]
    split
    · split
      · exact ⟨rfl, rfl⟩
      · exact ⟨rfl, rfl⟩
    · exact ⟨rfl, rfl⟩
  rw [State.seg_modSeg]
  split
  · exact hgo _
  · exact ⟨rfl, rfl⟩

/-- The whole work on a report, after it has been told. -/
def State.workedOff (w : State) (p : Pos) (r : Report) : State :=
  ((w.stopAtFault p r).trackingWork p).testCompletion

theorem State.workedOff_respects (w : State) (p : Pos) (r : Report) : w.respects (w.workedOff p r) False := by
  have hfault : w.respects (w.stopAtFault p r) False := State.respects.ite ((State.respects.refl w).offerStop _) (.refl w)
  exact (hfault.trackingWork p).testCompletion

/-- Outside the motion phases the completion test does nothing, and the quiet-entry timers that run stay as they are. -/
theorem State.workedOff_stays (hm : w.phase.isMotion = false) : w.workedOff p r = (w.stopAtFault p r).trackingWork p ∧
    w.staysOrStops (w.workedOff p r) := by
  have hfault : w.staysOrStops (w.stopAtFault p r) :=
    State.staysOrStops.ite ((State.staysOrStops.refl w).offerStop _) (.refl w)
  have hfm : (w.stopAtFault p r).phase.isMotion = false := hfault.phase.elim (fun h => by rw [h]; exact hm) fun h => by rw [h]; rfl
  have hwork := hfault.trackingWork hfm p
  have hleg : ((w.stopAtFault p r).trackingWork p).phase.isLeg = false := by
    rcases hwork.phase with h | h
    · rw [h]
      revert hm
      cases w.phase <;> decide
    · rw [h]
      rfl
  have hdone : w.workedOff p r = (w.stopAtFault p r).trackingWork p :=
    State.testCompletion_of_not (by unfold State.legComplete; rw [hleg]; rfl)
  exact ⟨hdone, hdone ▸ hwork⟩

/-- A drive fault outside IDLE and STOPPED is the stop DRIVE_FAULT, which the work at rest keeps (R61). -/
theorem State.workedOff_fault (hp : w.power = .running) (hidle : w.phase ≠ .idle) (hstopped : w.phase ≠ .stopped)
    (hf : r.flags.driveFault = true) : (w.workedOff p r).phase = .stopped ∧
      (w.workedOff p r).stop.record = some (w.recordOf (columnOffer .driveFault p none)) := by
  have hfault : w.stopAtFault p r = w.firstStop (columnOffer .driveFault p none) :=
    (if_pos ⟨hf, hidle⟩).trans (State.offerStop_first w _ hp hstopped)
  have hfirst := State.firstStop_spec w (columnOffer .driveFault p none) hp hstopped
  unfold State.workedOff
  rw [hfault]
  generalize w.firstStop (columnOffer .driveFault p none) = v at hfirst
  have hvp : v.power = .running := (congrArg State.power hfirst.kept :).trans hp
  have hlevels := State.restWork_levels_stopped (p := p) hvp hfirst.phase
  rw [State.trackingWork_rest p (by rw [hfirst.phase]; simp)]
  generalize (v.modCol p Column.withRel).restWork p = t at hlevels
  have hphase : t.phase = .stopped := (congrArg State.phase hlevels.kept :).trans hfirst.phase
  rw [State.testCompletion_of_not (by unfold State.legComplete; rw [hphase]; rfl)]
  exact ⟨hphase, (congrArg StopUnit.record hlevels.stop :).trans hfirst.record⟩

/-- What a report of position `p` leaves where the group is in IDLE or STOPPED. -/
theorem State.workedOff_settles (hp : w.power = .running) (h : w.phase = .idle ∨ w.phase = .stopped) :
    w.settlesReport (w.workedOff p r) p r := by
  have hm : w.phase.isMotion = false := by
    rcases h with h | h
    · rw [h]
      rfl
    · rw [h]
      rfl
  obtain ⟨hdone, -⟩ := w.workedOff_stays (p := p) (r := r) hm
  rw [hdone]
  exact h.elim State.settlesReport_idle (State.settlesReport_stopped hp)

end

/-- Settles O49: the report, in every phase, and the whole arrival in IDLE and STOPPED. -/
theorem mappedReport : Obligations.MappedReport := by
  unfold Obligations.MappedReport
  intro s g x r p hears hl hc
  obtain ⟨changed, htells⟩ := hears.tells
  have harrival : s.statusArrival g (statusFrame x.drop x.toggle r) =
      (((s.heardFrom g x r p).workedOff p r).testWatches p).modSeg g Segment.goOn := hears.statusArrival
  generalize s.heardFrom g x r p = w at htells harrival
  obtain ⟨hwpower, hwphase, hwref, hwplan, hwstop, -⟩ := htells.fields
  obtain ⟨hheight, hload, hflags, -, -, hrange⟩ := htells.values
  have hrunning : w.power = .running := hwpower.trans hears.running
  have hresp := w.workedOff_respects p r
  have hstays := w.workedOff_stays (p := p) (r := r)
  have hfault := w.workedOff_fault (p := p) (r := r) hrunning
  have hsettles := w.workedOff_settles (p := p) (r := r) hrunning
  generalize w.workedOff p r = k at hresp hstays hfault hsettles harrival
  have hlink : (k.drop g x.drop).link = (w.drop g x.drop).link := (hresp.segs g).link x.drop
  have hchanged : changed = decide (((k.testWatches p).drop g x.drop).link ≠ (s.drop g x.drop).link) := by
    change changed = decide ((k.drop g x.drop).link ≠ (s.drop g x.drop).link)
    rw [hlink]
    exact htells.changed_eq
  obtain ⟨n, henrols, hnotices⟩ := htells.enrols
  refine ⟨_, k.testWatches p, congrArg Host.Outcome.next harrival, rfl, ?_⟩
  intro height
  refine ⟨((hresp.segs g).inFlight).trans htells.inFlight, fun hsettled => ?_, ((hresp.cols p).height).trans hheight,
    ((hresp.cols p).load).trans hload, ((hresp.cols p).range).trans hrange, ((hresp.cols p).flags).trans hflags, ?_⟩
  · obtain ⟨-, hsame, -⟩ := henrols
    have hw : w.drop g x.drop = { s.drop g x.drop with miss := 0 } :=
      (hsame (hsettled.elim (fun h => .inr (.inl h)) fun h => .inr (.inr (.inl h)))).1
    refine ((hresp.segs g).drop x.drop ?_).trans hw
    change (w.drop g x.drop).link ≠ .settling
    rw [hw]
    change (s.drop g x.drop).link ≠ .settling
    rcases hsettled with h | h
    · rw [h]
      decide
    · rw [h]
      decide
  · rw [← hchanged]
    intro changed' crept
    refine ⟨fun c hcat q => ?_, fun hno => ?_, fun b hyes hb => ?_, fun hwake => ?_, fun hphase => ?_, fun hidle hstopped hf => ?_⟩
    · have hreported : c.reported False := by
        simp only [List.mem_cons, List.not_mem_nil, or_false] at hcat
        exact hcat.imp_right (Or.imp_right .inl)
      have hagree : agreeOn c n s.notices := by
        have hothers : ∀ k : Category, k = .enrol ∨ k = .rosterMismatch → c.code ≠ k.code := by
          rintro k (rfl | rfl)
          · exact State.respects.of_others (by decide) c hreported
          · exact State.respects.of_others (by decide) c hreported
        rcases henrols.notices_eq hears.mapped with h | h | h
        · rw [h]
          exact .refl c _
        · rw [h]
          exact agreeOn_noticesWith s (hothers _ (.inl rfl))
        · rw [h]
          exact agreeOn_noticesWith s (hothers _ (.inr rfl))
      refine (hresp.waiting c q hreported).trans ?_
      rw [hnotices]
      exact (hagree.newsOf s p r crept q).2
    · refine hresp.lastCreep.trans (htells.told.noRecord ?_)
      change (!changed && s.creeps g p height) = false at hno
      cases hch : changed with
      | true => exact .inl rfl
      | false => exact .inr (by simpa [hch] using hno)
    · change (!changed && s.creeps g p height) = true at hyes
      rw [Bool.and_eq_true, Bool.not_eq_true'] at hyes
      exact hresp.lastCreep.trans (htells.told.record b hyes.1 hyes.2 hb)
    · have hany : changed = true ∨ s.creeps g p height = true ∨ r.flags.moving = true := by
        refine hwake.imp_right (Or.imp_left fun h => ?_)
        change (!changed && s.creeps g p height) = true at h
        rw [Bool.and_eq_true] at h
        exact h.2
      obtain ⟨hcreep, hsegs⟩ := htells.told.wakes hany
      refine ⟨fun y => (hresp.cols y).creep (hcreep y), fun z => ⟨?_, fun hm => ?_⟩⟩
      · obtain ⟨hmode, -⟩ := State.seg_goOn_mode (k.testWatches p) g z
        refine hmode.trans ((hresp.segs z).fast ?_)
        exact (congrArg Segment.mode (hsegs z) :)
      · obtain ⟨-, hquiet⟩ := State.seg_goOn_mode (k.testWatches p) g z
        obtain ⟨-, hstay⟩ := hstays (by rw [hwphase]; exact hm)
        refine hquiet.trans (hstay.quiet (fun z' => ?_) z)
        have h := (congrArg Segment.quietTimer (hsegs z') :)
        refine h.trans ?_
        have hmotion : (s.lineFreed g).phase.isMotion = false := hm
        simp only [Segment.awake, hmotion]
        rfl
    · have hset := hsettles (by rw [hwphase]; exact hphase)
      have hsegs : k.segs = w.segs := (congrArg State.segs hset.kept :)
      have hdrop : k.drop g x.drop = w.drop g x.drop := State.drop_congr hsegs _ _
      have hcreeps : ∀ y, (k.col y).creep = (w.col y).creep := fun y => by
        by_cases hy : y = p
        · subst hy
          rw [hset.column]
          rfl
        · rw [hset.cols y hy]
      refine ⟨?_, ⟨n, ?_, ?_⟩, ?_, fun y hy => ?_, ?_, fun hidle => ?_, fun hst c => ?_, ?_, ?_⟩
      · exact htells.told.congr (u := k.testWatches p) (congrArg State.lastCreep hset.kept :) hsegs hcreeps
      · change s.enrols g x r (k.drop g x.drop) n
        rw [hdrop]
        exact henrols
      · exact (congrArg State.notices hset.kept :).trans hnotices
      · change { k.col p with creep := (s.col p).creep } = { s.col p with
          link := (k.drop g x.drop).link
          cap := (k.drop g x.drop).cap
          height := (k.col p).height
          load := (k.col p).load
          range := (k.col p).range
          flags := r.flags
          rel := (s.col p).contact.map fun k => (height : Int) - k
          demand := if s.phase = .stopped then 0 else (s.col p).demand }
        rw [hdrop]
        exact htells.reported_column hl hc hset.column
      · change { k.col y with creep := (s.col y).creep } = s.col y
        rw [hset.cols y hy]
        exact htells.cols y hy
      · have hkw : k.watches = w.watches := (congrArg State.watches hset.kept :)
        change (k.testWatches p).watches = (({ k.testWatches p with watches := (if changed = true
          then (s.modCol p fun c => { c with link := (k.drop g x.drop).link }).testWatches p else s).watches } :
            State).testWatches p).watches
        rw [hdrop, ← htells.watches, ← hkw]
        rfl
      · obtain ⟨hspread, hstop⟩ := hset.idle (hwphase.trans hidle)
        obtain ⟨-, -, -, -, hs, -, -, hsp, -⟩ := htells.fields
        exact ⟨hspread.trans hsp, hstop.trans hs⟩
      · have hfurther := hset.further (hwphase.trans hst) c
        have hcap : (k.col p).cap = (w.col p).cap := (congrArg Column.cap hset.column :)
        rw [hwstop, htells.isOverloaded_iff, ← hcap] at hfurther
        exact hfurther
      · have hstop := hset.stop
        rw [hwstop] at hstop
        exact hstop
      · let restore := fun v : State =>
          { v with segs := s.segs, cols := s.cols, notices := s.notices, watches := s.watches, lastCreep := s.lastCreep,
                   spread := s.spread, stop := s.stop }
        exact (congrArg restore hset.kept :).trans
          (congrArg (fun v : State => { v with spread := s.spread, stop := s.stop }) htells.kept :)
    · obtain ⟨hphase, hrecord⟩ := hfault (by rw [hwphase]; exact hidle) (by rw [hwphase]; exact hstopped) hf
      refine ⟨hphase, hrecord.trans ?_⟩
      unfold State.recordOf
      rw [hwphase, hwref, hwplan]
      rfl

end Sys2Proof.Machine

/-! The group checks of a tracked arrival against the breaches of the manual (R129 to R135), and O52. -/

namespace Sys2Proof.Machine

set_option Elab.async false

/-! ### The state in which the checks are made (R120 to R123) -/

/-- rel, the lag, the classification, the mark and the spread brought up to date at a tracked arrival of `p` with lag `e`. -/
def State.assessed (s : State) (p : Pos) (e : Int) : State :=
  ((s.modCol p Column.withRel).classifyAt p e).writeSpread (carOf p)

/-- The column of the arrival, assessed. -/
def Column.assessed (c : Column) (ph : Phase) (d : Direction) (wAdv wDone : Nat) (e : Int) : Column :=
  { c.withRel with cls := classOf ph d wAdv e, mark := outOfPosition wDone e, lag := some e }

theorem Phase.isTracked_iff (ph : Phase) : ph.isTracked = true ↔ ph = .lifting ∨ ph = .lowering ∨ ph = .dwell ∨ ph = .holding := by
  cases ph <;> decide

section
variable {s w u t : State} {g : SegId} {x : Exchange} {r : Report} {p : Pos} {changed : Bool} {e : Int} {contact maxSpeed rated : Nat}

theorem State.col_assessed (s : State) (p y : Pos) (e : Int) : (s.assessed p e).col y =
    if y = p then (s.col y).assessed s.phase s.ref.dir (s.limit .wAdv) (s.limit .wDone) e else s.col y := by
  unfold State.assessed State.classifyAt State.classify State.writeSpread
  change (((s.modCol p Column.withRel).modCol p _).col y) = _
  rw [State.col_modCol, State.col_modCol]
  split
  · rfl
  · rfl

theorem State.assessed_kept (s : State) (p : Pos) (e : Int) : { s.assessed p e with
    cols := s.cols, spread := s.spread, holdCount := s.holdCount, outCount := s.outCount } = s :=
  rfl

theorem State.assessed_rel (s : State) (p y : Pos) (e : Int) : ((s.assessed p e).col y).rel = ((s.measured p).col y).rel := by
  rw [State.col_assessed, State.col_measured]
  split <;> rfl

theorem State.assessed_spread (s : State) (p : Pos) (e : Int) (k : CarId) :
    (s.assessed p e).spread.get k = if k = carOf p then (s.assessed p e).spreadNow k else s.spread.get k := by
  change (s.spread.set (carOf p) (((s.modCol p Column.withRel).classifyAt p e).spreadNow (carOf p))).get k = _
  rw [Table.get_set]
  split
  · next h =>
    rw [h]
    rfl
  · rfl

/-- The tracked work of an arrival with a contact height. -/
theorem State.trackingWork_tracked (hphase : w.phase.isTracked = true) {rel : Int} (hrel : (w.col p).withRel.rel = some rel)
    (he : e = (w.ref.h : Int) + (w.col p).offset - rel) : w.trackingWork p =
      (let u := ((w.assessed p e).offerAll ((w.assessed p e).groupChecks w.phase p e)).trackedDemand p w.ref.vEff e
      if w.phase.evaluatesShares then u.evaluateShares (carOf p) else u) := by
  have hself : (w.modCol p Column.withRel).col p = (w.col p).withRel := State.col_modCol_self _ _ _
  have hlag : (w.modCol p Column.withRel).lagOf p rel = e := by
    unfold State.lagOf
    rw [hself, he]
    rfl
  have hwork : w.trackingWork p = (w.modCol p Column.withRel).trackedWork p := by
    have hp : (w.modCol p Column.withRel).phase = w.phase := rfl
    unfold State.trackingWork
    dsimp only
    rw [hp]
    rcases (w.phase.isTracked_iff).mp hphase with h | h | h | h <;> rw [h]
  rw [hwork]
  unfold State.trackedWork
  rw [hself, hrel]
  dsimp only
  rw [hlag]
  rfl

end

/-! ### The checks and the breaches (R129 to R135) -/

/-- State `v` holds the values of the arrival of report `r` from `p`, on which the checks are made. -/
structure State.poses (s v : State) (p : Pos) (r : Report) (contact rated : Nat) : Prop where
  limits : v.limits = s.limits
  ref : v.ref = s.ref
  roster : v.roster = s.roster
  rels : (fun y => (v.col y).rel) = s.relWith p ((min r.height 40000 : Nat) - (contact : Int))
  height : (v.col p).height = some (min r.height 40000)
  load : (v.col p).load = some (min r.load 60000)
  flags : (v.col p).flags = r.flags
  rated : (v.col p).cap.rated = some rated

/-- The lag of position `p` at report `r` (R122). -/
def State.lagAt (s : State) (p : Pos) (r : Report) (contact : Nat) : Int :=
  (s.ref.h : Int) + (s.col p).offset - ((min r.height 40000 : Nat) - (contact : Int))

/-- The offer of cause `c` for position `p` with value `n` and car `k`. -/
def checkOffer (p : Pos) (c : StopCause) (n : Int) (k : CarId) : Offer :=
  { cause := c, pos := some p, car := some k, value := some n, port := none }

theorem mem_offerIf {fails : Bool} {o a : Offer} : a ∈ offerIf fails o ↔ fails = true ∧ a = o := by
  unfold offerIf
  cases fails <;> simp

theorem State.jointDifference_eq_some {v : State} {k : JointId} {n : Nat} :
    v.jointDifference k = some n ↔ stepIs (fun y => (v.col y).rel) k n := by
  unfold State.jointDifference State.relSum stepIs endBefore endAfter
  constructor
  · intro h
    split at h
    · next b a hb ha =>
      split at hb
      · next b1 b2 hb1 hb2 =>
        split at ha
        · next a1 a2 ha1 ha2 =>
          cases hb
          cases ha
          refine ⟨b1, b2, a1, a2, hb1, hb2, ha1, ha2, ?_⟩
          rw [← Option.some.inj h, Int.natCast_natAbs]
        · cases ha
      · cases hb
    · cases h
  · rintro ⟨a, b, c, d, ha, hb, hc, hd, hn⟩
    simp only [ha, hb, hc, hd, Option.some.injEq]
    rw [← Int.natCast_natAbs] at hn
    exact_mod_cast hn.symm

section
variable {s v : State} {r : Report} {p : Pos} {contact rated : Nat} {a : Offer}

theorem State.poses.lag (h : s.poses v p r contact rated) : a ∈ v.lagCheck p (s.lagAt p r contact) ↔
    ∃ n k, s.breaches p r contact rated .lag n k ∧ a = checkOffer p .lag n k := by
  unfold State.lagCheck
  rw [mem_offerIf, State.limit_congr h.limits, decide_eq_true_iff]
  constructor
  · exact fun ⟨hlt, ha⟩ => ⟨_, _, ⟨rfl, rfl, hlt⟩, ha⟩
  · rintro ⟨n, k, ⟨rfl, rfl, hlt⟩, ha⟩
    exact ⟨hlt, ha⟩

theorem State.poses.spread (h : s.poses v p r contact rated) : a ∈ v.spreadCheck p ↔
    ∃ n k, s.breaches p r contact rated .carSpread n k ∧ a = checkOffer p .carSpread n k := by
  have hspread : ∀ n, v.spreadNow (carOf p) = some n ↔ spreadIs (s.relWith p ((min r.height 40000 : Nat) - (contact : Int))) (carOf p) n :=
    fun n => by rw [State.spreadNow_eq_some, h.rels]
  unfold State.spreadCheck
  constructor
  · intro ha
    split at ha
    · next d hd =>
      rw [mem_offerIf, State.limit_congr h.limits, decide_eq_true_iff] at ha
      exact ⟨d, carOf p, ⟨d, (hspread d).mp hd, ha.1, rfl, rfl⟩, ha.2⟩
    · cases ha
  · rintro ⟨n, k, ⟨d, hd, hlt, rfl, rfl⟩, ha⟩
    rw [(hspread d).mpr hd]
    dsimp only
    rw [mem_offerIf, State.limit_congr h.limits, decide_eq_true_iff]
    exact ⟨hlt, ha⟩

theorem State.poses.articulation (h : s.poses v p r contact rated) : a ∈ v.articulationCheck p ↔
    ∃ n k, s.breaches p r contact rated .articulation n k ∧ a = checkOffer p .articulation n k := by
  have hstep : ∀ j n, v.jointDifference j = some n ↔ stepIs (s.relWith p ((min r.height 40000 : Nat) - (contact : Int))) j n :=
    fun j n => by rw [State.jointDifference_eq_some, h.rels]
  have hlink : ∀ j, v.linkEffective j = s.linkEffective j := fun j => by
    unfold State.linkEffective State.carPresent
    rw [State.validPos_congr h.roster, h.roster]
  unfold State.articulationCheck
  constructor
  · intro ha
    split at ha
    · cases ha
    · next j hj =>
      by_cases heff : v.linkEffective j = true
      · rw [if_pos heff] at ha
        split at ha
        · next d hd =>
          rw [mem_offerIf, State.limit_congr h.limits, decide_eq_true_iff] at ha
          exact ⟨d, carBefore j, ⟨j, d, hj, (hlink j).symm.trans heff, (hstep j d).mp hd, ha.1, rfl, rfl⟩, ha.2⟩
        · cases ha
      · rw [if_neg heff] at ha
        cases ha
  · rintro ⟨n, k, ⟨j, d, hj, heff, hd, hlt, rfl, rfl⟩, ha⟩
    rw [hj]
    dsimp only
    rw [if_pos ((hlink j).trans heff), (hstep j d).mpr hd]
    dsimp only
    rw [mem_offerIf, State.limit_congr h.limits, decide_eq_true_iff]
    exact ⟨hlt, ha⟩

theorem State.poses.overload (h : s.poses v p r contact rated) : a ∈ v.overloadCheck p ↔
    ∃ n k, s.breaches p r contact rated .overload n k ∧ a = checkOffer p .overload n k := by
  unfold State.overloadCheck
  rw [h.load, h.rated]
  dsimp only
  rw [mem_offerIf, decide_eq_true_iff]
  constructor
  · exact fun ⟨hlt, ha⟩ => ⟨_, _, ⟨rfl, rfl, hlt⟩, ha⟩
  · rintro ⟨n, k, ⟨rfl, rfl, hlt⟩, ha⟩
    exact ⟨hlt, ha⟩

/-- In the tracked phases the load-lost check is made in LIFTING and DWELL, and elsewhere outside the set-down band (R134). -/
theorem State.loadLostApplies_iff {v : State} {ph : Phase} (hph : ph.isTracked = true) : v.loadLostApplies ph = true ↔
    ph = .lifting ∨ ph = .dwell ∨ v.ref.setDown = false ∨ v.limit .setDownBand < v.ref.h := by
  unfold State.loadLostApplies
  rcases (ph.isTracked_iff).mp hph with rfl | rfl | rfl | rfl <;> simp

theorem State.poses.loadLost (h : s.poses v p r contact rated) (hph : s.phase.isTracked = true) :
    a ∈ v.loadLostCheck s.phase p ↔ ∃ n k, s.breaches p r contact rated .loadLost n k ∧ a = checkOffer p .loadLost n k := by
  unfold State.loadLostCheck
  rw [h.load]
  dsimp only
  rw [mem_offerIf, Bool.and_eq_true, State.loadLostApplies_iff hph, State.limit_congr h.limits, h.ref, decide_eq_true_iff]
  constructor
  · exact fun ⟨⟨happlies, hlt⟩, ha⟩ => ⟨_, _, ⟨rfl, rfl, hlt, happlies⟩, ha⟩
  · rintro ⟨n, k, ⟨rfl, rfl, hlt, happlies⟩, ha⟩
    exact ⟨⟨happlies, hlt⟩, ha⟩

theorem State.poses.driveLimit (h : s.poses v p r contact rated) : a ∈ v.driveLimitCheck s.phase p ↔
    ∃ n k, s.breaches p r contact rated .driveLimit n k ∧ a = checkOffer p .driveLimit n k := by
  have hvalue : (v.col p).heightValue = some ((min r.height 40000 : Nat) : Int) := by
    unfold Column.heightValue
    rw [h.height]
    rfl
  have hall : a ∈ v.driveLimitCheck s.phase p ↔ (s.phase = .lifting ∧ r.flags.upperLimit = true ∨
      s.phase = .lowering ∧ r.flags.lowerLimit = true) ∧ a = checkOffer p .driveLimit (min r.height 40000 : Nat) (carOf p) := by
    unfold State.driveLimitCheck
    rw [hvalue, h.flags]
    cases s.phase with
    | lifting => simp [mem_offerIf, columnOffer, checkOffer]
    | lowering => simp [mem_offerIf, columnOffer, checkOffer]
    | _ => simp
  rw [hall]
  constructor
  · exact fun ⟨hlim, ha⟩ => ⟨_, _, ⟨rfl, rfl, hlim⟩, ha⟩
  · rintro ⟨n, k, ⟨rfl, rfl, hlim⟩, ha⟩
    exact ⟨hlim, ha⟩

/-- The offers of a tracked arrival are its breaches (R129 to R135). -/
theorem State.poses.mem_groupChecks (h : s.poses v p r contact rated) (hph : s.phase.isTracked = true) :
    a ∈ v.groupChecks s.phase p (s.lagAt p r contact) ↔
      ∃ c n k, s.breaches p r contact rated c n k ∧ a = checkOffer p c n k := by
  unfold State.groupChecks
  simp only [List.mem_append, h.lag, h.spread, h.articulation, h.overload, h.loadLost hph, h.driveLimit]
  constructor
  · rintro (((((⟨n, k, hb, ha⟩ | ⟨n, k, hb, ha⟩) | ⟨n, k, hb, ha⟩) | ⟨n, k, hb, ha⟩) | ⟨n, k, hb, ha⟩) | ⟨n, k, hb, ha⟩)
    all_goals exact ⟨_, n, k, hb, ha⟩
  · rintro ⟨c, n, k, hb, ha⟩
    cases c with
    | lag => exact .inl (.inl (.inl (.inl (.inl ⟨n, k, hb, ha⟩))))
    | carSpread => exact .inl (.inl (.inl (.inl (.inr ⟨n, k, hb, ha⟩))))
    | articulation => exact .inl (.inl (.inl (.inr ⟨n, k, hb, ha⟩)))
    | overload => exact .inl (.inl (.inr ⟨n, k, hb, ha⟩))
    | loadLost => exact .inl (.inr ⟨n, k, hb, ha⟩)
    | driveLimit => exact .inr ⟨n, k, hb, ha⟩
    | _ => exact hb.elim

/-- The offers come in the order of their causes (the table of section 7.5). -/
theorem State.poses.groupChecks_ordered (h : s.poses v p r contact rated) (hph : s.phase.isTracked = true) :
    (v.groupChecks s.phase p (s.lagAt p r contact)).Pairwise fun a b => a.cause.code ≤ b.cause.code := by
  have hone : ∀ {l : List Offer} {c : StopCause}, (∀ a ∈ l, a.cause = c) → l.Pairwise fun a b => a.cause.code ≤ b.cause.code :=
    fun hl => List.pairwise_of_forall_mem_list fun a ha b hb => by rw [hl a ha, hl b hb]
  have hcause : ∀ {l : List Offer} {c : StopCause}, (∀ a, a ∈ l ↔ ∃ n k, s.breaches p r contact rated c n k ∧
      a = checkOffer p c n k) → ∀ a ∈ l, a.cause = c := fun hl a ha => by
    obtain ⟨n, k, -, rfl⟩ := (hl a).mp ha
    rfl
  have h1 := hcause fun a => h.lag (a := a)
  have h2 := hcause fun a => h.spread (a := a)
  have h3 := hcause fun a => h.articulation (a := a)
  have h4 := hcause fun a => h.overload (a := a)
  have h5 := hcause fun a => h.loadLost (a := a) hph
  have h6 := hcause fun a => h.driveLimit (a := a)
  unfold State.groupChecks
  simp only [List.pairwise_append, List.mem_append, hone h1, hone h2, hone h3, hone h4, hone h5, hone h6, true_and]
  refine ⟨⟨⟨⟨?_, ?_⟩, ?_⟩, ?_⟩, ?_⟩
  · intro a ha b hb
    rw [h1 a ha, h2 b hb]
    decide
  · rintro a (ha | ha) b hb
    · rw [h1 a ha, h3 b hb]; decide
    · rw [h2 a ha, h3 b hb]; decide
  · rintro a ((ha | ha) | ha) b hb
    · rw [h1 a ha, h4 b hb]; decide
    · rw [h2 a ha, h4 b hb]; decide
    · rw [h3 a ha, h4 b hb]; decide
  · rintro a (((ha | ha) | ha) | ha) b hb
    · rw [h1 a ha, h5 b hb]; decide
    · rw [h2 a ha, h5 b hb]; decide
    · rw [h3 a ha, h5 b hb]; decide
    · rw [h4 a ha, h5 b hb]; decide
  · rintro a ((((ha | ha) | ha) | ha) | ha) b hb
    · rw [h1 a ha, h6 b hb]; decide
    · rw [h2 a ha, h6 b hb]; decide
    · rw [h3 a ha, h6 b hb]; decide
    · rw [h4 a ha, h6 b hb]; decide
    · rw [h5 a ha, h6 b hb]; decide

end

end Sys2Proof.Machine

/-! The load shares of a car (R136, R137). -/

namespace Sys2Proof.Machine

set_option Elab.async false

/-- A column's share flag after an evaluation with the car's total (R137). -/
def State.shareAfter (s : State) (total : Nat) (y : Pos) : Bool :=
  match (s.col y).load with
  | none => (s.col y).share
  | some l => shareFlag (s.col y).share (s.limit .shareMin) (s.limit .shareMax) (sharePercent l total)

theorem State.shareAfter_of_load {s : State} {total l : Nat} {y : Pos} (h : (s.col y).load = some l) : s.shareAfter total y =
    shareFlag (s.col y).share (s.limit .shareMin) (s.limit .shareMax) (sharePercent l total) := by
  unfold State.shareAfter
  rw [h]

/-- An update of a column that changes nothing. -/
theorem State.modCol_self {s : State} {p : Pos} {f : Column → Column} (h : f (s.col p) = s.col p) : s.modCol p f = s := by
  have hcols : s.cols.modify p f = s.cols := Table.ext_get fun i => by
    rw [Table.get_modify]
    split
    · next hi =>
      subst hi
      exact h
    · rfl
  unfold State.modCol
  rw [hcols]

theorem State.followShare_eq (s : State) (total : Nat) (p : Pos) : s.followShare total p =
    (s.modCol p fun c => { c with share := s.shareAfter total p }).raiseWhere (s.shareAfter total p && !(s.col p).share) .loadShare := by
  cases h : (s.col p).load with
  | none =>
    have hafter : s.shareAfter total p = (s.col p).share := by
      unfold State.shareAfter
      rw [h]
    have hno : ((s.col p).share && !(s.col p).share) = false := by
      cases (s.col p).share <;> rfl
    rw [hafter, hno, State.modCol_self rfl]
    unfold State.followShare
    rw [h]
    rfl
  | some l =>
    rw [State.shareAfter_of_load h]
    unfold State.followShare
    rw [h]
    rfl

/-- Between `s` and `t` the share flags of the positions `l` have followed the total, and nothing else but the notice. -/
structure State.followsShares (s t : State) (total : Nat) (l : List Pos) : Prop where
  cols : ∀ y, t.col y = if y ∈ l then { s.col y with share := s.shareAfter total y } else s.col y
  notices : t.notices = if ∃ y ∈ l, (s.col y).share = false ∧ s.shareAfter total y = true
    then s.noticesWith .loadShare else s.notices
  kept : { t with cols := s.cols, notices := s.notices } = s

theorem State.noticesWith_twice (s t : State) (c : Category) (h : t.notices = s.noticesWith c) : t.noticesWith c = s.noticesWith c := by
  unfold State.noticesWith at h ⊢
  rw [h]
  refine Table.ext_get fun q => ?_
  rw [Table.get_map, Table.get_map, NoticeState.raised_raised]

theorem State.foldl_followShare {total : Nat} {l : List Pos} (hl : l.Nodup) (s : State) :
    s.followsShares (l.foldl (fun t p => t.followShare total p) s) total l := by
  induction l generalizing s with
  | nil => exact ⟨fun _ => rfl, by simp, rfl⟩
  | cons p l ih =>
    obtain ⟨hp, hl⟩ := List.nodup_cons.mp hl
    have hstep := s.followShare_eq total p
    have hnotices := State.raiseWhere_notices (s.modCol p fun c => { c with share := s.shareAfter total p })
      (s.shareAfter total p && !(s.col p).share) .loadShare
    have hkept := State.raiseWhere_kept (s.modCol p fun c => { c with share := s.shareAfter total p })
      (s.shareAfter total p && !(s.col p).share) .loadShare
    rw [← hstep] at hnotices hkept
    have hrest := ih hl (s.followShare total p)
    rw [List.foldl_cons]
    generalize l.foldl (fun t p => t.followShare total p) (s.followShare total p) = t at hrest
    generalize s.followShare total p = u at hnotices hkept hrest
    have hcols : u.cols = (s.modCol p fun c => { c with share := s.shareAfter total p }).cols := (congrArg State.cols hkept :)
    have hlimits : u.limits = s.limits := (congrArg State.limits hkept :)
    have hself : u.col p = { s.col p with share := s.shareAfter total p } :=
      (State.col_congr hcols p).trans (State.col_modCol_self _ _ _)
    have hother : ∀ y, y ≠ p → u.col y = s.col y := fun y hy => (State.col_congr hcols y).trans (State.col_modCol_of_ne _ _ hy)
    have hafter : ∀ y, y ≠ p → u.shareAfter total y = s.shareAfter total y := fun y hy => by
      unfold State.shareAfter
      rw [hother y hy, State.limit_congr hlimits]
    refine ⟨fun y => ?_, ?_, ?_⟩
    · rw [hrest.cols]
      by_cases hy : y = p
      · subst hy
        rw [if_neg hp, if_pos (List.mem_cons_self ..), hself]
      · rw [hother y hy, hafter y hy]
        simp only [List.mem_cons, hy, false_or]
    · have hnew : (∃ y ∈ l, (u.col y).share = false ∧ u.shareAfter total y = true) ↔
          ∃ y ∈ l, (s.col y).share = false ∧ s.shareAfter total y = true := by
        refine exists_congr fun y => and_congr_right fun hy => ?_
        have hyp : y ≠ p := fun h => hp (h ▸ hy)
        rw [hother y hyp, hafter y hyp]
      have hfirst : (s.shareAfter total p && !(s.col p).share) = true ↔ (s.col p).share = false ∧ s.shareAfter total p = true := by
        rw [Bool.and_eq_true, Bool.not_eq_true', and_comm]
      have hun : u.notices = if (s.col p).share = false ∧ s.shareAfter total p = true then s.noticesWith .loadShare else s.notices := by
        rw [hnotices]
        simp only [hfirst]
        rfl
      rw [hrest.notices]
      simp only [hnew, List.exists_mem_cons_iff]
      by_cases h1 : (s.col p).share = false ∧ s.shareAfter total p = true
      · rw [if_pos h1] at hun
        rw [s.noticesWith_twice u _ hun, hun, ite_self]
        exact (if_pos (Or.inl h1)).symm
      · rw [if_neg h1] at hun
        have hsame : u.noticesWith .loadShare = s.noticesWith .loadShare := by
          unfold State.noticesWith
          rw [hun]
        rw [hsame, hun]
        simp only [h1, false_or]
    · exact (congrArg (fun v : State => { v with cols := s.cols, notices := s.notices }) hrest.kept :).trans
        (congrArg (fun v : State => { v with cols := s.cols, notices := s.notices }) hkept :)

/-- The evaluation of a car's shares, with its two ways out (R136). -/
theorem State.evaluateShares_cases (s : State) (k : CarId) :
    (s.carLoad k = none → s.evaluateShares k = s) ∧
    (∀ total, s.carLoad k = some total → total < 4 * s.limit .contactLoad → s.evaluateShares k = s) ∧
    ∀ total, s.carLoad k = some total → 4 * s.limit .contactLoad ≤ total →
      s.followsShares (s.evaluateShares k) total (carPositions k) := by
  unfold State.evaluateShares
  refine ⟨fun h => ?_, fun total h hlt => ?_, fun total h hle => ?_⟩
  · rw [h]
  · rw [h]
    exact if_pos hlt
  · rw [h]
    dsimp only
    rw [if_neg (Nat.not_lt.mpr hle)]
    exact State.foldl_followShare (carPositions_nodup k) s

/-- What an evaluation leaves alone (R136). -/
structure State.sharesOut (s t : State) : Prop where
  cols : ∀ y, { t.col y with share := (s.col y).share } = s.col y
  notices : t.notices = s.notices ∨ t.notices = s.noticesWith .loadShare
  kept : { t with cols := s.cols, notices := s.notices } = s

theorem State.sharesOut.refl (s : State) : s.sharesOut s :=
  ⟨fun _ => rfl, .inl rfl, rfl⟩

theorem State.evaluateShares_sharesOut (s : State) (k : CarId) : s.sharesOut (s.evaluateShares k) := by
  obtain ⟨hnone, hlight, hfull⟩ := s.evaluateShares_cases k
  cases h : s.carLoad k with
  | none =>
    rw [hnone h]
    exact .refl s
  | some total =>
    by_cases hlt : total < 4 * s.limit .contactLoad
    · rw [hlight total h hlt]
      exact .refl s
    · have hf := hfull total h (Nat.not_lt.mp hlt)
      refine ⟨fun y => ?_, ?_, hf.kept⟩
      · rw [hf.cols]
        split <;> rfl
      · rw [hf.notices]
        split
        · exact .inr rfl
        · exact .inl rfl

end Sys2Proof.Machine

/-! O52: a breach of a group check stops the group. -/

namespace Sys2Proof.Machine

set_option Elab.async false

section
variable {s w u : State} {g : SegId} {x : Exchange} {r : Report} {p : Pos} {contact maxSpeed rated : Nat}

/-- The report of an ENROLLED drop changes no link state. -/
theorem State.hears.tells_enrolled (h : s.hears g x r p) (hen : (s.drop g x.drop).link = .enrolled) :
    s.tells (s.heardFrom g x r p) g x r p false ∧
      (s.heardFrom g x r p).notices = s.newsOf p r (s.creeps g p (min r.height 40000)) s.notices := by
  obtain ⟨changed, htells⟩ := h.tells
  obtain ⟨n, henrols, hnotices⟩ := htells.enrols
  obtain ⟨-, hsame, -⟩ := henrols
  obtain ⟨hdrop, hn⟩ := hsame (.inr (.inr (.inl hen)))
  have hchanged : changed = false := by
    rw [htells.changed_eq, hdrop]
    exact decide_eq_false fun hne => hne rfl
  subst hchanged
  rw [hn] at hnotices
  exact ⟨htells, hnotices⟩

/-- The arrival of an unfaulted report in a tracked phase, with its lag (R122). -/
theorem State.follows.statusArrival (h : s.follows g x r p contact maxSpeed rated) :
    s.statusArrival g (statusFrame x.drop x.toggle r) =
      (((((s.heardFrom g x r p).trackingWork p).testCompletion).testWatches p).modSeg g Segment.goOn) := by
  have hfault : (s.heardFrom g x r p).stopAtFault p r = s.heardFrom g x r p :=
    if_neg fun h' => absurd (h.noFault.symm.trans h'.1) (by decide)
  rw [h.tohears.statusArrival, hfault]

theorem State.tells.withRel_rel (h : s.tells w g x r p false) (hk : (s.col p).contact = some contact) :
    (w.col p).withRel.rel = some ((min r.height 40000 : Nat) - (contact : Int)) := by
  obtain ⟨hheight, -, -, hcontact, -⟩ := h.values
  rw [Column.withRel_rel hheight, hcontact, hk]
  rfl

theorem State.tells.lag (h : s.tells w g x r p false) : s.lagAt p r contact =
    (w.ref.h : Int) + (w.col p).offset - ((min r.height 40000 : Nat) - (contact : Int)) := by
  obtain ⟨-, -, -, -, hoffset, -⟩ := h.values
  obtain ⟨-, -, href, -⟩ := h.fields
  rw [State.lagAt, hoffset, href]

/-- The rel of every position once the report has been assessed (R120). -/
theorem State.tells.poses_rels (h : s.tells w g x r p false) (hk : (s.col p).contact = some contact) (e : Int) :
    (fun y => ((w.assessed p e).col y).rel) = s.relWith p ((min r.height 40000 : Nat) - (contact : Int)) := by
  funext y
  rw [State.assessed_rel, State.col_measured]
  unfold State.relWith
  by_cases hy : y = p
  · subst hy
    rw [if_pos rfl, if_pos rfl, h.withRel_rel hk]
  · rw [if_neg hy, if_neg hy, h.rel_of_ne hy]

/-- The assessed state poses the values of the report. -/
theorem State.tells.poses (h : s.tells w g x r p false) (hk : (s.col p).contact = some contact)
    (hrated : (w.col p).cap.rated = some rated) (e : Int) : s.poses (w.assessed p e) p r contact rated := by
  obtain ⟨hheight, hload, hflags, -⟩ := h.values
  obtain ⟨-, -, href, -, -, hlimits, hroster, -⟩ := h.fields
  have hself := (w.col_assessed p p e).trans (if_pos rfl)
  refine ⟨hlimits, href, hroster, h.poses_rels hk e, ?_, ?_, ?_, ?_⟩
  · rw [hself]
    exact hheight
  · rw [hself]
    exact hload
  · rw [hself]
    exact hflags
  · rw [hself]
    exact hrated

end

/-! ### The first offer and the others (R121, R148, R149) -/

/-- A first stop tells the notice of its cause to every station that has it enabled (R148). -/
theorem State.takesFirstStop.tells_cause {s t : State} {o : Offer} {c : Category} (h : s.takesFirstStop t o)
    (hc : o.cause.notice = some c) {q : PortId} (he : (s.notices.get q).enabled.get c.code = true) :
    (t.notices.get q).waiting.get c.code = true := by
  have htold : (((s.raise .phase).raise c).notices.get q).waiting.get c.code = true := by
    rw [State.raise_notices_get, State.raise_notices_get]
    exact NoticeState.raised_pending (by rw [NoticeState.raised_enabled]; exact he)
  rw [h.notices, hc]
  change ((if ∀ g, (s.seg g).echo = .none then (s.raise .phase).raise c else ((s.raise .phase).raise c).raise .echoDone).notices.get
    q).waiting.get c.code = true
  split
  · exact htold
  · rw [State.raise_notices_get]
    exact NoticeState.raised_keeps_pending _ htold

/-- Several offers outside STOPPED: the first is a first stop, and the causes of the others join the set (R121, R149). -/
theorem State.offerAll_first {v : State} (hp : v.power = .running) (hphase : v.phase ≠ .stopped) (o : Offer) (os : List Offer) :
    ∃ t further, v.takesFirstStop t o ∧ v.offerAll (o :: os) = { t with stop := { t.stop with further := further } } ∧
      ∀ c : StopCause, further.get c.code = true ↔ c ≠ o.cause ∧ ∃ a ∈ o :: os, a.cause = c := by
  have hfirst := State.firstStop_spec v o hp hphase
  have hoffer := State.offerStop_first v o hp hphase
  have hall : v.offerAll (o :: os) = (v.firstStop o).offerAll os := by
    change (v.offerStop o).offerAll os = _
    rw [hoffer]
  generalize v.firstStop o = t at hfirst hall
  obtain ⟨further, hrest, hget⟩ := State.offerAll_stopped (s := t) ((congrArg State.power hfirst.kept :).trans hp) hfirst.phase os
  refine ⟨t, further, hfirst, hall.trans hrest, fun c => ?_⟩
  have hcause : t.stop.recordCause = some o.cause := by
    rw [StopUnit.recordCause, hfirst.record]
    rfl
  rw [hget, hfirst.further, hcause, Table.get_fill, List.exists_mem_cons_iff]
  simp only [Bool.false_eq_true, false_or, ne_eq, Option.some.injEq]
  constructor
  · exact fun ⟨hne, hmem⟩ => ⟨fun h => hne h.symm, .inr hmem⟩
  · exact fun ⟨hne, hmem⟩ => ⟨fun h => hne h.symm, hmem.resolve_left fun h => hne h.symm⟩

section
variable {s v : State} {r : Report} {p : Pos} {contact rated : Nat} {c : StopCause} {n : Int} {k : CarId}

theorem spreadIs_unique {rels : Pos → Option Int} {k : CarId} {n m : Nat} (h : spreadIs rels k n) (h' : spreadIs rels k m) : n = m := by
  obtain ⟨a, b, c, d, ha, hb, hc, hd, hn⟩ := h
  obtain ⟨a', b', c', d', ha', hb', hc', hd', hm⟩ := h'
  cases ha.symm.trans ha'
  cases hb.symm.trans hb'
  cases hc.symm.trans hc'
  cases hd.symm.trans hd'
  exact_mod_cast hn.trans hm.symm

theorem stepIs_unique {rels : Pos → Option Int} {k : JointId} {n m : Nat} (h : stepIs rels k n) (h' : stepIs rels k m) : n = m := by
  obtain ⟨a, b, c, d, ha, hb, hc, hd, hn⟩ := h
  obtain ⟨a', b', c', d', ha', hb', hc', hd', hm⟩ := h'
  cases ha.symm.trans ha'
  cases hb.symm.trans hb'
  cases hc.symm.trans hc'
  cases hd.symm.trans hd'
  exact_mod_cast hn.trans hm.symm

/-- A cause is breached with one value and one car. -/
theorem State.breaches_unique {n' : Int} {k' : CarId} (h : s.breaches p r contact rated c n k)
    (h' : s.breaches p r contact rated c n' k') : n = n' ∧ k = k' := by
  cases c with
  | lag | overload | loadLost | driveLimit =>
    obtain ⟨rfl, rfl, -⟩ := h
    obtain ⟨rfl, rfl, -⟩ := h'
    exact ⟨rfl, rfl⟩
  | carSpread =>
    obtain ⟨d, hd, -, rfl, rfl⟩ := h
    obtain ⟨d', hd', -, rfl, rfl⟩ := h'
    exact ⟨congrArg _ (spreadIs_unique hd hd'), rfl⟩
  | articulation =>
    obtain ⟨j, d, hj, -, hd, -, rfl, rfl⟩ := h
    obtain ⟨j', d', hj', -, hd', -, rfl, rfl⟩ := h'
    cases hj.symm.trans hj'
    exact ⟨congrArg _ (stepIs_unique hd hd'), rfl⟩
  | _ => exact h.elim

/-- The notice of the causes of the group checks (the table of section 8.1). -/
theorem State.breaches_notice (h : s.breaches p r contact rated c n k) : c.notice = some .trip := by
  cases c with
  | lag | carSpread | articulation | overload | loadLost | driveLimit => rfl
  | _ => exact h.elim

/-- The smallest breach is the first offer of the checks (R121). -/
theorem State.poses.groupChecks_first (h : s.poses v p r contact rated) (hph : s.phase.isTracked = true)
    (hb : s.breaches p r contact rated c n k) (hmin : ∀ c' n' k', s.breaches p r contact rated c' n' k' → c.code ≤ c'.code) :
    ∃ os, v.groupChecks s.phase p (s.lagAt p r contact) = checkOffer p c n k :: os := by
  have hmem := (h.mem_groupChecks hph).mpr ⟨c, n, k, hb, rfl⟩
  have hsorted := h.groupChecks_ordered hph
  have hall := fun a => h.mem_groupChecks (a := a) hph
  cases hl : v.groupChecks s.phase p (s.lagAt p r contact) with
  | nil =>
    rw [hl] at hmem
    cases hmem
  | cons o os =>
    refine ⟨os, congrArg (· :: os) ?_⟩
    rw [hl] at hmem hsorted hall
    obtain ⟨c', n', k', hb', rfl⟩ := (hall o).mp (List.mem_cons_self ..)
    have hle : c'.code ≤ c.code := by
      rcases List.mem_cons.mp hmem with heq | hin
      · exact (congrArg (fun a : Offer => a.cause.code) heq :).ge
      · exact (List.pairwise_cons.mp hsorted).1 _ hin
    cases StopCause.code_injective (le_antisymm (hmin c' n' k' hb') hle)
    obtain ⟨rfl, rfl⟩ := State.breaches_unique hb hb'
    rfl

end

/-! ### O52 -/

theorem State.seg_goOn_allstop (u : State) (g z : SegId) :
    ((u.modSeg g Segment.goOn).seg z).allstopOwed = (u.seg z).allstopOwed := by
  rw [State.seg_modSeg]
  split
  · unfold Segment.goOn
    rw [Segment.endCycle_whole]
    split
    · split <;> rfl
    · rfl
  · rfl

/-- The tracked work after a first stop: demand 0, and the shares where the phase of the arrival has them (R121, R136). -/
theorem State.trackedDemand_stopped {v : State} (h : v.phase = .stopped) (p : Pos) (n : Nat) (e : Int) :
    v.trackedDemand p n e = v.setDemand p 0 := by
  unfold State.trackedDemand
  rw [h]

/-- The image that a first stop at a tracked arrival writes is that of the state before it (R150, R191). -/
theorem State.image_of_stop {s v t : State} {o : Offer} (h : v.takesFirstStop t o) (hs : s.phase ≠ .approach) (hst : s.phase ≠ .stopped)
    (hphase : v.phase = s.phase) (hroster : v.roster = s.roster) (hlimits : v.limits = s.limits) (hplan : v.plan = s.plan)
    (hcols : ∀ y, (v.col y).contact = (s.col y).contact ∧ (v.col y).offset = (s.col y).offset) : t.image = s.image := by
  have htphase : t.phase ≠ .approach := by
    rw [h.phase]
    decide
  have hcontact : t.cols.map (fun c => c.contact) = s.cols.map fun c => c.contact := Table.ext_get fun y => by
    rw [Table.get_map, Table.get_map]
    exact (congrArg Column.contact (h.columns y) :).trans (hcols y).1
  have hoffset : t.cols.map (fun c => c.offset) = s.cols.map fun c => c.offset := Table.ext_get fun y => by
    rw [Table.get_map, Table.get_map]
    exact (congrArg Column.offset (h.columns y) :).trans (hcols y).2
  have himage : t.imagePhase = s.imagePhase := by
    rw [State.imagePhase_stopped h.phase h.record, State.imagePhase_of_ne hst]
    exact hphase
  have ht : t.roster = v.roster ∧ t.limits = v.limits ∧ t.plan = v.plan :=
    ⟨(congrArg State.roster h.kept :), (congrArg State.limits h.kept :), (congrArg State.plan h.kept :)⟩
  unfold State.image State.imageContacts
  rw [if_neg htphase, if_neg hs, hcontact, hoffset, himage, ht.1, ht.2.1, ht.2.2, hroster, hlimits, hplan]

/-- The tracked work of an arrival with a breach: the first stop of the smallest, the other causes, demand 0 and the shares. -/
structure State.breaks (s v k : State) (p : Pos) (r : Report) (contact rated : Nat) (o : Offer) : Prop where
  phase : k.phase = .stopped
  record : k.stop.record = some (v.recordOf o)
  further : ∀ c, k.stop.further.get c.code = true ↔ c ≠ o.cause ∧ ∃ n j, s.breaches p r contact rated c n j
  stopOut : k.stop.stopOut = .opened
  demands : ∀ y, (k.col y).demand = 0
  owed : ∀ z, (k.seg z).allstopOwed = true
  rel : (k.col p).rel = (v.col p).rel
  vEff : k.ref.vEff = 0
  counts : k.holdCount = 0 ∧ k.outCount = 0
  stopped : ∃ t, v.takesFirstStop t o ∧ k.retention = t.retention ∧ (k.notices = t.notices ∨ k.notices = t.noticesWith .loadShare)

section
variable {s w : State} {g : SegId} {x : Exchange} {r : Report} {p : Pos} {contact rated : Nat} {c : StopCause} {n : Int} {j : CarId}

theorem State.tells.breaks (h : s.tells w g x r p false) (hp : s.power = .running) (hk : (s.col p).contact = some contact)
    (hrated : (w.col p).cap.rated = some rated) (hph : s.phase.isTracked = true) (hb : s.breaches p r contact rated c n j)
    (hmin : ∀ c' n' k', s.breaches p r contact rated c' n' k' → c.code ≤ c'.code) :
    s.breaks (w.assessed p (s.lagAt p r contact)) (w.trackingWork p) p r contact rated (checkOffer p c n j) := by
  obtain ⟨hwpower, hwphase, -⟩ := h.fields
  have hstopped : s.phase ≠ .stopped := fun hs => by
    rw [hs] at hph
    cases hph
  have hposes := h.poses hk hrated (s.lagAt p r contact)
  have hwork := State.trackingWork_tracked (w := w) (p := p) (by rw [hwphase]; exact hph) (h.withRel_rel hk) h.lag
  rw [hwphase] at hwork
  have hvpower : (w.assessed p (s.lagAt p r contact)).power = .running := hwpower.trans hp
  have hvphase : (w.assessed p (s.lagAt p r contact)).phase ≠ .stopped := fun hs => hstopped (hwphase.symm.trans hs)
  generalize w.assessed p (s.lagAt p r contact) = v at hposes hwork hvpower hvphase
  obtain ⟨os, hos⟩ := hposes.groupChecks_first hph hb hmin
  have hmem := fun a => hposes.mem_groupChecks (a := a) hph
  rw [hos] at hwork hmem
  obtain ⟨t, further, hfirst, hall, hget⟩ := State.offerAll_first hvpower hvphase (checkOffer p c n j) os
  have hphase : ({ t with stop := { t.stop with further := further } } : State).phase = .stopped := hfirst.phase
  rw [hall, State.trackedDemand_stopped hphase] at hwork
  have hshares : (({ t with stop := { t.stop with further := further } } : State).setDemand p 0).sharesOut (w.trackingWork p) := by
    rw [hwork]
    dsimp only
    split
    · exact State.evaluateShares_sharesOut _ _
    · exact .refl _
  generalize w.trackingWork p = k at hshares
  have hkept := hshares.kept
  have hcol : ∀ y, { k.col y with share := (t.col y).share, demand := (t.col y).demand } = t.col y := fun y => by
    have hy := (congrArg (fun c : Column => { c with share := (t.col y).share, demand := (t.col y).demand }) (hshares.cols y) :)
    refine hy.trans ?_
    rw [State.setDemand, State.col_modCol]
    split <;> rfl
  have hstop : k.stop = { t.stop with further := further } := (congrArg State.stop hkept :)
  have href : k.ref = t.ref := (congrArg State.ref hkept :)
  refine ⟨(congrArg State.phase hkept :).trans hfirst.phase, ?_, fun c' => ?_, ?_, fun y => ?_, fun z => ?_, ?_, ?_, ?_, t, hfirst, ?_, ?_⟩
  · rw [hstop]
    exact hfirst.record
  · rw [hstop]
    refine (hget c').trans (and_congr_right fun _ => ?_)
    constructor
    · rintro ⟨a, ha, rfl⟩
      obtain ⟨c'', n', k', hb', rfl⟩ := (hmem a).mp ha
      exact ⟨n', k', hb'⟩
    · rintro ⟨n', k', hb'⟩
      exact ⟨_, (hmem _).mpr ⟨c', n', k', hb', rfl⟩, rfl⟩
  · rw [hstop]
    exact hfirst.stopOut
  · refine (congrArg Column.demand (hshares.cols y) :).trans ?_
    rw [State.setDemand, State.col_modCol]
    split
    · rfl
    · exact (hfirst.demands y).1
  · have hsegs : k.segs = t.segs := (congrArg State.segs hkept :)
    rw [State.seg_congr hsegs, hfirst.lines]
  · exact (congrArg Column.rel (hcol p) :).trans (congrArg Column.rel (hfirst.columns p) :)
  · rw [href]
    exact hfirst.halted.1
  · exact ⟨(congrArg State.holdCount hkept :).trans hfirst.counts.1, (congrArg State.outCount hkept :).trans hfirst.counts.2⟩
  · exact (congrArg State.retention hkept :)
  · exact hshares.notices

end

/-- What a report tells leaves what each station has enabled (R175). -/
theorem State.newsOf_enabled (s : State) (p : Pos) (r : Report) (crept : Bool) (n : Table NoticeState 4) (q : PortId) :
    ((s.newsOf p r crept n).get q).enabled = (n.get q).enabled := by
  have htold : ∀ (b : Bool) (k : Category) (m : Table NoticeState 4),
      ((if b = true then m.map (NoticeState.raised k) else m).get q).enabled = (m.get q).enabled := fun b k m => by
    split
    · rw [Table.get_map, NoticeState.raised_enabled]
    · rfl
  unfold State.newsOf
  dsimp only
  rw [htold, htold, htold]

/-- A breach of a group check stops the group: the smallest is the stop record, and every other one a further cause. Here rel is the
difference of the stored height and the contact height in whole numbers, as R120 has it. -/
theorem State.follows.stopsAtBreach {s : State} {g : SegId} {x : Exchange} {r : Report} {p : Pos} {contact maxSpeed rated : Nat}
    (hfollows : s.follows g x r p contact maxSpeed rated) (hphase : s.phase ∈ [Phase.lifting, .lowering, .dwell, .holding])
    {c : StopCause} {n : Int} {j : CarId} (hb : s.breaches p r contact rated c n j)
    (hmin : ∀ c' n' j', s.breaches p r contact rated c' n' j' → c.code ≤ c'.code) :
    ∃ t, exec (.statusArrival g (statusFrame x.drop x.toggle r)) s = .next t ∧ t.phase = .stopped ∧
      t.stop.record = some { cause := c, pos := some p, car := some j, value := some n, phase := s.phase, h := s.ref.h,
                             legIndex := s.plan.index, port := none } ∧
      (∀ c', t.stop.further.get c'.code = true ↔ c' ≠ c ∧ ∃ n' j', s.breaches p r contact rated c' n' j') ∧
      (∀ y, (t.col y).demand = 0) ∧ t.stop.stopOut = .opened ∧ (∀ z, (t.seg z).allstopOwed = true) ∧
      (t.col p).rel = some (((min r.height 40000 : Nat) : Int) - (contact : Int)) ∧ t.ref.vEff = 0 ∧ t.holdCount = 0 ∧ t.outCount = 0 ∧
      t.retention = s.retention.triggered s.image ∧
      ∀ q, (s.notices.get q).enabled.get Category.trip.code = true → (t.notices.get q).waiting.get Category.trip.code = true := by
  have hears := hfollows.tohears
  obtain ⟨htells, hnotices⟩ := hears.tells_enrolled hfollows.enrolled
  have hph : s.phase.isTracked = true := by
    rw [Phase.isTracked_iff]
    simpa using hphase
  have happroach : s.phase ≠ .approach := fun h => by
    rw [h] at hph
    cases hph
  have hstopped : s.phase ≠ .stopped := fun h => by
    rw [h] at hph
    cases hph
  have harrival := hfollows.statusArrival
  generalize s.heardFrom g x r p = w at htells harrival hnotices
  have hrated : (w.col p).cap.rated = some rated := by
    rw [(htells.still hfollows.enrolled).2]
    exact hfollows.rated
  have hbreaks := htells.breaks hears.running hfollows.contact hrated hph hb hmin
  generalize w.trackingWork p = k at hbreaks harrival
  have hdone : k.testCompletion = k := State.testCompletion_of_not (by unfold State.legComplete; rw [hbreaks.phase]; rfl)
  rw [hdone] at harrival
  obtain ⟨t, hfirst, hretention, htold⟩ := hbreaks.stopped
  obtain ⟨-, hwphase, hwref, hwplan, -, hwlimits, hwroster, -, hwretention, -⟩ := htells.fields
  refine ⟨_, congrArg Host.Outcome.next harrival, hbreaks.phase, hbreaks.record.trans ?_, hbreaks.further, hbreaks.demands, hbreaks.stopOut,
    fun z => ?_, ?_, hbreaks.vEff, hbreaks.counts.1, hbreaks.counts.2, hretention.trans ?_, fun q he => ?_⟩
  · change some ({ cause := c, pos := some p, car := some j, value := some n, phase := w.phase, h := w.ref.h,
                   legIndex := w.plan.index, port := none } : StopRecord) = _
    rw [hwphase, hwref, hwplan]
  · exact (State.seg_goOn_allstop _ g z).trans (hbreaks.owed z)
  · refine hbreaks.rel.trans ?_
    rw [State.col_assessed, if_pos rfl]
    exact htells.withRel_rel hfollows.contact
  · have hcols : ∀ y, ((w.assessed p (s.lagAt p r contact)).col y).contact = (s.col y).contact ∧
        ((w.assessed p (s.lagAt p r contact)).col y).offset = (s.col y).offset := fun y => by
      rw [State.col_assessed]
      by_cases hy : y = p
      · subst hy
        rw [if_pos rfl]
        obtain ⟨-, -, -, hcontact, hoffset, -⟩ := htells.values
        exact ⟨hcontact, hoffset⟩
      · rw [if_neg hy]
        exact ⟨(congrArg Column.contact (htells.cols y hy) :), (congrArg Column.offset (htells.cols y hy) :)⟩
    rw [hfirst.written, State.image_of_stop hfirst happroach hstopped hwphase hwroster hwlimits hwplan hcols]
    exact congrArg (Retention.triggered · s.image) hwretention
  · have hraised : (t.notices.get q).waiting.get Category.trip.code = true := by
      refine hfirst.tells_cause (State.breaches_notice hb) ?_
      change ((w.notices.get q).enabled).get Category.trip.code = true
      rw [hnotices, State.newsOf_enabled]
      exact he
    change (k.notices.get q).waiting.get Category.trip.code = true
    rcases htold with h | h
    · rw [h]
      exact hraised
    · rw [h, State.noticesWith, Table.get_map]
      exact NoticeState.raised_keeps_pending _ hraised

/-- The POLL exchange with drop 1 of a line. -/
def firstPoll : Exchange :=
  { drop := 0, kind := .poll, toggle := false, page := 3 }

/-- A report of height 0. -/
def groundReport : Report :=
  { page := 3, height := 0, load := 2000, flags := DriveFlags.clear, data := 0 }

/-- A group in HOLDING whose first column has its contact height at 1,000, with its drop in an exchange. -/
def holdingAboveGround : State :=
  { State.reset with
    power := .running
    phase := .holding
    roster := { Roster.empty with entries := Roster.empty.entries.set 0 (some { seg := 0, drop := 0, serial := some 1 }) }
    segs := State.reset.segs.set 0 { Segment.initial with
      inFlight := some firstPoll
      drops := Segment.initial.drops.set 0 { Drop.initial with link := .enrolled } }
    cols := State.reset.cols.set 0 { Column.empty with
      link := .enrolled
      cap := { serial := some 1, stroke := some 36000, rated := some 9000, maxSpeed := some 200 }
      contact := some 1000 } }

theorem holdingAboveGround_follows : holdingAboveGround.follows 0 firstPoll groundReport 0 1000 200 9000 where
  running := rfl
  inFlight := rfl
  mapped := by decide +kernel
  height := by decide
  load := by decide
  enrolled := rfl
  contact := rfl
  maxSpeed := rfl
  rated := rfl
  noFault := rfl

/-- Its lag of 1,000 at height 0 is beyond L_trip. -/
theorem holdingAboveGround_breaches : holdingAboveGround.breaches 0 groundReport 1000 9000 .lag 1000 0 :=
  ⟨by decide +kernel, rfl, by decide +kernel⟩

/-- Refutes O52: its clause on rel takes the contact height from the stored height in natural numbers, before the result is read as a
whole number, so that it is never below 0. A column that reports a height of 0 over a contact height of 1,000 breaches the lag check,
and its rel is -1,000 (R120), where the statement has 0. With the difference in whole numbers the statement is
`State.follows.stopsAtBreach`. -/
theorem not_breachStops : ¬ Obligations.BreachStops := by
  unfold Obligations.BreachStops
  intro h
  have hphase : holdingAboveGround.phase ∈ [Phase.lifting, .lowering, .dwell, .holding] := by decide
  have hmin : ∀ c n j, holdingAboveGround.breaches 0 groundReport 1000 9000 c n j → StopCause.lag.code ≤ c.code := fun c n j hb => by
    cases c with
    | lag | carSpread | articulation | overload | loadLost | driveLimit => decide
    | _ => exact hb.elim
  obtain ⟨t, hexec, -, -, -, -, -, -, hrel, -⟩ :=
    h _ _ _ _ _ _ _ _ holdingAboveGround_follows hphase _ _ _ holdingAboveGround_breaches hmin
  obtain ⟨u, hexec', -, -, -, -, -, -, hrel', -⟩ :=
    holdingAboveGround_follows.stopsAtBreach hphase holdingAboveGround_breaches hmin
  cases Host.Outcome.next.inj (hexec.symm.trans hexec')
  exact absurd (hrel.symm.trans hrel') (by decide)

end Sys2Proof.Machine

/-! O50, O51 and O54: a tracked arrival that no check stops, in a leg and at rest, and the load shares. -/

namespace Sys2Proof.Machine

set_option Elab.async false

/-! ### The demand of a tracked arrival (R126, R127) -/

/-- Between `s` and `t` the demand of position `p` has been written, with the end of its jog and the write of that. -/
structure State.demandsAt (s t : State) (p : Pos) : Prop where
  column : { t.col p with demand := (s.col p).demand, jog := (s.col p).jog } = s.col p
  cols : ∀ y, y ≠ p → t.col y = s.col y
  kept : { t with cols := s.cols, retention := s.retention } = s

theorem State.setDemand_demandsAt (s : State) (p : Pos) (v : Int) : s.demandsAt (s.setDemand p v) p where
  column := by
    unfold State.setDemand
    rw [State.col_modCol_self]
  cols y hy := State.col_modCol_of_ne _ _ hy
  kept := rfl

theorem State.trigger_kept (s : State) : { s.trigger with retention := s.retention } = s := by
  unfold State.trigger
  split
  · split <;> rfl
  · rfl
  · rfl

theorem State.endJog_demandsAt (s : State) (p : Pos) : s.demandsAt (s.endJog p) p := by
  let u := s.modCol p fun c => { c with jog := false, demand := 0 }
  have hend : s.endJog p = if u.anyJog then u else u.trigger := rfl
  have hcols : (s.endJog p).cols = u.cols := by
    rw [hend]
    split
    · rfl
    · exact (congrArg State.cols u.trigger_kept :)
  have hself : (s.endJog p).col p = { s.col p with jog := false, demand := 0 } :=
    (State.col_congr hcols p).trans (State.col_modCol_self _ _ _)
  refine ⟨by rw [hself], fun y hy => (State.col_congr hcols y).trans (State.col_modCol_of_ne _ _ hy), ?_⟩
  rw [hend]
  split
  · rfl
  · exact (congrArg (fun v : State => { v with cols := s.cols }) u.trigger_kept :)

theorem State.trackedDemand_demandsAt (s : State) (p : Pos) (n : Nat) (e : Int) : s.demandsAt (s.trackedDemand p n e) p := by
  unfold State.trackedDemand
  split
  · exact s.setDemand_demandsAt p _
  · exact s.setDemand_demandsAt p _
  · split
    · split
      · exact s.endJog_demandsAt p
      · exact s.setDemand_demandsAt p _
    · exact s.setDemand_demandsAt p _
  all_goals exact s.setDemand_demandsAt p _

/-! ### A tracked arrival that no check stops (R121 to R124) -/

section
variable {s w d v : State} {g : SegId} {x : Exchange} {r : Report} {p : Pos} {contact maxSpeed rated : Nat}

/-- The work of a tracked arrival without a breach: the assessment, the demand and the shares. -/
theorem State.tells.calm_work (h : s.tells w g x r p false) (hk : (s.col p).contact = some contact)
    (hrated : (w.col p).cap.rated = some rated) (hph : s.phase.isTracked = true)
    (hcalm : ∀ c n k, ¬ s.breaches p r contact rated c n k) : w.trackingWork p =
      (let d := (w.assessed p (s.lagAt p r contact)).trackedDemand p s.ref.vEff (s.lagAt p r contact)
      if s.phase.evaluatesShares then d.evaluateShares (carOf p) else d) := by
  obtain ⟨-, hwphase, hwref, -⟩ := h.fields
  have hposes := h.poses hk hrated (s.lagAt p r contact)
  have hnil : (w.assessed p (s.lagAt p r contact)).groupChecks s.phase p (s.lagAt p r contact) = [] :=
    List.eq_nil_iff_forall_not_mem.mpr fun a ha => by
      obtain ⟨c, n, k, hb, -⟩ := (hposes.mem_groupChecks hph).mp ha
      exact hcalm c n k hb
  have hwork := State.trackingWork_tracked (w := w) (p := p) (by rw [hwphase]; exact hph) (h.withRel_rel hk) h.lag
  rw [hwphase, hnil, hwref] at hwork
  exact hwork

/-- The column of the arrival after the whole work, but for its demand, its jog and its share flag. -/
theorem State.tracked_column (hd : (w.assessed p (s.lagAt p r contact)).demandsAt d p) (hv : d.sharesOut v) :
    { v.col p with share := (w.col p).share, demand := (w.col p).demand, jog := (w.col p).jog } =
      (w.col p).assessed w.phase w.ref.dir (w.limit .wAdv) (w.limit .wDone) (s.lagAt p r contact) := by
  have h1 := (congrArg (fun c : Column => { c with share := (w.col p).share, demand := (w.col p).demand, jog := (w.col p).jog })
    (hv.cols p) :)
  have h2 := (congrArg (fun c : Column => { c with share := (w.col p).share, demand := (w.col p).demand, jog := (w.col p).jog })
    hd.column :)
  refine h1.trans (h2.trans ?_)
  rw [State.col_assessed, if_pos rfl]
  rfl

theorem State.tracked_cols (hd : (w.assessed p (s.lagAt p r contact)).demandsAt d p) (hv : d.sharesOut v) {y : Pos} (hy : y ≠ p) :
    { v.col y with share := (w.col y).share } = w.col y := by
  have h1 := (congrArg (fun c : Column => { c with share := (w.col y).share }) (hv.cols y) :)
  refine h1.trans ?_
  rw [hd.cols y hy, State.col_assessed, if_neg hy]

/-- The two counts after an assessment, by the difference (R124). -/
theorem State.assessed_counts (s : State) (p : Pos) (e : Int) :
    (s.assessed p e).holdCount = s.holdCount + (decide (classOf s.phase s.ref.dir (s.limit .wAdv) e = .lag)).toNat -
      (decide ((s.col p).cls = .lag)).toNat ∧
    (s.assessed p e).outCount = s.outCount + (outOfPosition (s.limit .wDone) e).toNat - (s.col p).mark.toNat := by
  have hself : ((s.modCol p Column.withRel).col p).cls = (s.col p).cls ∧ ((s.modCol p Column.withRel).col p).mark = (s.col p).mark := by
    rw [State.col_modCol_self]
    exact ⟨rfl, rfl⟩
  rw [← hself.1, ← hself.2]
  exact ⟨rfl, rfl⟩

/-- What the work of an arrival without a breach makes of the tracking fields (R120 to R124, R131). -/
theorem State.tells.classifies (h : s.tells w g x r p false) (hcounts : s.countsWell) (hk : (s.col p).contact = some contact)
    (hd : (w.assessed p (s.lagAt p r contact)).demandsAt d p) (hv : d.sharesOut v) :
    s.classifies v p contact (min r.height 40000) (classOf s.phase s.ref.dir (s.limit .wAdv) (s.lagAt p r contact)) := by
  obtain ⟨-, hwphase, hwref, -, -, hwlimits, -, hwspread, -, -, hwhold, hwout⟩ := h.fields
  obtain ⟨-, -, -, hcontact, hoffset, -⟩ := h.values
  have hcol := State.tracked_column hd hv
  rw [hwphase, hwref, State.limit_congr hwlimits] at hcol
  have hold : (w.col p).cls = (s.col p).cls ∧ (w.col p).mark = (s.col p).mark :=
    ⟨(congrArg Column.cls h.column :), (congrArg Column.mark h.column :)⟩
  have hassessed : v.holdCount = (w.assessed p (s.lagAt p r contact)).holdCount ∧
      v.outCount = (w.assessed p (s.lagAt p r contact)).outCount ∧ v.spread = (w.assessed p (s.lagAt p r contact)).spread :=
    ⟨(congrArg State.holdCount hv.kept :).trans (congrArg State.holdCount hd.kept :),
      (congrArg State.outCount hv.kept :).trans (congrArg State.outCount hd.kept :),
      (congrArg State.spread hv.kept :).trans (congrArg State.spread hd.kept :)⟩
  obtain ⟨hvhold, hvout, hvspread⟩ := hassessed
  obtain ⟨hsh, hso⟩ := hcounts
  have hmark : (v.col p).mark = decide (s.limit .wDone < (s.lagAt p r contact).natAbs) := (congrArg Column.mark hcol :)
  refine ⟨?_, (congrArg Column.lag hcol :), (congrArg Column.cls hcol :), hmark, ⟨?_, ?_⟩, ?_, ?_, fun n => ?_, fun c hc => ?_,
    fun y hy => ?_⟩
  · exact (congrArg Column.rel hcol :).trans (h.withRel_rel hk)
  · exact (congrArg Column.contact hcol :).trans (hcontact.trans hk)
  · exact (congrArg Column.offset hcol :).trans hoffset
  · have hset := s.cols.count_set p { s.col p with cls := classOf s.phase s.ref.dir (s.limit .wAdv) (s.lagAt p r contact) }
      fun c => decide (c.cls = .lag)
    rw [hvhold, w.assessed_counts _ _ |>.1, hwhold, hwphase, hwref, State.limit_congr hwlimits, hold.1]
    change _ + (decide ((s.col p).cls = .lag)).toNat = _ + (decide (classOf _ _ _ _ = .lag)).toNat at hset
    omega
  · have hset := s.cols.count_set p { s.col p with mark := outOfPosition (s.limit .wDone) (s.lagAt p r contact) } fun c => c.mark
    rw [hvout, w.assessed_counts _ _ |>.2, hwout, State.limit_congr hwlimits, hold.2, hmark]
    change _ + (s.col p).mark.toNat = _ + (outOfPosition _ _).toNat at hset
    change _ + (outOfPosition _ _).toNat - _ + _ = _ + (outOfPosition _ _).toNat
    omega
  · rw [hvspread, State.assessed_spread, if_pos rfl, State.spreadNow_eq_some, (h.poses_rels hk _)]
  · rw [hvspread, State.assessed_spread, if_neg hc, hwspread]
  · refine (congrArg (fun c : Column => { c with share := (s.col y).share, creep := (s.col y).creep })
      (State.tracked_cols hd hv hy) :).trans ?_
    exact (congrArg (fun c : Column => { c with share := (s.col y).share }) (h.cols y hy) :)

/-- The lines and the creep baselines after the work of an arrival without a breach (R36, R38). -/
theorem State.tells.calm_told (h : s.tells w g x r p false) (hd : (w.assessed p (s.lagAt p r contact)).demandsAt d p)
    (hv : d.sharesOut v) : s.isTold v g x r p false := by
  have hsegs : v.segs = w.segs := (congrArg State.segs hv.kept :).trans (congrArg State.segs hd.kept :)
  have hcreep : v.lastCreep = w.lastCreep := (congrArg State.lastCreep hv.kept :).trans (congrArg State.lastCreep hd.kept :)
  refine h.told.congr hcreep hsegs fun y => ?_
  by_cases hy : y = p
  · subst hy
    exact (congrArg Column.creep (State.tracked_column hd hv) :)
  · exact (congrArg Column.creep (State.tracked_cols hd hv hy) :)

/-- The other fields after the work of an arrival without a breach. -/
theorem State.tells.calm_kept (h : s.tells w g x r p false) (hd : (w.assessed p (s.lagAt p r contact)).demandsAt d p)
    (hv : d.sharesOut v) :
    { v with segs := s.segs, cols := s.cols, notices := s.notices, holdCount := s.holdCount, outCount := s.outCount,
             spread := s.spread, lastCreep := s.lastCreep, retention := s.retention } = s := by
  have hwatches : w.watches = s.watches := h.watches
  let restore := fun u : State =>
    { u with segs := s.segs, cols := s.cols, notices := s.notices, holdCount := s.holdCount, outCount := s.outCount,
             spread := s.spread, lastCreep := s.lastCreep, retention := s.retention }
  let recount := fun u : State =>
    { u with watches := w.watches, holdCount := s.holdCount, outCount := s.outCount, spread := s.spread, retention := s.retention }
  have h1 := congrArg restore hv.kept
  have h2 := congrArg restore hd.kept
  have h3 : recount { w with segs := s.segs, cols := s.cols, notices := s.notices, watches := s.watches, lastCreep := s.lastCreep } =
      recount s := congrArg recount h.kept
  have h4 : recount s = s := by
    rw [show recount s = { s with watches := w.watches } from rfl, hwatches]
  exact h1.trans (h2.trans (h3.trans h4))

end

/-! ### O50 and O51 -/

/-- The classification in a leg, by the lag along the direction of the leg (R123). -/
theorem classOf_leg {ph : Phase} (hph : ph = .lifting ∨ ph = .lowering) (d : Direction) (wAdv : Nat) {e along : Int}
    (hup : d = .up → along = e) (hdown : d = .down → along = -e) : classOf ph d wAdv e =
      if (wAdv : Int) < along then .lag else if (wAdv : Int) < -along then .ahead else .inPosition := by
  have hsign : d.sign * e = along := by
    cases d with
    | up => rw [hup rfl, Direction.sign, one_mul]
    | down => rw [hdown rfl, Direction.sign, neg_one_mul]
  rw [← hsign]
  rcases hph with rfl | rfl <;> rfl

theorem lowering_clamp (m : Nat) (x : Int) : clampInt (-(m : Int)) 0 x = max (-(m : Int)) (min 0 x) :=
  clampInt_eq _ _ _ (by omega)

/-- Settles O50: the tracked arrival of a leg. -/
theorem trackedArrival : Obligations.TrackedArrival := by
  unfold Obligations.TrackedArrival
  intro s g x r p contact maxSpeed rated hcounts hfollows hleg hcalm
  have hears := hfollows.tohears
  obtain ⟨htells, hnotices⟩ := hears.tells_enrolled hfollows.enrolled
  have harrival := hfollows.statusArrival
  generalize s.heardFrom g x r p = w at htells harrival hnotices
  have hcap := (htells.still hfollows.enrolled).2
  have hph : s.phase.isTracked = true := (s.phase.isTracked_iff).mpr (hleg.imp_right .inl)
  have hwork := htells.calm_work hfollows.contact (by rw [hcap]; exact hfollows.rated) hph hcalm
  obtain ⟨-, hwphase, -, -, -, hwlimits, -, -, hwretention, -⟩ := htells.fields
  have hspeed : ((w.assessed p (s.lagAt p r contact)).col p).speedBound = maxSpeed := by
    rw [State.col_assessed, if_pos rfl]
    change (w.col p).cap.maxSpeed.getD 0 = maxSpeed
    rw [hcap, hfollows.maxSpeed]
    rfl
  have hlimit : (w.assessed p (s.lagAt p r contact)).limit = s.limit := State.limit_congr hwlimits
  have haphase : (w.assessed p (s.lagAt p r contact)).phase = s.phase := hwphase
  have haretention : (w.assessed p (s.lagAt p r contact)).retention = s.retention := hwretention
  have hdemands := State.trackedDemand_demandsAt (w.assessed p (s.lagAt p r contact)) p s.ref.vEff (s.lagAt p r contact)
  have hvalue : ∃ v, (w.assessed p (s.lagAt p r contact)).trackedDemand p s.ref.vEff (s.lagAt p r contact) =
      (w.assessed p (s.lagAt p r contact)).setDemand p v ∧ v = if s.phase = .lifting
        then max 0 (min (maxSpeed : Int) ((s.ref.vEff : Int) + correction (s.limit .kp) (s.lagAt p r contact)))
        else max (-(maxSpeed : Int)) (min 0 (-(s.ref.vEff : Int) + correction (s.limit .kp) (s.lagAt p r contact))) := by
    unfold State.trackedDemand
    rw [haphase, hspeed, hlimit]
    rcases hleg with h | h
    · rw [h]
      exact ⟨_, rfl, (clampInt_eq _ _ _ (by omega)).trans (if_pos rfl).symm⟩
    · rw [h]
      exact ⟨_, rfl, (lowering_clamp _ _).trans (if_neg (by decide)).symm⟩
  obtain ⟨v, hset, hv⟩ := hvalue
  have hretention : ((w.assessed p (s.lagAt p r contact)).trackedDemand p s.ref.vEff (s.lagAt p r contact)).retention = s.retention := by
    rw [hset]
    exact haretention
  have hdemand : (((w.assessed p (s.lagAt p r contact)).trackedDemand p s.ref.vEff (s.lagAt p r contact)).col p).demand = v := by
    rw [hset, State.setDemand, State.col_modCol_self]
  generalize (w.assessed p (s.lagAt p r contact)).trackedDemand p s.ref.vEff (s.lagAt p r contact) = d at hwork hdemands hretention hdemand
  have hshares : d.sharesOut (w.trackingWork p) := by
    rw [hwork]
    dsimp only
    split
    · exact d.evaluateShares_sharesOut _
    · exact .refl d
  have hlow : s.phase = .lowering → w.trackingWork p = d := fun h => by
    rw [hwork, h]
    rfl
  generalize w.trackingWork p = u at hshares harrival hlow
  have hdnotices : d.notices = w.notices := (congrArg State.notices hdemands.kept :)
  refine ⟨_, u, congrArg Host.Outcome.next harrival, rfl, ?_⟩
  intro e along cor
  refine ⟨?_, ?_, fun h y => ?_, htells.calm_told hdemands hshares, ?_, ?_⟩
  · have hclass := htells.classifies hcounts hfollows.contact hdemands hshares
    rw [classOf_leg hleg s.ref.dir (s.limit .wAdv) (along := along) (fun h => by simp only [along, h]; rfl)
      (fun h => by simp only [along, h]; rfl)] at hclass
    exact hclass
  · refine (congrArg Column.demand (hshares.cols p) :).trans (hdemand.trans ?_)
    exact hv
  · rw [hlow h]
    by_cases hy : y = p
    · subst hy
      have h1 := (congrArg Column.share hdemands.column :)
      rw [State.col_assessed, if_pos rfl] at h1
      exact h1.trans (congrArg Column.share htells.column :)
    · rw [hdemands.cols y hy, State.col_assessed, if_neg hy]
      exact (congrArg Column.share (htells.cols y hy) :)
  · intro news
    rcases hshares.notices with h | h
    · exact .inl (h.trans (hdnotices.trans hnotices))
    · rcases hleg with hl | hl
      · refine .inr ⟨hl, h.trans ?_⟩
        rw [State.noticesWith, hdnotices, hnotices]
      · left
        rw [hlow hl]
        exact hdnotices.trans hnotices
  · have huretention : u.retention = s.retention := (congrArg State.retention hshares.kept :).trans hretention
    have hkept := htells.calm_kept hdemands hshares
    rw [← huretention] at hkept
    exact hkept

theorem State.anyJog_iff {s : State} : s.anyJog = true ↔ ∃ y, (s.col y).jog = true := by
  unfold State.anyJog
  simp only [List.any_eq_true, Table.mem_rows]
  constructor
  · rintro ⟨c, ⟨y, rfl⟩, h⟩
    exact ⟨y, h⟩
  · rintro ⟨y, h⟩
    exact ⟨_, ⟨y, rfl⟩, h⟩

/-- The end of a jog, whole: demand 0, and the write where it was the last one (R139). -/
theorem State.endJog_spec {s : State} (hp : s.power = .running) (p : Pos) :
    ((s.endJog p).col p).jog = false ∧ ((s.endJog p).col p).demand = 0 ∧
    ((∃ y, y ≠ p ∧ (s.col y).jog = true) → (s.endJog p).retention = s.retention) ∧
    ((¬ ∃ y, y ≠ p ∧ (s.col y).jog = true) → (s.endJog p).retention = s.retention.triggered s.image) := by
  let u := s.modCol p fun c => { c with jog := false, demand := 0 }
  have hself : u.col p = { s.col p with jog := false, demand := 0 } := State.col_modCol_self _ _ _
  have hother : ∀ y, y ≠ p → u.col y = s.col y := fun y hy => State.col_modCol_of_ne _ _ hy
  have hany : u.anyJog = true ↔ ∃ y, y ≠ p ∧ (s.col y).jog = true := by
    rw [State.anyJog_iff]
    refine exists_congr fun y => ?_
    by_cases hy : y = p
    · subst hy
      rw [hself]
      simp
    · rw [hother y hy]
      simp [hy]
  have himage : u.image = s.image := by
    refine State.image_congr rfl rfl rfl (fun y => ?_) (fun y => ?_) rfl rfl
    · by_cases hy : y = p
      · subst hy
        rw [hself]
      · rw [hother y hy]
    · by_cases hy : y = p
      · subst hy
        rw [hself]
      · rw [hother y hy]
  have hend : s.endJog p = if u.anyJog = true then u else u.trigger := rfl
  have htrigger : u.trigger = { u with retention := s.retention.triggered s.image } := by
    rw [State.trigger_running u hp, himage]
    rfl
  rw [hend, htrigger]
  by_cases h : u.anyJog = true
  · rw [if_pos h, hself]
    exact ⟨rfl, rfl, fun _ => rfl, fun hno => absurd (hany.mp h) hno⟩
  · rw [if_neg h]
    change (u.col p).jog = false ∧ (u.col p).demand = 0 ∧ _
    rw [hself]
    exact ⟨rfl, rfl, fun hyes => absurd (hany.mpr hyes) h, fun _ => rfl⟩

/-- The classification at rest, by the magnitude of the lag (R123). -/
theorem classOf_held {ph : Phase} (hph : ph = .dwell ∨ ph = .holding) (d : Direction) (wAdv : Nat) (e : Int) :
    classOf ph d wAdv e = if wAdv < e.natAbs then .lag else .inPosition := by
  rcases hph with rfl | rfl <;> rfl

/-- The demand of DWELL and HOLDING (R126, R127). -/
theorem State.trackedDemand_held {a : State} {p : Pos} {n : Nat} {e : Int} (hph : a.phase = .dwell ∨ a.phase = .holding) :
    (¬ (a.phase = .holding ∧ (a.col p).jog = true) → a.trackedDemand p n e = a.setDemand p 0) ∧
    (a.phase = .holding → (a.col p).jog = true → e.natAbs ≤ a.limit .wDone → a.trackedDemand p n e = a.endJog p) ∧
    (a.phase = .holding → (a.col p).jog = true → a.limit .wDone < e.natAbs →
      a.trackedDemand p n e = a.setDemand p (jogDemand (a.limit .vApp) (a.limit .kp) (a.col p).speedBound e)) := by
  unfold State.trackedDemand
  rcases hph with h | h
  · rw [h]
    exact ⟨fun _ => rfl, nofun, nofun⟩
  · rw [h]
    refine ⟨fun hno => if_neg fun hj => hno ⟨rfl, hj⟩, fun _ hj hle => ?_, fun _ hj hlt => ?_⟩
    · exact (if_pos hj).trans (if_pos hle)
    · exact (if_pos hj).trans (if_neg (Nat.not_le.mpr hlt))

theorem jogDemand_eq (vApp kp maxSpeed : Nat) (e : Int) : jogDemand vApp kp maxSpeed e =
    max (-((min vApp maxSpeed : Nat) : Int)) (min ((min vApp maxSpeed : Nat) : Int) (((kp : Int) * e).tdiv 16)) :=
  clampInt_eq _ _ _ (by omega)

/-- Settles O51: the tracked arrival at rest, with the end of a jog. -/
theorem heldArrival : Obligations.HeldArrival := by
  unfold Obligations.HeldArrival
  intro s g x r p contact maxSpeed rated hcounts hfollows hheld hcalm
  have hears := hfollows.tohears
  obtain ⟨htells, hnotices⟩ := hears.tells_enrolled hfollows.enrolled
  have harrival := hfollows.statusArrival
  generalize s.heardFrom g x r p = w at htells harrival hnotices
  have hcap := (htells.still hfollows.enrolled).2
  have hph : s.phase.isTracked = true := (s.phase.isTracked_iff).mpr (.inr (.inr hheld))
  have hwork := htells.calm_work hfollows.contact (by rw [hcap]; exact hfollows.rated) hph hcalm
  obtain ⟨hwpower, hwphase, -, hwplan, -, hwlimits, hwroster, -, hwretention, -⟩ := htells.fields
  have hshape := State.trackedDemand_held (a := w.assessed p (s.lagAt p r contact)) (p := p) (n := s.ref.vEff)
    (e := s.lagAt p r contact) (by rw [← hwphase] at hheld; exact hheld)
  have hdemands := State.trackedDemand_demandsAt (w.assessed p (s.lagAt p r contact)) p s.ref.vEff (s.lagAt p r contact)
  have hend := State.endJog_spec (s := w.assessed p (s.lagAt p r contact)) (hwpower.trans hears.running) p
  have hself := (w.col_assessed p p (s.lagAt p r contact)).trans (if_pos rfl)
  have hother : ∀ y, y ≠ p → (w.assessed p (s.lagAt p r contact)).col y = w.col y := fun y hy => (w.col_assessed p y _).trans (if_neg hy)
  have hspeed : ((w.assessed p (s.lagAt p r contact)).col p).speedBound = maxSpeed := by
    rw [hself]
    change (w.col p).cap.maxSpeed.getD 0 = maxSpeed
    rw [hcap, hfollows.maxSpeed]
    rfl
  have hjog : ((w.assessed p (s.lagAt p r contact)).col p).jog = (s.col p).jog := by
    rw [hself]
    exact (congrArg Column.jog htells.column :)
  have hjogs : (∃ y, y ≠ p ∧ ((w.assessed p (s.lagAt p r contact)).col y).jog = true) ↔ ∃ y, y ≠ p ∧ (s.col y).jog = true :=
    exists_congr fun y => and_congr_right fun hy => by
      rw [hother y hy, show (w.col y).jog = (s.col y).jog from (congrArg Column.jog (htells.cols y hy) :)]
  have himage : (w.assessed p (s.lagAt p r contact)).image = s.image := by
    refine State.image_congr hwroster hwlimits hwplan (fun y => ?_) (fun y => ?_) ?_ hwphase
    · by_cases hy : y = p
      · subst hy
        rw [hself]
        exact (congrArg Column.contact htells.column :)
      · rw [hother y hy]
        exact (congrArg Column.contact (htells.cols y hy) :)
    · by_cases hy : y = p
      · subst hy
        rw [hself]
        exact (congrArg Column.offset htells.column :)
      · rw [hother y hy]
        exact (congrArg Column.offset (htells.cols y hy) :)
    · have hne : s.phase ≠ .stopped := fun h => by
        rw [h] at hph
        cases hph
      have hane : (w.assessed p (s.lagAt p r contact)).phase ≠ .stopped := fun h => hne (hwphase.symm.trans h)
      rw [State.imagePhase_of_ne hne, State.imagePhase_of_ne hane]
      exact hwphase
  have hlimit : (w.assessed p (s.lagAt p r contact)).limit = s.limit := State.limit_congr hwlimits
  have haphase : (w.assessed p (s.lagAt p r contact)).phase = s.phase := hwphase
  have haretention : (w.assessed p (s.lagAt p r contact)).retention = s.retention := hwretention
  rw [haphase, hjog, hlimit, hspeed] at hshape
  rw [hjogs, himage, haretention] at hend
  generalize hd : (w.assessed p (s.lagAt p r contact)).trackedDemand p s.ref.vEff (s.lagAt p r contact) = d at hwork hdemands hshape
  have hshares : d.sharesOut (w.trackingWork p) := by
    rw [hwork]
    dsimp only
    split
    · exact d.evaluateShares_sharesOut _
    · exact .refl d
  generalize w.trackingWork p = u at hshares harrival
  have hdnotices : d.notices = w.notices := (congrArg State.notices hdemands.kept :)
  have huphase : u.phase = s.phase :=
    (congrArg State.phase hshares.kept :).trans ((congrArg State.phase hdemands.kept :).trans haphase)
  have hdone : u.testCompletion = u := State.testCompletion_of_not (by
    unfold State.legComplete
    rw [huphase]
    rcases hheld with h | h <;> rw [h] <;> rfl)
  rw [hdone] at harrival
  have hudemand : (u.col p).demand = (d.col p).demand ∧ (u.col p).jog = (d.col p).jog ∧ u.retention = d.retention :=
    ⟨(congrArg Column.demand (hshares.cols p) :), (congrArg Column.jog (hshares.cols p) :), (congrArg State.retention hshares.kept :)⟩
  obtain ⟨hudem, hujog, huret⟩ := hudemand
  have hsetdemand : ∀ v, d = (w.assessed p (s.lagAt p r contact)).setDemand p v →
      (d.col p).demand = v ∧ (d.col p).jog = (s.col p).jog ∧ d.retention = s.retention := fun v h => by
    rw [h]
    refine ⟨?_, ?_, haretention⟩
    · rw [State.setDemand, State.col_modCol_self]
    · rw [State.setDemand, State.col_modCol_self]
      exact hjog
  obtain ⟨hplain, hends, hjogging⟩ := hshape
  refine ⟨_, u, congrArg Host.Outcome.next harrival, rfl, ?_⟩
  intro e bound jogged
  rw [hudem, hujog, huret]
  refine ⟨?_, fun hno => ?_, fun ⟨hhold, hj⟩ hlt => ?_, fun ⟨hhold, hj⟩ hle => ?_, htells.calm_told hdemands hshares, ?_,
    htells.calm_kept hdemands hshares⟩
  · have hclass := htells.classifies hcounts hfollows.contact hdemands hshares
    rw [classOf_held hheld] at hclass
    exact hclass
  · exact hsetdemand 0 (hplain hno)
  · obtain ⟨hdem, hjg, hret⟩ := hsetdemand _ (hjogging hhold hj hlt)
    refine ⟨hjg.trans hj, hret, hdem.trans ?_⟩
    exact jogDemand_eq _ _ _ _
  · obtain ⟨hjg, hdem, hothers, hlast⟩ := hend
    rw [hends hhold hj hle]
    refine ⟨hjg, hdem, ?_⟩
    by_cases hothers' : ∃ y, y ≠ p ∧ (s.col y).jog = true
    · rw [if_pos hothers']
      exact hothers hothers'
    · rw [if_neg hothers']
      exact hlast hothers'
  · intro news
    rcases hshares.notices with h | h
    · exact .inl (h.trans (hdnotices.trans hnotices))
    · refine .inr (h.trans ?_)
      rw [State.noticesWith, hdnotices, hnotices]

end Sys2Proof.Machine

/-! O54: the load shares at an arrival. -/

namespace Sys2Proof.Machine

set_option Elab.async false

section
variable {s w : State} {g : SegId} {x : Exchange} {r : Report} {p : Pos} {contact maxSpeed rated : Nat}

/-- The load of each position once the report of `p` is stored (R15). -/
def State.loadsWith (s : State) (p : Pos) (r : Report) (y : Pos) : Option Nat :=
  if y = p then some (min r.load 60000) else (s.col y).load

theorem State.carLoad_eq_some {d : State} {k : CarId} {loads : Pos → Option Nat} {a b c e : Nat} (h : ∀ y, (d.col y).load = loads y)
    (ha : loads (posOf k 0) = some a) (hb : loads (posOf k 1) = some b) (hc : loads (posOf k 2) = some c)
    (he : loads (posOf k 3) = some e) : d.carLoad k = some (a + b + c + e) := by
  unfold State.carLoad
  rw [h, h, h, h, ha, hb, hc, he]

theorem State.carLoad_eq_none {d : State} {k : CarId} {loads : Pos → Option Nat} (h : ∀ y, (d.col y).load = loads y) {i : Fin 4}
    (hi : loads (posOf k i) = none) : d.carLoad k = none := by
  unfold State.carLoad
  rw [h, h, h, h]
  split
  · next h0 h1 h2 h3 =>
    fin_cases i
    · exact absurd (hi.symm.trans h0) nofun
    · exact absurd (hi.symm.trans h1) nofun
    · exact absurd (hi.symm.trans h2) nofun
    · exact absurd (hi.symm.trans h3) nofun
  · rfl

/-- The share flag with its hysteresis of 2 points (R137). -/
theorem shareFlag_spec (least most share : Nat) : (shareFlag false least most share = true ↔ share < least ∨ most < share) ∧
    (shareFlag true least most share = false ↔ least + 2 ≤ share ∧ share + 2 ≤ most) := by
  unfold shareFlag
  constructor
  · rw [if_neg (by decide), Bool.or_eq_true, decide_eq_true_iff, decide_eq_true_iff]
  · rw [if_pos rfl, Bool.not_eq_false', Bool.and_eq_true, decide_eq_true_iff, decide_eq_true_iff]

/-- The state in which the shares of an arrival are evaluated, in a tracked phase (R136). -/
def State.weighed (w : State) (p : Pos) (e : Int) : State :=
  ((w.assessed p e).offerAll ((w.assessed p e).groupChecks w.phase p e)).trackedDemand p w.ref.vEff e

theorem State.weighed_respects (w : State) (p : Pos) (e : Int) : w.respects (w.weighed p e) True := by
  have hassessed : w.respects (w.assessed p e) True := (((State.respects.refl w).withRel p).classify p _ _ _).writeSpread _
  exact (hassessed.offerAll _).trackedDemand p _ _

theorem State.weighed_limits (w : State) (p : Pos) (e : Int) : (w.weighed p e).limits = w.limits := by
  have hdesk : (w.weighed p e).desk = w.desk := by
    unfold State.weighed State.assessed
    simp
  exact State.limits_of_desk hdesk

/-- What the report tells leaves the notice of the shares (R137). -/
theorem agreeOn_newsOf_loadShare (s : State) (p : Pos) (r : Report) (crept : Bool) :
    agreeOn .loadShare (s.newsOf p r crept s.notices) s.notices := by
  have htold : ∀ (b : Bool) (k : Category) {n : Table NoticeState 4}, Category.loadShare.code ≠ k.code → agreeOn .loadShare n s.notices →
      agreeOn .loadShare (if b = true then n.map (NoticeState.raised k) else n) s.notices := fun b k n hk h => by
    split
    · intro q
      rw [Table.get_map, NoticeState.raised_enabled, State.respects.waiting_raised hk]
      exact h q
    · exact h
  unfold State.newsOf
  exact htold _ _ (by decide) (htold _ _ (by decide) (htold _ _ (by decide) (.refl _ _)))

end

/-- A raise of a category makes it pending where it is enabled, and leaves it elsewhere (R175). -/
theorem NoticeState.raised_waiting_self (n : NoticeState) (c : Category) :
    (n.raised c).waiting.get c.code = true ↔ n.waiting.get c.code = true ∨ n.enabled.get c.code = true := by
  unfold NoticeState.raised
  by_cases h : n.enabled.get c.code = true
  · rw [if_pos h]
    exact iff_of_true (Table.get_set_self _ _ _) (.inr h)
  · rw [if_neg h]
    simp [h]

/-- Settles O54: the shares of the arrival's car, in the state after the checks and the demand. -/
theorem loadShares : Obligations.LoadShares := by
  unfold Obligations.LoadShares
  intro s g x r p contact maxSpeed rated hfollows hphase
  have hears := hfollows.tohears
  obtain ⟨htells, hnotices⟩ := hears.tells_enrolled hfollows.enrolled
  have harrival := hfollows.statusArrival
  generalize s.heardFrom g x r p = w at htells harrival hnotices
  obtain ⟨-, hwphase, -, -, -, hwlimits, -⟩ := htells.fields
  obtain ⟨-, hwload, -⟩ := htells.values
  have hph : s.phase.isTracked = true ∧ s.phase.evaluatesShares = true := by
    simp only [List.mem_cons, List.not_mem_nil, or_false] at hphase
    rcases hphase with h | h | h <;> rw [h] <;> exact ⟨rfl, rfl⟩
  have hwork : w.trackingWork p = (w.weighed p (s.lagAt p r contact)).evaluateShares (carOf p) :=
    (State.trackingWork_tracked (w := w) (p := p) (by rw [hwphase]; exact hph.1) (htells.withRel_rel hfollows.contact) htells.lag).trans
      (if_pos (by rw [hwphase]; exact hph.2))
  have hresp := w.weighed_respects p (s.lagAt p r contact)
  have hlimits := (w.weighed_limits p (s.lagAt p r contact)).trans hwlimits
  rw [hwork] at harrival
  generalize w.weighed p (s.lagAt p r contact) = d at hresp hlimits harrival
  have hdone := (State.respects.refl (shared := True) (d.evaluateShares (carOf p))).testCompletion
  obtain ⟨hnone, hlight, hfull⟩ := d.evaluateShares_cases (carOf p)
  generalize hv : d.evaluateShares (carOf p) = v at harrival hdone hnone hlight hfull
  have hdshare : ∀ y, (d.col y).share = (s.col y).share := fun y => by
    rw [hresp.share trivial y]
    by_cases hy : y = p
    · subst hy
      exact (congrArg Column.share htells.column :)
    · exact (congrArg Column.share (htells.cols y hy) :)
  have hdload : ∀ y, (d.col y).load = s.loadsWith p r y := fun y => by
    rw [(hresp.cols y).load]
    unfold State.loadsWith
    by_cases hy : y = p
    · subst hy
      rw [if_pos rfl, hwload]
    · rw [if_neg hy]
      exact (congrArg Column.load (htells.cols y hy) :)
  have hdlimit : d.limit = s.limit := State.limit_congr hlimits
  have hsame : ∀ y, ((v.testCompletion).col y).share = (v.col y).share := hdone.share trivial
  have hall : ∀ y, v = d → ((v.testCompletion).col y).share = (s.col y).share := fun y h => by
    rw [hsame, h, hdshare]
  have hbits : ∀ q, (d.notices.get q).enabled = (s.notices.get q).enabled ∧
      (d.notices.get q).waiting.get Category.loadShare.code = (s.notices.get q).waiting.get Category.loadShare.code := fun q => by
    obtain ⟨he, hw⟩ := agreeOn_newsOf_loadShare s p r (s.creeps g p (min r.height 40000)) q
    rw [← hnotices] at he hw
    exact ⟨(hresp.enabled q).trans he, (hresp.waiting .loadShare q (.inr (.inr (.inr ⟨rfl, trivial⟩)))).trans hw⟩
  have htold : ∀ q, ((v.testCompletion).notices.get q).waiting.get Category.loadShare.code =
      (v.notices.get q).waiting.get Category.loadShare.code := fun q => hdone.waiting .loadShare q (.inr (.inr (.inr ⟨rfl, trivial⟩)))
  refine ⟨_, congrArg Host.Outcome.next harrival, ?_⟩
  change let load := s.loadsWith p r
    let least := s.limit .shareMin
    let most := s.limit .shareMax
    (∀ y, carOf y ≠ carOf p → ((v.testCompletion).col y).share = (s.col y).share) ∧
      (∀ a b c d total : Nat, load (posOf (carOf p) 0) = some a → load (posOf (carOf p) 1) = some b →
        load (posOf (carOf p) 2) = some c → load (posOf (carOf p) 3) = some d → total = a + b + c + d →
        (total < 4 * s.limit .contactLoad → ∀ y, ((v.testCompletion).col y).share = (s.col y).share) ∧
        (4 * s.limit .contactLoad ≤ total → ∀ y l share, carOf y = carOf p → load y = some l → share = l * 100 / total →
          ((s.col y).share = false → (((v.testCompletion).col y).share = true ↔ share < least ∨ most < share)) ∧
          ((s.col y).share = true → (((v.testCompletion).col y).share = false ↔ least + 2 ≤ share ∧ share + 2 ≤ most)))) ∧
      ((∃ i, load (posOf (carOf p) i) = none) → ∀ y, ((v.testCompletion).col y).share = (s.col y).share) ∧
      ∀ q, ((v.testCompletion).notices.get q).waiting.get Category.loadShare.code = true ↔
        (s.notices.get q).waiting.get Category.loadShare.code = true ∨
          (s.notices.get q).enabled.get Category.loadShare.code = true ∧
            ∃ y, (s.col y).share = false ∧ ((v.testCompletion).col y).share = true
  intro load least most
  refine ⟨fun y hy => ?_, fun a b c e total ha hb hc he htotal => ⟨fun hlt y => ?_, fun hle y l share hy hl hshare => ?_⟩,
    fun ⟨i, hi⟩ y => ?_, fun q => ?_⟩
  · cases hcar : d.carLoad (carOf p) with
    | none => exact hall y (hnone hcar)
    | some total =>
      by_cases hlt : total < 4 * d.limit .contactLoad
      · exact hall y (hlight total hcar hlt)
      · rw [hsame, (hfull total hcar (Nat.not_lt.mp hlt)).cols, if_neg (fun h => hy (mem_carPositions.mp h)), hdshare]
  · subst htotal
    exact hall y (hlight _ (State.carLoad_eq_some hdload ha hb hc he) (by rw [hdlimit]; exact hlt))
  · subst htotal
    have hf := hfull _ (State.carLoad_eq_some hdload ha hb hc he) (by rw [hdlimit]; exact hle)
    have hafter : ((v.testCompletion).col y).share = shareFlag (s.col y).share least most share := by
      rw [hsame, hf.cols, if_pos (mem_carPositions.mpr hy)]
      change d.shareAfter _ y = _
      rw [State.shareAfter_of_load ((hdload y).trans hl), hdshare, hdlimit, hshare]
      rfl
    obtain ⟨hclear, hset⟩ := shareFlag_spec least most share
    rw [hafter]
    refine ⟨fun h => ?_, fun h => ?_⟩
    · rw [h]
      exact hclear
    · rw [h]
      exact hset
  · exact hall y (hnone (State.carLoad_eq_none hdload hi))
  · rw [htold]
    obtain ⟨he, hw⟩ := hbits q
    have hunchanged : v = d → ((v.notices.get q).waiting.get Category.loadShare.code = true ↔
        (s.notices.get q).waiting.get Category.loadShare.code = true ∨ (s.notices.get q).enabled.get Category.loadShare.code = true ∧
          ∃ y, (s.col y).share = false ∧ ((v.testCompletion).col y).share = true) := fun h => by
      have hno : ¬ ∃ y, (s.col y).share = false ∧ ((v.testCompletion).col y).share = true := by
        rintro ⟨y, h1, h2⟩
        rw [hall y h, h1] at h2
        cases h2
      have hvd : (v.notices.get q).waiting.get Category.loadShare.code = (s.notices.get q).waiting.get Category.loadShare.code := by
        rw [h]
        exact hw
      rw [hvd]
      exact ⟨.inl, fun h => h.resolve_right fun h => hno h.2⟩
    cases hcar : d.carLoad (carOf p) with
    | none => exact hunchanged (hnone hcar)
    | some total =>
      by_cases hlt : total < 4 * d.limit .contactLoad
      · exact hunchanged (hlight total hcar hlt)
      · have hf := hfull total hcar (Nat.not_lt.mp hlt)
        have hnew : (∃ y ∈ carPositions (carOf p), (d.col y).share = false ∧ d.shareAfter total y = true) ↔
            ∃ y, (s.col y).share = false ∧ ((v.testCompletion).col y).share = true := by
          refine exists_congr fun y => ?_
          rw [hsame, hf.cols, ← hdshare y]
          by_cases hy : y ∈ carPositions (carOf p)
          · rw [if_pos hy]
            exact ⟨fun h => h.2, fun h => ⟨hy, h⟩⟩
          · rw [if_neg hy]
            exact ⟨fun h => absurd h.1 hy, fun ⟨h1, h2⟩ => absurd (h1.symm.trans h2) (by decide)⟩
        have hvn := hf.notices
        simp only [hnew] at hvn
        by_cases hany : ∃ y, (s.col y).share = false ∧ ((v.testCompletion).col y).share = true
        · rw [if_pos hany] at hvn
          rw [hvn, State.noticesWith, Table.get_map, NoticeState.raised_waiting_self, he, hw]
          exact or_congr_right (iff_self_and.mpr fun _ => hany)
        · rw [if_neg hany] at hvn
          rw [hvn, hw]
          exact ⟨.inl, fun h => h.resolve_right fun h => hany h.2⟩

end Sys2Proof.Machine

/-! O55: an arrival in APPROACH and in RETRACTING. -/

namespace Sys2Proof.Machine

set_option Elab.async false

/-! ### A stop at an arrival, and work that takes none (R87, R94) -/

/-- From `w` the stop of cause `c` with value `n` has been taken for position `p`, whose demand is 0. -/
structure State.stopsAs (w u : State) (p : Pos) (c : StopCause) (n : Int) : Prop where
  phase : u.phase = .stopped
  demand : (u.col p).demand = 0
  record : u.stop.record = some { cause := c, pos := some p, car := some (carOf p), value := some n, phase := w.phase, h := w.ref.h,
                                  legIndex := w.plan.index, port := none }

/-- Between `w` and `u` the work of an arrival of `p` has changed its column, the start heights and the counts alone. -/
structure State.worksAt (w u : State) (p : Pos) : Prop where
  phase : u.phase = w.phase
  cols : ∀ y, y ≠ p → u.col y = w.col y
  creep : (u.col p).creep = (w.col p).creep
  kept : { u with cols := w.cols, starts := w.starts, holdCount := w.holdCount, outCount := w.outCount } = w

theorem State.offerStop_stopsAs {w v : State} {p : Pos} {c : StopCause} {n : Int} (hp : v.power = .running) (hne : v.phase ≠ .stopped)
    (hphase : v.phase = w.phase) (href : v.ref = w.ref) (hplan : v.plan = w.plan) :
    w.stopsAs (v.offerStop (columnOffer c p (some n))) p c n := by
  have hfirst := State.firstStop_spec v (columnOffer c p (some n)) hp hne
  rw [State.offerStop_first v _ hp hne]
  refine ⟨hfirst.phase, (hfirst.demands p).1, hfirst.record.trans ?_⟩
  rw [hphase, href, hplan]
  rfl

namespace State.worksAt
variable {w u v : State} {p : Pos}

theorem trans (h : w.worksAt u p) (h' : u.worksAt v p) : w.worksAt v p :=
  ⟨h'.phase.trans h.phase, fun y hy => (h'.cols y hy).trans (h.cols y hy), h'.creep.trans h.creep,
    (congrArg (fun x : State => { x with cols := w.cols, starts := w.starts, holdCount := w.holdCount, outCount := w.outCount })
      h'.kept :).trans h.kept⟩

theorem modCol (w : State) (p : Pos) (f : Column → Column) (hf : (f (w.col p)).creep = (w.col p).creep) : w.worksAt (w.modCol p f) p :=
  ⟨rfl, fun _ hy => State.col_modCol_of_ne _ _ hy, by rw [State.col_modCol_self, hf], rfl⟩

theorem classify (w : State) (p : Pos) (cls : Classification) (m : Bool) (lag : Option Int) :
    w.worksAt (w.classify p cls m lag) p :=
  ⟨rfl, fun _ hy => State.col_modCol_of_ne w _ hy, (congrArg Column.creep (State.col_modCol_self w p _) :), rfl⟩

theorem takeStart (w : State) (p : Pos) : w.worksAt (w.takeStart p) p := by
  unfold State.takeStart
  split
  · exact ⟨rfl, fun _ _ => rfl, rfl, rfl⟩
  · exact ⟨rfl, fun _ _ => rfl, rfl, rfl⟩

end State.worksAt

/-! ### APPROACH (R86 to R92) -/

section
variable {w : State} {p : Pos} {height load rated : Nat}

/-- The state of an arrival in APPROACH before its checks: rel and the start height (R86, R120). -/
def State.readied (w : State) (p : Pos) : State :=
  (w.modCol p Column.withRel).takeStart p

theorem State.readied_spec (w : State) {p : Pos} (hh : (w.col p).height = some height) : w.worksAt (w.readied p) p ∧
    (w.readied p).col p = (w.col p).withRel ∧ (w.readied p).starts.get p = some ((w.starts.get p).getD height) ∧
    (w.readied p).power = w.power ∧ (w.readied p).ref = w.ref ∧ (w.readied p).plan = w.plan ∧ (w.readied p).roster = w.roster ∧
    (w.readied p).limits = w.limits := by
  have hself : (w.modCol p Column.withRel).col p = (w.col p).withRel := State.col_modCol_self _ _ _
  have hheight : ((w.modCol p Column.withRel).col p).height = some height := by
    rw [hself]
    exact hh
  have hstarts : (w.modCol p Column.withRel).starts = w.starts := rfl
  refine ⟨(State.worksAt.modCol w p Column.withRel rfl).trans (.takeStart _ p), ?_⟩
  unfold State.readied State.takeStart
  rw [hstarts]
  cases hs : w.starts.get p with
  | some k => exact ⟨hself, hs, rfl, rfl, rfl, rfl, rfl⟩
  | none =>
    refine ⟨hself, ?_, rfl, rfl, rfl, rfl, rfl⟩
    change (w.starts.set p _).get p = _
    rw [Table.get_set_self, hheight]
    rfl

/-- The work of an arrival in APPROACH: an overload is a stop, and without one the column's own steps follow (R87, R133). -/
theorem State.trackingWork_approach (hp : w.power = .running) (hphase : w.phase = .approach) (hh : (w.col p).height = some height)
    (hl : (w.col p).load = some load) (hr : (w.col p).cap.rated = some rated) :
    (rated < load → w.stopsAs (w.trackingWork p) p .overload load) ∧
    (load ≤ rated → w.trackingWork p = (w.readied p).approachColumn p) := by
  obtain ⟨hworks, hself, -, hpower, href, hplan, -⟩ := w.readied_spec hh
  have hwork : w.trackingWork p = (let u := (w.readied p).offerAll ((w.readied p).overloadCheck p)
      if u.phase = .approach then u.approachColumn p else u) := by
    have hm : (w.modCol p Column.withRel).phase = .approach := hphase
    unfold State.trackingWork
    dsimp only
    rw [hm]
    rfl
  rw [hwork]
  generalize w.readied p = a at hworks hself hpower href hplan
  have haphase : a.phase = .approach := hworks.phase.trans hphase
  constructor
  · intro hlt
    have hstop : w.stopsAs (a.offerStop (columnOffer .overload p (some load))) p .overload load :=
      State.offerStop_stopsAs (hpower.trans hp) (by rw [haphase]; decide) hworks.phase href hplan
    rw [State.overloadCheck_eq (s := a) (by rw [hself]; exact hr) (by rw [hself]; exact hl) hlt]
    change w.stopsAs (if (a.offerStop _).phase = .approach then (a.offerStop _).approachColumn p else a.offerStop _) p _ _
    rw [if_neg (by rw [hstop.phase]; decide)]
    exact hstop
  · intro hle
    have hno : ¬ a.isOverloaded p := by
      rintro ⟨rated', load', hr', hl', hlt⟩
      rw [hself] at hr' hl'
      cases hr.symm.trans hr'
      cases hl.symm.trans hl'
      exact absurd hlt (Nat.not_lt.mpr hle)
    rw [State.overloadCheck_eq_nil hno]
    exact if_pos haphase

/-- A contact, before the test whether it is the last one (R88). -/
theorem State.recordContact_spec (a : State) (p : Pos) : a.worksAt (a.recordContact p) p ∧
    (a.recordContact p).col p = { a.col p with
      contact := (a.col p).height, rel := some 0, demand := 0, cls := .inPosition, mark := false, lag := some 0 } := by
  unfold State.recordContact
  refine ⟨(State.worksAt.modCol a p _ rfl).trans (.classify _ p _ _ _), ?_⟩
  refine (State.col_modCol_self _ p _).trans ?_
  rw [State.col_modCol_self]

/-- The travel since the start height (R90). -/
theorem State.travelOf_eq {a : State} {start : Nat} (hh : (a.col p).height = some height) (hs : a.starts.get p = some start) :
    a.travelOf p = (height : Int) - start := by
  unfold State.travelOf
  rw [hh, hs]

theorem State.approachSpeed_eq {a : State} {maxSpeed : Nat} (h : (a.col p).cap.maxSpeed = some maxSpeed) :
    a.approachSpeed p = min (a.limit .vApp) maxSpeed := by
  unfold State.approachSpeed Column.speedBound
  rw [h]
  rfl

theorem State.loadTouches_iff {a : State} (h : (a.col p).load = some load) : a.loadTouches p = true ↔ a.limit .contactLoad ≤ load := by
  unfold State.loadTouches
  rw [h]
  exact decide_eq_true_iff

/-- The steps of a column in APPROACH (R87). -/
theorem State.approachColumn_cases {a : State} (hl : (a.col p).load = some load) :
    ((a.col p).contact.isSome = true → a.approachColumn p = a.setDemand p 0) ∧
    ((a.col p).contact = none → a.limit .contactLoad ≤ load → a.approachColumn p = (a.recordContact p).testAllContact) ∧
    ((a.col p).contact = none → load < a.limit .contactLoad → a.approachColumn p = a.rise p) := by
  unfold State.approachColumn
  refine ⟨fun h => if_pos h, fun h hle => ?_, fun h hlt => ?_⟩
  · rw [h, if_neg nofun, if_pos ((State.loadTouches_iff hl).mpr hle)]
  · rw [h, if_neg nofun, if_neg fun h' => absurd ((State.loadTouches_iff hl).mp h') (Nat.not_le.mpr hlt)]

/-- The rise of a column without contact: the upper limit, the travel, the demand (R87, R89, R90). -/
theorem State.rise_cases {a : State} (hh : (a.col p).height = some height) :
    ((a.col p).flags.upperLimit = true → a.rise p = a.offerStop (columnOffer .driveLimit p (some (height : Int)))) ∧
    ((a.col p).flags.upperLimit = false → (a.limit .travel : Int) < a.travelOf p →
      a.rise p = a.offerStop (columnOffer .noContact p (some (a.travelOf p)))) ∧
    ((a.col p).flags.upperLimit = false → a.travelOf p ≤ a.limit .travel → a.rise p = a.setDemand p (a.approachSpeed p)) := by
  have hvalue : (a.col p).heightValue = some (height : Int) := by
    unfold Column.heightValue
    rw [hh]
    rfl
  unfold State.rise
  rw [hvalue]
  refine ⟨fun h => if_pos h, fun h hlt => ?_, fun h hle => ?_⟩
  · rw [if_neg (by rw [h]; decide), if_pos hlt]
  · rw [if_neg (by rw [h]; decide), if_neg (by omega)]

/-! ### RETRACTING (R93 to R97) -/

theorem State.allParked_iff {a : State} : a.allParked = true ↔ ∀ y, a.validPos y = true → (a.col y).parked = true := by
  simp [State.allParked, State.mem_validPositions]

/-- The work of an arrival in RETRACTING: an overload is a stop, and without one the column's own steps follow (R94, R133). -/
theorem State.trackingWork_retracting (hp : w.power = .running) (hphase : w.phase = .retracting)
    (hl : (w.col p).load = some load) (hr : (w.col p).cap.rated = some rated) :
    (rated < load → w.stopsAs (w.trackingWork p) p .overload load) ∧
    (load ≤ rated → w.trackingWork p = (w.modCol p Column.withRel).retractColumn p) := by
  have hself : (w.modCol p Column.withRel).col p = (w.col p).withRel := State.col_modCol_self _ _ _
  have hworks := State.worksAt.modCol w p Column.withRel rfl
  have hwork : w.trackingWork p = (let u := (w.modCol p Column.withRel).offerAll ((w.modCol p Column.withRel).overloadCheck p)
      if u.phase = .retracting then u.retractColumn p else u) := by
    have hm : (w.modCol p Column.withRel).phase = .retracting := hphase
    unfold State.trackingWork
    dsimp only
    rw [hm]
    rfl
  have hrest : (w.modCol p Column.withRel).power = w.power ∧ (w.modCol p Column.withRel).ref = w.ref ∧
      (w.modCol p Column.withRel).plan = w.plan := ⟨rfl, rfl, rfl⟩
  rw [hwork]
  generalize w.modCol p Column.withRel = a at hworks hself hrest
  obtain ⟨hpower, href, hplan⟩ := hrest
  have haphase : a.phase = .retracting := hworks.phase.trans hphase
  constructor
  · intro hlt
    have hstop : w.stopsAs (a.offerStop (columnOffer .overload p (some load))) p .overload load :=
      State.offerStop_stopsAs (hpower.trans hp) (by rw [haphase]; decide) hworks.phase href hplan
    rw [State.overloadCheck_eq (s := a) (by rw [hself]; exact hr) (by rw [hself]; exact hl) hlt]
    change w.stopsAs (if (a.offerStop _).phase = .retracting then (a.offerStop _).retractColumn p else a.offerStop _) p _ _
    rw [if_neg (by rw [hstop.phase]; decide)]
    exact hstop
  · intro hle
    have hno : ¬ a.isOverloaded p := by
      rintro ⟨rated', load', hr', hl', hlt⟩
      rw [hself] at hr' hl'
      cases hr.symm.trans hr'
      cases hl.symm.trans hl'
      exact absurd hlt (Nat.not_lt.mpr hle)
    rw [State.overloadCheck_eq_nil hno]
    exact if_pos haphase

/-- The phase is kept with the work, or it has changed, and no leg has begun. -/
def State.keepsOrLeaves (w u : State) (p : Pos) : Prop :=
  w.worksAt u p ∨ u.phase ≠ w.phase ∧ u.phase.isLeg = false

theorem State.stopsAs.leaves {u : State} {c : StopCause} {n : Int} (h : w.stopsAs u p c n) (hne : w.phase ≠ .stopped) :
    w.keepsOrLeaves u p :=
  .inr ⟨by rw [h.phase]; exact hne.symm, by rw [h.phase]; rfl⟩

section
variable {k start maxSpeed : Nat} (hp : w.power = .running) (hh : (w.col p).height = some height) (hl : (w.col p).load = some load)
  (hr : (w.col p).cap.rated = some rated) (hle : load ≤ rated)
include hp hh hl hr hle

/-- A column in APPROACH that has its contact waits (R87). -/
theorem State.approach_waits (hphase : w.phase = .approach) (hk : (w.col p).contact = some k) :
    w.worksAt (w.trackingWork p) p ∧ ((w.trackingWork p).col p).demand = 0 ∧ ((w.trackingWork p).col p).contact = some k := by
  obtain ⟨hworks, hself, -⟩ := w.readied_spec hh
  obtain ⟨-, hwork⟩ := State.trackingWork_approach hp hphase hh hl hr
  obtain ⟨hwaits, -, -⟩ := State.approachColumn_cases (a := w.readied p) (p := p) (by rw [hself]; exact hl)
  have hcontact : ((w.readied p).col p).contact = some k := by
    rw [hself]
    exact hk
  rw [hwork hle, hwaits (by rw [hcontact]; rfl)]
  refine ⟨hworks.trans (.modCol _ p _ rfl), ?_, ?_⟩
  · rw [State.setDemand, State.col_modCol_self]
  · rw [State.setDemand, State.col_modCol_self]
    exact hcontact

/-- A first contact, which is the last one where every other valid column has its own (R88, R92). -/
theorem State.approach_touches (hphase : w.phase = .approach) (hk : (w.col p).contact = none) (hc : w.limit .contactLoad ≤ load) :
    ((w.trackingWork p).col p).contact = some height ∧ ((w.trackingWork p).col p).rel = some 0 ∧
    ((w.trackingWork p).col p).demand = 0 ∧ ((w.trackingWork p).col p).mark = false ∧
    ((∀ y, y ≠ p → w.validPos y = true → (w.col y).contact.isSome = true) → (w.trackingWork p).phase = .aligned ∧
      (w.trackingWork p).ref.h = 0 ∧ (w.trackingWork p).ref.fine = 0 ∧ (w.trackingWork p).plan.index = 0 ∧
      ((w.trackingWork p).col p).cls = .none ∧ ((w.trackingWork p).col p).lag = none) ∧
    ((¬ ∀ y, y ≠ p → w.validPos y = true → (w.col y).contact.isSome = true) → w.worksAt (w.trackingWork p) p ∧
      ((w.trackingWork p).col p).cls = .inPosition ∧ ((w.trackingWork p).col p).lag = some 0) := by
  obtain ⟨hworks, hself, -, hpower, -, -, hroster, hlimits⟩ := w.readied_spec hh
  obtain ⟨-, hwork⟩ := State.trackingWork_approach hp hphase hh hl hr
  obtain ⟨-, htouches, -⟩ := State.approachColumn_cases (a := w.readied p) (p := p) (by rw [hself]; exact hl)
  rw [hwork hle, htouches (by rw [hself]; exact hk) (by rw [State.limit_congr hlimits]; exact hc)]
  obtain ⟨hrecords, hcol⟩ := State.recordContact_spec (w.readied p) p
  have hheight : ((w.readied p).col p).height = some height := by
    rw [hself]
    exact hh
  rw [hheight] at hcol
  have hboth := hworks.trans hrecords
  have hcroster : ((w.readied p).recordContact p).roster = w.roster := hroster
  have hcpower : ((w.readied p).recordContact p).power = .running := hpower.trans hp
  generalize (w.readied p).recordContact p = c at hcol hboth hcroster hcpower
  have hall : c.allContact = true ↔ ∀ y, y ≠ p → w.validPos y = true → (w.col y).contact.isSome = true := by
    rw [State.allContact_iff, State.validPos_congr hcroster]
    refine forall_congr' fun y => ?_
    by_cases hy : y = p
    · subst hy
      rw [hcol]
      exact iff_of_true (fun _ => rfl) fun h => absurd rfl h
    · rw [hboth.cols y hy]
      exact ⟨fun h _ => h, fun h => h hy⟩
  unfold State.testAllContact
  by_cases hlast : c.allContact = true
  · have hchange := State.changePhase_spec c .aligned (by rw [hboth.phase, hphase]; decide) hcpower
    rw [if_pos hlast]
    have hpcol := hchange.columns p
    rw [hcol] at hpcol
    have href := hchange.reference
    have hplan := hchange.plan
    refine ⟨by rw [hpcol]; rfl, by rw [hpcol]; rfl, by rw [hpcol]; rfl, by rw [hpcol]; rfl, fun _ =>
      ⟨hchange.phase, by rw [href]; rfl, by rw [href]; rfl, by rw [hplan]; rfl, by rw [hpcol]; rfl, by rw [hpcol]; rfl⟩,
      fun hno => absurd (hall.mp hlast) hno⟩
  · rw [if_neg hlast, hcol]
    exact ⟨rfl, rfl, rfl, rfl, fun hyes => absurd (hall.mpr hyes) hlast, fun _ => ⟨hboth, rfl, rfl⟩⟩

/-- A column without contact rises, or stops the group (R87, R89, R90). -/
theorem State.approach_rises (hphase : w.phase = .approach) (hmax : (w.col p).cap.maxSpeed = some maxSpeed)
    (hk : (w.col p).contact = none) (hc : load < w.limit .contactLoad) :
    ((w.col p).flags.upperLimit = true → w.stopsAs (w.trackingWork p) p .driveLimit height) ∧
    ((w.col p).flags.upperLimit = false → (w.limit .travel : Int) < (height : Int) - (w.starts.get p).getD height →
      w.stopsAs (w.trackingWork p) p .noContact ((height : Int) - (w.starts.get p).getD height)) ∧
    ((w.col p).flags.upperLimit = false → (height : Int) - (w.starts.get p).getD height ≤ w.limit .travel →
      w.worksAt (w.trackingWork p) p ∧ ((w.trackingWork p).col p).demand = (min (w.limit .vApp) maxSpeed : Nat) ∧
      ((w.trackingWork p).col p).contact = none ∧ (w.trackingWork p).starts.get p = some ((w.starts.get p).getD height)) := by
  obtain ⟨hworks, hself, hstarts, hpower, href, hplan, -, hlimits⟩ := w.readied_spec hh
  obtain ⟨-, hwork⟩ := State.trackingWork_approach hp hphase hh hl hr
  obtain ⟨-, -, hrises⟩ := State.approachColumn_cases (a := w.readied p) (p := p) (by rw [hself]; exact hl)
  have hlimit : (w.readied p).limit = w.limit := State.limit_congr hlimits
  rw [hwork hle, hrises (by rw [hself]; exact hk) (by rw [hlimit]; exact hc)]
  generalize w.readied p = a at hworks hself hstarts hpower href hplan hlimit
  have hheight : (a.col p).height = some height := by
    rw [hself]
    exact hh
  have hflag : (a.col p).flags.upperLimit = (w.col p).flags.upperLimit := by
    rw [hself]
    rfl
  have hne : a.phase ≠ .stopped := by
    rw [hworks.phase, hphase]
    decide
  obtain ⟨hupper, hfar, hup⟩ := State.rise_cases hheight
  rw [State.travelOf_eq hheight hstarts, hlimit, hflag] at hfar hup
  rw [hflag] at hupper
  refine ⟨fun h => ?_, fun h hlt => ?_, fun h hle => ?_⟩
  · rw [hupper h]
    exact State.offerStop_stopsAs (hpower.trans hp) hne hworks.phase href hplan
  · rw [hfar h hlt]
    exact State.offerStop_stopsAs (hpower.trans hp) hne hworks.phase href hplan
  · have hspeed : a.approachSpeed p = min (w.limit .vApp) maxSpeed := by
      rw [State.approachSpeed_eq (maxSpeed := maxSpeed) (by rw [hself]; exact hmax), hlimit]
    rw [hup h hle, hspeed]
    refine ⟨hworks.trans (.modCol _ p _ rfl), ?_, ?_, hstarts⟩
    · rw [State.setDemand, State.col_modCol_self]
    · rw [State.setDemand, State.col_modCol_self, hself]
      exact hk

end

/-! ### The steps of a column in RETRACTING -/

theorem State.clearOfBody_iff {a : State} {k : Nat} (hh : (a.col p).height = some height) (hk : (a.col p).contact = some k)
    (hl : (a.col p).load = some load) : a.clearOfBody p = true ↔
      (height : Int) ≤ (k : Int) - a.limit .retractDistance ∧ load < a.limit .releaseLoad := by
  unfold State.clearOfBody
  rw [hh, hk, hl]
  dsimp only
  rw [Bool.and_eq_true, decide_eq_true_iff, decide_eq_true_iff]

/-- A column in RETRACTING, step by step (R94). -/
theorem State.retractColumn_cases {a : State} :
    ((a.col p).parked = true → a.retractColumn p = a.setDemand p 0) ∧
    ((a.col p).parked = false → (a.col p).flags.lowerLimit = true ∨ a.clearOfBody p = true → a.retractColumn p = a.park p) ∧
    ((a.col p).parked = false → (a.col p).flags.lowerLimit = false → a.clearOfBody p = false → (a.col p).flags.upperLimit = true →
      a.retractColumn p = a.offerStop (columnOffer .driveLimit p (a.col p).heightValue)) ∧
    ((a.col p).parked = false → (a.col p).flags.lowerLimit = false → a.clearOfBody p = false → (a.col p).flags.upperLimit = false →
      a.retractColumn p = a.setDemand p (-(a.approachSpeed p : Int))) := by
  unfold State.retractColumn
  refine ⟨fun h => if_pos h, fun h hany => ?_, fun h h1 h2 h3 => ?_, fun h h1 h2 h3 => ?_⟩
  · rw [h, if_neg (by decide)]
    by_cases hlow : (a.col p).flags.lowerLimit = true
    · exact if_pos hlow
    · rw [if_neg hlow, if_pos (hany.resolve_left hlow)]
  · rw [h, h1, h2, h3]
    rfl
  · rw [h, h1, h2, h3]
    rfl

/-- A column is parked, and the last one brings IDLE (R96, R97). -/
theorem State.park_spec {a : State} (hp : a.power = .running) (hphase : a.phase = .retracting) :
    ((∀ y, y ≠ p → a.validPos y = true → (a.col y).parked = true) → (a.park p).phase = .idle ∧ (∀ y, ((a.park p).col y).parked = false ∧
      ((a.park p).col y).contact = none ∧ ((a.park p).col y).offset = 0 ∧ ((a.park p).col y).demand = 0) ∧
      (a.park p).ref.target = none) ∧
    ((¬ ∀ y, y ≠ p → a.validPos y = true → (a.col y).parked = true) → a.worksAt (a.park p) p ∧ ((a.park p).col p).parked = true ∧
      ((a.park p).col p).demand = 0) := by
  let c := a.modCol p fun k => { k with parked := true, demand := 0 }
  have hself : c.col p = { a.col p with parked := true, demand := 0 } := State.col_modCol_self _ _ _
  have hall : c.allParked = true ↔ ∀ y, y ≠ p → a.validPos y = true → (a.col y).parked = true := by
    have hvalid : c.validPos = a.validPos := rfl
    rw [State.allParked_iff, hvalid]
    refine forall_congr' fun y => ?_
    by_cases hy : y = p
    · subst hy
      rw [hself]
      exact iff_of_true (fun _ => rfl) fun h => absurd rfl h
    · have hother : c.col y = a.col y := State.col_modCol_of_ne _ _ hy
      rw [hother]
      exact ⟨fun h _ => h, fun h => h hy⟩
  have hpark : a.park p = if c.allParked = true then c.changePhase .idle else c := rfl
  rw [hpark]
  by_cases hlast : c.allParked = true
  · have hchange := State.changePhase_spec c .idle (by change a.phase ≠ .idle; rw [hphase]; decide) hp
    rw [if_pos hlast]
    refine ⟨fun _ => ⟨hchange.phase, fun y => ?_, ?_⟩, fun hno => absurd (hall.mp hlast) hno⟩
    · rw [hchange.columns]
      exact ⟨if_pos (.inr (.inr rfl)), rfl, rfl, rfl⟩
    · rw [hchange.reference]
      rfl
  · rw [if_neg hlast, hself]
    exact ⟨fun hyes => absurd (hall.mpr hyes) hlast, fun _ => ⟨.modCol a p _ rfl, rfl, rfl⟩⟩

section
variable {k maxSpeed : Nat} (hp : w.power = .running) (hh : (w.col p).height = some height) (hl : (w.col p).load = some load)
  (hr : (w.col p).cap.rated = some rated) (hle : load ≤ rated) (hphase : w.phase = .retracting)
include hp hl hr hle hphase

/-- A parked column stays parked (R94). -/
theorem State.retract_parked (hpark : (w.col p).parked = true) : w.worksAt (w.trackingWork p) p ∧
    ((w.trackingWork p).col p).demand = 0 ∧ ((w.trackingWork p).col p).parked = true := by
  obtain ⟨-, hwork⟩ := State.trackingWork_retracting hp hphase hl hr
  obtain ⟨hparked, -⟩ := State.retractColumn_cases (a := w.modCol p Column.withRel) (p := p)
  have hcol : ((w.modCol p Column.withRel).col p).parked = true := by
    rw [State.col_modCol_self]
    exact hpark
  rw [hwork hle, hparked hcol]
  refine ⟨(State.worksAt.modCol w p Column.withRel rfl).trans (.modCol _ p _ rfl), ?_, ?_⟩
  · rw [State.setDemand, State.col_modCol_self]
  · rw [State.setDemand, State.col_modCol_self]
    exact hcol

include hh in
/-- A column that is not parked yet is parked at its lower limit or clear of the body, stops at its upper limit, and else goes down
(R94 to R97). -/
theorem State.retract_moves (hmax : (w.col p).cap.maxSpeed = some maxSpeed) (hk : (w.col p).contact = some k)
    (hpark : (w.col p).parked = false) :
    let low := (height : Int) ≤ (k : Int) - w.limit .retractDistance ∧ load < w.limit .releaseLoad
    ((w.col p).flags.lowerLimit = true ∨ low →
      ((∀ y, y ≠ p → w.validPos y = true → (w.col y).parked = true) → (w.trackingWork p).phase = .idle ∧
        (∀ y, ((w.trackingWork p).col y).parked = false ∧ ((w.trackingWork p).col y).contact = none ∧
          ((w.trackingWork p).col y).offset = 0 ∧ ((w.trackingWork p).col y).demand = 0) ∧ (w.trackingWork p).ref.target = none) ∧
      ((¬ ∀ y, y ≠ p → w.validPos y = true → (w.col y).parked = true) → w.worksAt (w.trackingWork p) p ∧
        ((w.trackingWork p).col p).parked = true ∧ ((w.trackingWork p).col p).demand = 0)) ∧
    ((w.col p).flags.lowerLimit = false → ¬ low → (w.col p).flags.upperLimit = true →
      w.stopsAs (w.trackingWork p) p .driveLimit height) ∧
    ((w.col p).flags.lowerLimit = false → ¬ low → (w.col p).flags.upperLimit = false → w.worksAt (w.trackingWork p) p ∧
      ((w.trackingWork p).col p).demand = -((min (w.limit .vApp) maxSpeed : Nat) : Int) ∧
      ((w.trackingWork p).col p).parked = false) := by
  intro low
  obtain ⟨-, hwork⟩ := State.trackingWork_retracting hp hphase hl hr
  rw [hwork hle]
  have hself : (w.modCol p Column.withRel).col p = (w.col p).withRel := State.col_modCol_self _ _ _
  have hworks := State.worksAt.modCol w p Column.withRel rfl
  have hrest : (w.modCol p Column.withRel).power = w.power ∧ (w.modCol p Column.withRel).ref = w.ref ∧
      (w.modCol p Column.withRel).plan = w.plan ∧ (w.modCol p Column.withRel).limits = w.limits ∧
      (w.modCol p Column.withRel).validPos = w.validPos := ⟨rfl, rfl, rfl, rfl, rfl⟩
  generalize w.modCol p Column.withRel = a at hworks hself hrest
  obtain ⟨hpower, href, hplan, hlimits, hvalid⟩ := hrest
  have hlimit : a.limit = w.limit := State.limit_congr hlimits
  have haphase : a.phase = .retracting := hworks.phase.trans hphase
  have hheight : (a.col p).height = some height := by
    rw [hself]
    exact hh
  have hclear : a.clearOfBody p = true ↔ low := by
    rw [State.clearOfBody_iff hheight (by rw [hself]; exact hk) (by rw [hself]; exact hl), hlimit]
  have hfields : (a.col p).parked = false ∧ (a.col p).flags = (w.col p).flags := by
    rw [hself]
    exact ⟨hpark, rfl⟩
  obtain ⟨hapark, hflags⟩ := hfields
  have hothers : (∀ y, y ≠ p → a.validPos y = true → (a.col y).parked = true) ↔
      ∀ y, y ≠ p → w.validPos y = true → (w.col y).parked = true := by
    rw [hvalid]
    refine forall₂_congr fun y hy => ?_
    rw [hworks.cols y hy]
  obtain ⟨-, hparks, hupper, hdown⟩ := State.retractColumn_cases (a := a) (p := p)
  rw [hflags] at hparks hupper hdown
  obtain ⟨hlast, hmore⟩ := State.park_spec (p := p) (hpower.trans hp) haphase
  rw [hothers] at hlast hmore
  refine ⟨fun hany => ?_, fun h1 h2 h3 => ?_, fun h1 h2 h3 => ?_⟩
  · rw [hparks hapark (hany.imp_right hclear.mpr)]
    refine ⟨hlast, fun hno => ?_⟩
    obtain ⟨hw, hpk, hd⟩ := hmore hno
    exact ⟨hworks.trans hw, hpk, hd⟩
  · have hvalue : (a.col p).heightValue = some (height : Int) := by
      unfold Column.heightValue
      rw [hheight]
      rfl
    rw [hupper hapark h1 (Bool.eq_false_iff.mpr fun h => h2 (hclear.mp h)) h3, hvalue]
    exact State.offerStop_stopsAs (hpower.trans hp) (by rw [haphase]; decide) hworks.phase href hplan
  · have hspeed : a.approachSpeed p = min (w.limit .vApp) maxSpeed := by
      rw [State.approachSpeed_eq (maxSpeed := maxSpeed) (by rw [hself]; exact hmax), hlimit]
    rw [hdown hapark h1 (Bool.eq_false_iff.mpr fun h => h2 (hclear.mp h)) h3, hspeed]
    refine ⟨hworks.trans (.modCol _ p _ rfl), ?_, ?_⟩
    · rw [State.setDemand, State.col_modCol_self]
    · rw [State.setDemand, State.col_modCol_self]
      exact hapark

end

/-- In APPROACH the work of an arrival keeps the phase, or leaves it for one without a leg. -/
theorem State.approach_keepsOrLeaves {maxSpeed : Nat} (hp : w.power = .running) (hh : (w.col p).height = some height)
    (hl : (w.col p).load = some load) (hr : (w.col p).cap.rated = some rated) (hmax : (w.col p).cap.maxSpeed = some maxSpeed)
    (hphase : w.phase = .approach) : w.keepsOrLeaves (w.trackingWork p) p := by
  have hne : w.phase ≠ .stopped := by
    rw [hphase]
    decide
  by_cases hle : load ≤ rated
  · cases hk : (w.col p).contact with
    | some k => exact .inl (State.approach_waits hp hh hl hr hle hphase hk).1
    | none =>
      by_cases hc : w.limit .contactLoad ≤ load
      · obtain ⟨-, -, -, -, hlast, hmore⟩ := State.approach_touches hp hh hl hr hle hphase hk hc
        by_cases hall : ∀ y, y ≠ p → w.validPos y = true → (w.col y).contact.isSome = true
        · have h := (hlast hall).1
          exact .inr ⟨by rw [h, hphase]; decide, by rw [h]; rfl⟩
        · exact .inl (hmore hall).1
      · obtain ⟨hupper, hfar, hup⟩ := State.approach_rises hp hh hl hr hle hphase hmax hk (Nat.not_le.mp hc)
        cases hf : (w.col p).flags.upperLimit with
        | true => exact (hupper hf).leaves hne
        | false =>
          by_cases htravel : (w.limit .travel : Int) < (height : Int) - (w.starts.get p).getD height
          · exact (hfar hf htravel).leaves hne
          · exact .inl (hup hf (not_lt.mp htravel)).1
  · exact ((State.trackingWork_approach hp hphase hh hl hr).1 (Nat.not_le.mp hle)).leaves hne

/-- In RETRACTING the work of an arrival keeps the phase, or leaves it for one without a leg. -/
theorem State.retract_keepsOrLeaves (hp : w.power = .running) (hl : (w.col p).load = some load)
    (hr : (w.col p).cap.rated = some rated) (hphase : w.phase = .retracting) : w.keepsOrLeaves (w.trackingWork p) p := by
  have hne : w.phase ≠ .stopped := by
    rw [hphase]
    decide
  obtain ⟨hover, hwork⟩ := State.trackingWork_retracting hp hphase hl hr
  by_cases hle : load ≤ rated
  · rw [hwork hle]
    have hworks := State.worksAt.modCol w p Column.withRel rfl
    have hpower : (w.modCol p Column.withRel).power = w.power := rfl
    generalize w.modCol p Column.withRel = a at hworks hpower
    have haphase : a.phase = .retracting := hworks.phase.trans hphase
    have hstays : ∀ v, w.keepsOrLeaves (a.setDemand p v) p := fun v => .inl (hworks.trans (.modCol _ p _ rfl))
    have hparks : w.keepsOrLeaves (a.park p) p := by
      obtain ⟨hlast, hmore⟩ := State.park_spec (p := p) (hpower.trans hp) haphase
      by_cases hall : ∀ y, y ≠ p → a.validPos y = true → (a.col y).parked = true
      · have h := (hlast hall).1
        exact .inr ⟨by rw [h, hphase]; decide, by rw [h]; rfl⟩
      · exact .inl (hworks.trans (hmore hall).1)
    have hstops : ∀ o, w.keepsOrLeaves (a.offerStop o) p := fun o => by
      have hfirst := State.firstStop_spec a o (hpower.trans hp) (by rw [haphase]; decide)
      rw [State.offerStop_first a o (hpower.trans hp) (by rw [haphase]; decide)]
      exact .inr ⟨by rw [hfirst.phase]; exact hne.symm, by rw [hfirst.phase]; rfl⟩
    have hite : ∀ {c : Prop} [Decidable c] {t u : State}, w.keepsOrLeaves t p → w.keepsOrLeaves u p →
        w.keepsOrLeaves (if c then t else u) p := fun {c} _ {t u} ht hu => by
      split
      · exact ht
      · exact hu
    unfold State.retractColumn
    exact hite (hstays 0) (hite hparks (hite hparks (hite (hstops _) (hstays _))))
  · exact (hover (Nat.not_le.mp hle)).leaves hne

end

/-- The arrival in APPROACH and RETRACTING, where the phase stays: what the report tells, and nothing else (R15, R36, R38). -/
theorem State.tells.worked {s w u : State} {g : SegId} {x : Exchange} {r : Report} {p : Pos} (h : s.tells w g x r p false)
    (hworks : w.worksAt u p) : s.isTold u g x r p false ∧ u.notices = w.notices ∧
      (∀ y, y ≠ p → { u.col y with creep := (s.col y).creep } = s.col y) ∧
      { u with segs := s.segs, cols := s.cols, notices := s.notices, lastCreep := s.lastCreep, starts := s.starts,
               holdCount := s.holdCount, outCount := s.outCount } = s := by
  have hwatches : w.watches = s.watches := h.watches
  refine ⟨h.told.congr (congrArg State.lastCreep hworks.kept :) (congrArg State.segs hworks.kept :) fun y => ?_,
    (congrArg State.notices hworks.kept :), fun y hy => ?_, ?_⟩
  · by_cases hy : y = p
    · subst hy
      exact hworks.creep
    · rw [hworks.cols y hy]
  · rw [hworks.cols y hy]
    exact h.cols y hy
  · let restore := fun v : State =>
      { v with segs := s.segs, cols := s.cols, notices := s.notices, lastCreep := s.lastCreep, starts := s.starts,
               holdCount := s.holdCount, outCount := s.outCount }
    let recount := fun v : State =>
      { v with watches := w.watches, starts := s.starts, holdCount := s.holdCount, outCount := s.outCount }
    have h1 := congrArg restore hworks.kept
    have h2 : recount { w with segs := s.segs, cols := s.cols, notices := s.notices, watches := s.watches, lastCreep := s.lastCreep } =
        recount s := congrArg recount h.kept
    have h3 : recount s = s := by
      rw [show recount s = { s with watches := w.watches } from rfl, hwatches]
    exact h1.trans (h2.trans h3)

/-- Settles O55: the contact of APPROACH and the parking of RETRACTING. -/
theorem contactAndParking : Obligations.ContactAndParking := by
  unfold Obligations.ContactAndParking
  intro s g x r p maxSpeed rated height load hp hx hm hen hmax hrated hrh hrl hfault hheight hload
  have hears : s.hears g x r p := ⟨hp, hx, hm, hrh, hrl⟩
  obtain ⟨htells, hnotices⟩ := hears.tells_enrolled hen
  have harrival := hears.statusArrival
  have hstop : (s.heardFrom g x r p).stopAtFault p r = s.heardFrom g x r p :=
    if_neg fun h' => absurd (hfault.symm.trans h'.1) (by decide)
  rw [hstop] at harrival
  generalize s.heardFrom g x r p = w at htells harrival hnotices
  obtain ⟨hwpower, hwphase, hwref, hwplan, -, hwlimits, hwroster, -, -, hwstarts, -⟩ := htells.fields
  obtain ⟨hh, hl, hflags, hcontact, -, -⟩ := htells.values
  have hcap := (htells.still hen).2
  have hrun : w.power = .running := hwpower.trans hp
  rw [← hheight] at hh
  rw [← hload] at hl
  have hwr : (w.col p).cap.rated = some rated := by rw [hcap]; exact hrated
  have hwm : (w.col p).cap.maxSpeed = some maxSpeed := by rw [hcap]; exact hmax
  have hwpark : (w.col p).parked = (s.col p).parked := (congrArg Column.parked htells.column :)
  have hlimit : w.limit = s.limit := State.limit_congr hwlimits
  have hvalid : w.validPos = s.validPos := State.validPos_congr hwroster
  have hothers : ∀ test : Column → Bool, (∀ c k, test { c with creep := k } = test c) →
      ((∀ y, y ≠ p → w.validPos y = true → test (w.col y) = true) ↔ ∀ y, y ≠ p → s.validPos y = true → test (s.col y) = true) :=
    fun test htest => by
      rw [hvalid]
      refine forall₂_congr fun y hy => ?_
      have hsame : test (w.col y) = test (s.col y) := by
        have h := htest (w.col y) (s.col y).creep
        rw [htells.cols y hy] at h
        exact h.symm
      rw [hsame]
  have hcontacts := hothers (fun c => c.contact.isSome) fun _ _ => rfl
  have hparks := hothers (fun c => c.parked) fun _ _ => rfl
  have hgroup : s.phase = .approach ∨ s.phase = .retracting → w.keepsOrLeaves (w.trackingWork p) p := fun h =>
    h.elim (fun h => State.approach_keepsOrLeaves hrun hh hl hwr hwm (hwphase.trans h)) fun h =>
      State.retract_keepsOrLeaves hrun hl hwr (hwphase.trans h)
  have hdone : s.phase = .approach ∨ s.phase = .retracting → (w.trackingWork p).testCompletion = w.trackingWork p := fun h => by
    refine State.testCompletion_of_not ?_
    have hleg : (w.trackingWork p).phase.isLeg = false := by
      rcases hgroup h with hworks | ⟨-, hno⟩
      · rw [hworks.phase, hwphase]
        rcases h with h | h <;> rw [h] <;> rfl
      · exact hno
    unfold State.legComplete
    rw [hleg]
    rfl
  have hstops : ∀ {c : StopCause} {n : Int}, s.phase = .approach ∨ s.phase = .retracting → w.stopsAs (w.trackingWork p) p c n →
      (w.trackingWork p).testCompletion.phase = .stopped ∧ ((w.trackingWork p).testCompletion.col p).demand = 0 ∧
      (w.trackingWork p).testCompletion.stop.record = some {
        cause := c, pos := some p, car := some (carOf p), value := some n, phase := s.phase, h := s.ref.h,
        legIndex := s.plan.index, port := none } := fun {c n} h hst => by
    rw [hdone h, ← hwphase, ← hwref, ← hwplan]
    exact ⟨hst.phase, hst.demand, hst.record⟩
  refine ⟨_, (w.trackingWork p).testCompletion, congrArg Host.Outcome.next harrival, rfl, ?_⟩
  intro speed stops others
  refine ⟨fun hph hlt => hstops hph ?_, fun hph hle => ?_, fun k hph hle hk hpk => ?_, fun hph hle hpk => ?_, fun hph hsame => ?_⟩
  · rcases hph with h | h
    · exact (State.trackingWork_approach hrun (hwphase.trans h) hh hl hwr).1 hlt
    · exact (State.trackingWork_retracting hrun (hwphase.trans h) hl hwr).1 hlt
  · have hwph : w.phase = .approach := hwphase.trans hph
    have hd := hdone (.inl hph)
    intro travel
    have htravel : travel = (height : Int) - (w.starts.get p).getD height := by rw [hwstarts]
    refine ⟨fun hk hc => ?_, fun hk hc => ⟨fun hf => ?_, fun hf hlt => ?_, fun hf hle' => ?_⟩, fun k hk => ?_⟩
    · obtain ⟨h1, h2, h3, h4, hlast, hmore⟩ := State.approach_touches hrun hh hl hwr hle hwph (hcontact.trans hk) (by rw [hlimit]; exact hc)
      rw [hcontacts] at hlast hmore
      rw [← hd] at h1 h2 h3 h4 hlast hmore
      refine ⟨h1, h2, h3, h4, hlast, fun hno => ?_⟩
      obtain ⟨hworks, hcls, hlag⟩ := hmore hno
      exact ⟨hworks.phase.trans hwph, hcls, hlag⟩
    · obtain ⟨hupper, -, -⟩ := State.approach_rises hrun hh hl hwr hle hwph hwm (hcontact.trans hk) (by rw [hlimit]; exact hc)
      exact hstops (.inl hph) (hupper (by rw [hflags]; exact hf))
    · obtain ⟨-, hfar, -⟩ := State.approach_rises hrun hh hl hwr hle hwph hwm (hcontact.trans hk) (by rw [hlimit]; exact hc)
      rw [← htravel, hlimit, hflags] at hfar
      exact hstops (.inl hph) (hfar hf hlt)
    · obtain ⟨-, -, hup⟩ := State.approach_rises hrun hh hl hwr hle hwph hwm (hcontact.trans hk) (by rw [hlimit]; exact hc)
      rw [← htravel, hlimit, hflags, ← hd, hwstarts] at hup
      obtain ⟨hworks, h1, h2, h3⟩ := hup hf hle'
      exact ⟨hworks.phase.trans hwph, h1, h2, h3⟩
    · obtain ⟨hworks, h1, h2⟩ := State.approach_waits hrun hh hl hwr hle hwph (hcontact.trans hk)
      rw [← hd] at hworks h1 h2
      exact ⟨hworks.phase.trans hwph, h1, h2⟩
  · have hwph : w.phase = .retracting := hwphase.trans hph
    have hd := hdone (.inr hph)
    intro low
    have hmoves := State.retract_moves hrun hh hl hwr hle hwph hwm (hcontact.trans hk) (hwpark.trans hpk)
    rw [hparks, hlimit, hflags] at hmoves
    obtain ⟨hany, hupper, hdown⟩ := hmoves
    rw [← hd] at hany hdown
    refine ⟨fun h => ⟨(hany h).1, fun hno => ?_⟩, fun h1 h2 h3 => hstops (.inr hph) (hupper h1 h2 h3), fun h1 h2 h3 => ?_⟩
    · obtain ⟨hworks, h1, h2⟩ := (hany h).2 hno
      exact ⟨hworks.phase.trans hwph, h1, h2⟩
    · obtain ⟨hworks, h4, h5⟩ := hdown h1 h2 h3
      exact ⟨hworks.phase.trans hwph, h4, h5⟩
  · have hwph : w.phase = .retracting := hwphase.trans hph
    obtain ⟨hworks, h1, h2⟩ := State.retract_parked hrun hl hwr hle hwph (hwpark.trans hpk)
    rw [← hdone (.inr hph)] at hworks h1 h2
    exact ⟨hworks.phase.trans hwph, h1, h2⟩
  · have hworks : w.worksAt ((w.trackingWork p).testCompletion) p := by
      rw [hdone hph]
      refine (hgroup hph).resolve_right fun h => h.1 ?_
      rw [← hdone hph, hwphase]
      exact hsame
    obtain ⟨htold, hn, hcols, hkept⟩ := htells.worked hworks
    refine ⟨htold, hn.trans (hnotices.trans ?_), hcols, hkept⟩
    rw [hheight]

end Sys2Proof.Machine

/-! The operations that no law of the Safety file looks at, or that keep what the laws look at in order: `State.steady` says it of two
states, and one lemma an operation follows the operation's definition. A segment keeps its own laws where it met them. -/

namespace Sys2Proof.Machine

set_option Elab.async false

/-- The laws of one segment: its polling in a motion phase, its echo test and its drops (R34, R40, R47). -/
structure Segment.fine (motion : Bool) (sg : Segment) : Prop where
  polled : motion = true → sg.mode = .fast ∧ sg.quietTimer = .stopped
  quiet : sg.echoQuiet
  drops : ∀ d, (sg.drops.get d).well

/-- From `a` to `b` a segment keeps its laws, the link states and the capabilities of its drops, and begins no echo test. -/
structure Segment.steady (motion : Bool) (a b : Segment) : Prop where
  fine : a.fine motion → b.fine motion
  echo : b.echo ≠ .none → a.echo ≠ .none
  link : ∀ d, (b.drops.get d).link = (a.drops.get d).link
  cap : ∀ d, (b.drops.get d).cap = (a.drops.get d).cap

/-- From `c` to `d` a column keeps what the laws look at: its report stays in range, if it was, and the rest of it is the same. -/
structure Column.steady (c d : Column) : Prop where
  link : d.link = c.link
  cap : d.cap = c.cap
  contact : d.contact = c.contact
  offset : d.offset = c.offset
  demand : d.demand = c.demand
  jog : d.jog = c.jog
  range : c.inRange → d.inRange

/-- From `s` to `t` what the laws look at stays, or stays in order. -/
structure State.steady (s t : State) : Prop where
  power : t.power = s.power
  course : t.course = s.course
  roster : t.roster = s.roster
  limits : t.limits = s.limits
  segs : ∀ g, (s.seg g).steady s.phase.isMotion (t.seg g)
  cols : ∀ p, (s.col p).steady (t.col p)

/-! ### One column -/

namespace Column.steady

theorem refl (c : Column) : c.steady c := ⟨rfl, rfl, rfl, rfl, rfl, rfl, id⟩

theorem trans {c d e : Column} (h : c.steady d) (h' : d.steady e) : c.steady e :=
  ⟨h'.link.trans h.link, h'.cap.trans h.cap, h'.contact.trans h.contact, h'.offset.trans h.offset, h'.demand.trans h.demand,
    h'.jog.trans h.jog, h'.range ∘ h.range⟩

end Column.steady

/-! ### One segment -/

namespace Segment.steady
variable {motion : Bool} {a b c : Segment}

theorem refl (a : Segment) : a.steady motion a := ⟨id, id, fun _ => rfl, fun _ => rfl⟩

theorem trans (h : a.steady motion b) (h' : b.steady motion c) : a.steady motion c :=
  ⟨h'.fine ∘ h.fine, h.echo ∘ h'.echo, fun d => (h'.link d).trans (h.link d), fun d => (h'.cap d).trans (h.cap d)⟩

/-- A change of the line alone: its mode and quiet-entry timer stay in a motion phase, its echo test and its drops stay, and a line
that an echo test has to itself stays idle. -/
theorem of_line (hm : motion = true → a.mode = .fast → a.quietTimer = .stopped → b.mode = .fast ∧ b.quietTimer = .stopped)
    (he : b.echo = a.echo) (hd : b.drops = a.drops)
    (hq : a.echo.code = 2 → a.inFlight = none → a.cycle = none → a.startOwed = false →
      b.inFlight = none ∧ b.cycle = none ∧ b.startOwed = false) : a.steady motion b where
  fine h := by
    refine ⟨fun hmo => hm hmo (h.polled hmo).1 (h.polled hmo).2, fun hrun => ?_, fun d => by rw [hd]; exact h.drops d⟩
    rw [he] at hrun
    obtain ⟨h1, h2, h3, h4⟩ := h.quiet hrun
    obtain ⟨h1', h2', h3'⟩ := hq hrun h1 h2 h3
    exact ⟨h1', h2', h3', fun d => by rw [hd]; exact h4 d⟩
  echo h := he ▸ h
  link _ := by rw [hd]
  cap _ := by rw [hd]

/-- A change of a line without an echo test. -/
theorem of_no_echo (hm : b.mode = a.mode) (ht : b.quietTimer = a.quietTimer) (he : b.echo = a.echo) (hd : b.drops = a.drops)
    (hnone : a.echo = .none) : a.steady motion b :=
  .of_line (fun _ h1 h2 => ⟨hm.trans h1, ht.trans h2⟩) he hd fun h => by rw [hnone] at h; cases h

theorem awake (a : Segment) {q : Timer} (hq : motion = true → q = a.quietTimer) : a.steady motion (a.awake q) := by
  refine .of_line (fun hm _ ht => ⟨rfl, (hq hm).trans ht⟩) rfl rfl fun hrun h1 h2 h3 => ⟨h1, ?_, h3⟩
  have hecho : a.echo ≠ .none := fun h => by rw [h] at hrun; cases hrun
  exact (if_neg fun h => hecho h.2.2).trans h2

theorem woken (a : Segment) : a.steady motion (a.woken motion) := by
  rw [Segment.woken_awake]
  exact awake a fun h => if_pos h

/-- The end of an exchange, and the cycle that goes on after it. -/
theorem goOn (a : Segment) : a.steady motion a.goOn := by
  by_cases hmore : a.cycle = none ∨ a.nextExchange ≠ none
  · rw [Segment.goOn_of_more hmore]
    exact .refl a
  · obtain ⟨hcycle, hnext⟩ := not_or.mp hmore
    rw [Segment.goOn_of_last hcycle (not_not.mp hnext), Segment.endCycle_whole]
    split
    · exact .of_line (fun _ h1 h2 => ⟨h1, h2⟩) rfl rfl fun _ _ h => absurd h hcycle
    · exact .of_line (fun _ h1 h2 => ⟨h1, h2⟩) rfl rfl fun _ _ h => absurd h hcycle

theorem lineFreed (a : Segment) : a.steady motion { a with inFlight := none } :=
  .of_line (fun _ h1 h2 => ⟨h1, h2⟩) rfl rfl fun _ _ h2 h3 => ⟨rfl, h2, h3⟩

theorem hearByte (a : Segment) : a.steady motion a.hearByte := by
  unfold Segment.hearByte
  split
  · exact .of_line (fun _ h1 h2 => ⟨h1, h2⟩) rfl rfl fun _ h1 h2 h3 => ⟨h1, h2, h3⟩
  · exact .refl a

theorem sendAllstop (a : Segment) : a.steady motion a.sendAllstop := by
  unfold Segment.sendAllstop
  split
  · exact .of_line (fun _ h1 h2 => ⟨h1, h2⟩) rfl rfl fun _ h1 h2 h3 => ⟨h1, h2, h3⟩
  · exact .refl a

/-- The entry to quiet mode, which a motion phase does not meet, since its quiet-entry timers are stopped (R34). -/
theorem quietMode (a : Segment) {q : Timer} (ht : a.quietTimer ≠ .stopped) :
    a.steady motion { a with mode := .quiet, quietTimer := .stopped, pollTimer := q } :=
  .of_line (fun _ _ h => absurd h ht) rfl rfl fun _ h1 h2 h3 => ⟨h1, h2, h3⟩

/-- A drop changed in what the laws of a drop allow. -/
theorem setDrop (a : Segment) (d : DropId) (x : Drop) (hwell : (a.drops.get d).well → x.well) (hlink : x.link = (a.drops.get d).link)
    (hcap : x.cap = (a.drops.get d).cap) (hsettle : x.settle = (a.drops.get d).settle) :
    a.steady motion { a with drops := a.drops.set d x } where
  fine h := by
    refine ⟨h.polled, fun hrun => ?_, fun y => ?_⟩
    · obtain ⟨h1, h2, h3, h4⟩ := h.quiet hrun
      refine ⟨h1, h2, h3, fun y => ?_⟩
      dsimp only
      rw [Table.get_set]
      split
      · exact hsettle.trans (h4 d)
      · exact h4 y
    · dsimp only
      rw [Table.get_set]
      split
      · exact hwell (h.drops d)
      · exact h.drops y
  echo h := h
  link y := by
    dsimp only
    rw [Table.get_set]
    split
    · next e => rw [hlink, e]
    · rfl
  cap y := by
    dsimp only
    rw [Table.get_set]
    split
    · next e => rw [hcap, e]
    · rfl

/-- An exchange on a line without an echo test. -/
theorem beginExchange (a : Segment) (d : DropId) (kind : ExchangeKind) (v : Int) (hnone : a.echo = .none) :
    a.steady motion (a.beginExchange d kind v) :=
  (setDrop a d { a.drops.get d with toggle := !(a.drops.get d).toggle } id rfl rfl rfl).trans
    (.of_no_echo rfl rfl rfl rfl hnone)

/-! #### The echo test (R40, R43) -/

theorem suspended_settle {d : Drop} (h : d.well) : d.suspended.settle = .stopped := by
  obtain ⟨-, -, hsettle, -⟩ := h
  unfold Drop.suspended
  split
  · rfl
  · next hl => exact not_not.mp fun hn => hl (hsettle hn)

theorem well_settle {d : Drop} {t : Timer} (h : d.well) (ht : t ≠ .stopped → d.link = .settling) :
    ({ d with settle := t } : Drop).well := by
  obtain ⟨hmiss, habsent, -, hpage, hcap⟩ := h
  exact ⟨hmiss, habsent, ht, hpage, hcap⟩

theorem suspended_well {d : Drop} (h : d.well) : d.suspended.well := by
  unfold Drop.suspended
  split
  · exact well_settle h fun hn => absurd rfl hn
  · exact h

theorem resumed_well {d : Drop} (h : d.well) : d.resumed.well := by
  unfold Drop.resumed
  split
  · next hl => exact well_settle h fun _ => hl
  · exact h

theorem suspended_same (d : Drop) : d.suspended.link = d.link ∧ d.suspended.cap = d.cap := by
  unfold Drop.suspended
  split <;> exact ⟨rfl, rfl⟩

theorem resumed_same (d : Drop) : d.resumed.link = d.link ∧ d.resumed.cap = d.cap := by
  unfold Drop.resumed
  split <;> exact ⟨rfl, rfl⟩

/-- A test that starts has its line to itself: no exchange is in flight, and the settle timers stop (R40). -/
theorem startEcho (a : Segment) (cable : Fin 3) (hecho : a.echo ≠ .none) (hflight : a.inFlight = none) :
    a.steady motion (a.startEcho cable) where
  fine h := by
    refine ⟨h.polled, fun _ => ⟨hflight, rfl, rfl, fun d => ?_⟩, fun d => ?_⟩
    · exact (congrArg Drop.settle (Table.get_map _ _ _)).trans (suspended_settle (h.drops d))
    · rw [Segment.startEcho, Table.get_map]
      exact suspended_well (h.drops d)
  echo _ := hecho
  link d := (congrArg Drop.link (Table.get_map _ _ _)).trans (suspended_same _).1
  cap d := (congrArg Drop.cap (Table.get_map _ _ _)).trans (suspended_same _).2

theorem tryEcho (a : Segment) : a.steady motion a.tryEcho := by
  unfold Segment.tryEcho
  split
  · next cable hecho =>
    split
    · next hfree =>
      refine startEcho a cable (by rw [hecho]; nofun) ?_
      exact Option.isNone_iff_eq_none.mp (Bool.and_eq_true_iff.mp hfree).1
    · exact .refl a
  all_goals exact .refl a

theorem recordPulse (a : Segment) (r : Reflection) : a.steady motion (a.recordPulse r) := by
  unfold Segment.recordPulse
  split
  · next cable pulses hecho =>
    split
    · exact ⟨fun h => ⟨h.polled, fun _ => h.quiet (by rw [hecho]; rfl), h.drops⟩, fun _ => by rw [hecho]; nofun, fun _ => rfl,
        fun _ => rfl⟩
    · exact .refl a
  all_goals exact .refl a

theorem resume (a : Segment) : a.steady motion a.resume := by
  rw [Segment.resume_whole]
  refine ⟨fun h => ⟨h.polled, nofun, fun d => ?_⟩, fun h => absurd rfl h, fun d => ?_, fun d => ?_⟩
  · dsimp only
    rw [Table.get_map]
    exact resumed_well (h.drops d)
  · exact (congrArg Drop.link (Table.get_map _ _ _)).trans (resumed_same _).1
  · exact (congrArg Drop.cap (Table.get_map _ _ _)).trans (resumed_same _).2

theorem withLastEcho (a : Segment) (r : Option EchoResult) : a.steady motion { a with lastEcho := r } :=
  .of_line (fun _ h1 h2 => ⟨h1, h2⟩) rfl rfl fun _ h1 h2 h3 => ⟨h1, h2, h3⟩

theorem startPolling (a : Segment) : a.steady false a.startPolling := by
  unfold Segment.startPolling
  dsimp only
  split
  · next hecho =>
    rw [Segment.beginCycle_fresh]
    exact .of_line nofun rfl rfl fun h => by rw [show a.echo = .none from hecho] at h; cases h
  · exact .of_line nofun rfl rfl fun _ h1 h2 h3 => ⟨h1, h2, h3⟩

end Segment.steady

/-! ### The whole state -/

namespace State.steady

variable {s t u : State}

theorem phase (h : s.steady t) : t.phase = s.phase := State.phase_of_course h.course

theorem refl (s : State) : s.steady s :=
  ⟨rfl, rfl, rfl, rfl, fun _ => .refl _, fun _ => .refl _⟩

theorem trans (h : s.steady t) (h' : t.steady u) : s.steady u where
  power := h'.power.trans h.power
  course := h'.course.trans h.course
  roster := h'.roster.trans h.roster
  limits := h'.limits.trans h.limits
  segs g := (h.segs g).trans (by have := h'.segs g; rwa [h.phase] at this)
  cols p := (h.cols p).trans (h'.cols p)

theorem ite {c : Prop} [Decidable c] (h : s.steady t) (h' : s.steady u) : s.steady (if c then t else u) := by
  split
  · exact h
  · exact h'

/-- An update of parts that no law looks at. -/
theorem update (h : s.steady t) (hp : u.power = t.power := by rfl) (hc : u.course = t.course := by rfl)
    (hr : u.roster = t.roster := by rfl) (hl : u.limits = t.limits := by rfl) (hs : u.segs = t.segs := by rfl)
    (hcols : u.cols = t.cols := by rfl) : s.steady u :=
  h.trans ⟨hp, hc, hr, hl, fun g => by rw [State.seg_congr hs]; exact .refl _, fun p => by rw [State.col_congr hcols]; exact .refl _⟩

theorem modSeg (h : s.steady t) (g : SegId) (f : Segment → Segment)
    (hf : (t.seg g).steady t.phase.isMotion (f (t.seg g))) : s.steady (t.modSeg g f) :=
  h.trans ⟨rfl, rfl, rfl, rfl, fun g' => by
    rw [State.seg_modSeg]
    split
    · next e => subst e; exact hf
    · exact .refl _, fun _ => .refl _⟩

theorem mapSegs (h : s.steady t) (f : Segment → Segment) (hf : ∀ a : Segment, a.steady t.phase.isMotion (f a)) :
    s.steady (t.mapSegs f) :=
  h.trans ⟨rfl, rfl, rfl, rfl, fun g => by rw [State.seg_mapSegs]; exact hf _, fun _ => .refl _⟩

theorem modCol (h : s.steady t) (p : Pos) (f : Column → Column)
    (hf : ∀ c : Column, c.steady (f c) := by exact fun _ => ⟨rfl, rfl, rfl, rfl, rfl, rfl, id⟩) : s.steady (t.modCol p f) :=
  h.trans ⟨rfl, rfl, rfl, rfl, fun _ => .refl _, fun y => by
    rw [State.col_modCol]
    split
    · exact hf _
    · exact .refl _⟩

theorem mapCols (h : s.steady t) (f : Column → Column)
    (hf : ∀ c : Column, c.steady (f c) := by exact fun _ => ⟨rfl, rfl, rfl, rfl, rfl, rfl, id⟩) : s.steady (t.mapCols f) :=
  h.trans ⟨rfl, rfl, rfl, rfl, fun _ => .refl _, fun y => by rw [State.col_mapCols]; exact hf _⟩

/-- A change of the miss count within its bounds. -/
theorem modMiss (h : s.steady t) (g : SegId) (d : DropId) (f : Nat → Nat) (hf : ∀ n, n ≤ 3 → f n ≤ 3)
    (ha : (t.drop g d).link = .absent → f 0 = 0) : s.steady (t.modDrop g d fun x => { x with miss := f x.miss }) := by
  refine h.modSeg g _ ?_
  refine Segment.steady.setDrop (t.seg g) d { (t.seg g).drops.get d with miss := f ((t.seg g).drops.get d).miss } ?_ rfl rfl rfl
  rintro ⟨hmiss, habsent, hsettle, hpage, hcap⟩
  exact ⟨hf _ hmiss, fun hl => by dsimp only at hl ⊢; rw [habsent hl]; exact ha hl, hsettle, hpage, hcap⟩

/-! ### Notices, watches, wakes and writes -/

theorem modPort (h : s.steady t) (q : PortId) (f : Port → Port) : s.steady (t.modPort q f) := h.update
theorem modNotices (h : s.steady t) (q : PortId) (f : NoticeState → NoticeState) : s.steady (t.modNotices q f) := h.update
theorem modWatch (h : s.steady t) (q : PortId) (f : WatchState → WatchState) : s.steady (t.modWatch q f) := h.update
theorem spendFresh (h : s.steady t) : s.steady t.spendFresh := h.update
theorem raise (h : s.steady t) (c : Category) : s.steady (t.raise c) := h.update
theorem testWatches (h : s.steady t) (p : Pos) : s.steady (t.testWatches p) := h.update
theorem raiseEchoDone (h : s.steady t) (g : SegId) : s.steady (t.raiseEchoDone g) := h.update

theorem wake (h : s.steady t) : s.steady t.wake := by
  by_cases hp : t.power = .running
  · refine h.trans ⟨by simp, by simp, by simp, by simp, fun g => ?_, fun p => ?_⟩
    · rw [State.seg_wake t hp]
      exact .woken _
    · rw [State.col_wake]
      exact ⟨rfl, rfl, rfl, rfl, rfl, rfl, id⟩
  · rwa [State.wake_of_not_running t hp]

theorem trigger (h : s.steady t) : s.steady t.trigger :=
  h.update (by simp) (by simp) (by simp) (by simp) (by simp) (by simp)

theorem classify (h : s.steady t) (p : Pos) (cls : Classification) (m : Bool) (lag : Option Int) : s.steady (t.classify p cls m lag) :=
  State.steady.update (t := t.modCol p fun c => { c with cls := cls, mark := m, lag := lag }) (h.modCol p _)

theorem classifyAt (h : s.steady t) (p : Pos) (e : Int) : s.steady (t.classifyAt p e) := h.classify p _ _ _
theorem writeSpread (h : s.steady t) (c : CarId) : s.steady (t.writeSpread c) := h.update
theorem clearLatches (h : s.steady t) : s.steady t.clearLatches := h.mapCols _

theorem takeStart (h : s.steady t) (p : Pos) : s.steady (t.takeStart p) := by
  unfold State.takeStart
  split
  · exact h
  · exact h.update

/-! ### A report -/

theorem withRel (h : s.steady t) (p : Pos) : s.steady (t.modCol p Column.withRel) := h.modCol p _

/-- A stored report lies in its ranges, since it is clamped (R15). -/
theorem writeReport (h : s.steady t) (p : Pos) (r : Report) : s.steady (t.writeReport p r) := by
  have hstored : ∀ c : Column, c.steady { c with height := some (storedHeight r.height), load := some (storedLoad r.load),
                                                 range := rangeFlag r.height r.load, flags := r.flags } :=
    fun c => ⟨rfl, rfl, rfl, rfl, rfl, rfl, fun ⟨_, _, hcontact, hoffset⟩ =>
      ⟨fun k hk => Option.some.inj hk ▸ Nat.min_le_right _ _, fun k hk => Option.some.inj hk ▸ Nat.min_le_right _ _, hcontact, hoffset⟩⟩
  have hwrite := h.modCol p _ hstored
  unfold State.writeReport
  exact ite (hwrite.raise _) hwrite

theorem foundCreep (h : s.steady t) (p : Pos) (b k : Nat) : s.steady (t.foundCreep p b k) :=
  State.steady.wake (State.steady.update (h.raise .creep))

theorem creepTest (h : s.steady t) (g : SegId) (p : Pos) : s.steady (t.creepTest g p) := by
  unfold State.creepTest
  split
  · split
    · exact h.modCol p _
    · exact ite (h.foundCreep p _ _) h
  · exact h

theorem wakeIfMoving (h : s.steady t) (r : Report) : s.steady (t.wakeIfMoving r) := ite h.wake h

theorem followShare (h : s.steady t) (n : Nat) (p : Pos) : s.steady (t.followShare n p) := by
  unfold State.followShare
  dsimp only
  split
  · exact h
  · exact ite ((h.modCol p _).raise _) (h.modCol p _)

theorem evaluateShares (h : s.steady t) (c : CarId) : s.steady (t.evaluateShares c) := by
  unfold State.evaluateShares
  split
  · exact h
  · exact ite h ((((h.followShare _ _).followShare _ _).followShare _ _).followShare _ _)

/-! ### The lines -/

theorem goOn (h : s.steady t) (g : SegId) : s.steady (t.modSeg g Segment.goOn) := h.modSeg g _ (.goOn _)
theorem lineFreed (h : s.steady t) (g : SegId) : s.steady (t.lineFreed g) := h.modSeg g _ (.lineFreed _)

theorem pollExpiry (h : s.steady t) (g : SegId) : s.steady (t.pollExpiry g) := by
  unfold State.pollExpiry
  split
  · split
    · exact h
    · next hecho =>
      have hnone : (t.seg g).echo = .none := not_not.mp hecho
      split
      · refine h.modSeg g _ ?_
        rw [Segment.beginCycle_fresh]
        exact .of_no_echo rfl rfl rfl rfl hnone
      · exact (h.modSeg g _ (.of_no_echo rfl rfl rfl rfl hnone)).raise _
  · exact h

theorem sendCommand (h : s.steady t) (g : SegId) : s.steady (t.sendCommand g) := by
  unfold State.sendCommand
  split
  · split
    · next hfree => exact h.modSeg g _ (.beginExchange _ _ _ _ (Segment.freeForCommand_iff.mp hfree).2.2)
    · exact h
  · exact h

theorem allstop (h : s.steady t) (g : SegId) : s.steady (t.allstop g) := by
  unfold State.allstop
  split
  · exact h.modSeg g _ (.sendAllstop _)
  all_goals exact h

theorem takeBaselines (h : s.steady t) (g : SegId) : s.steady (t.takeBaselines g) := by
  refine h.trans ⟨rfl, rfl, rfl, rfl, fun _ => .refl _, fun p => ?_⟩
  unfold State.takeBaselines State.col
  dsimp only
  rw [Table.get_build]
  split
  · split
    · exact ⟨rfl, rfl, rfl, rfl, rfl, rfl, id⟩
    · exact .refl _
  · exact .refl _

theorem quietExpiry (h : s.steady t) (g : SegId) : s.steady (t.quietExpiry g) := by
  unfold State.quietExpiry
  split
  · next ht => exact (h.modSeg g _ (.quietMode _ (by rw [ht]; nofun))).takeBaselines g
  · exact h

theorem echoRunning (h : s.steady t) (g : SegId) : s.steady (t.echoRunning g) := by
  unfold State.echoRunning
  split
  · exact h.modSeg g _ (.tryEcho _)
  all_goals exact h

theorem echoEnd (h : s.steady t) (g : SegId) : s.steady (t.echoEnd g) := by
  unfold State.echoEnd
  split
  · split
    · next cable pulses _ _ =>
      exact (h.modSeg g (fun sg => ({ sg with lastEcho := some (echoResult cable pulses) } : Segment).resume)
        ((Segment.steady.withLastEcho _ _).trans (.resume _))).raiseEchoDone g
    · exact h
  all_goals exact h

/-! ### The ports, the authority and the retention unit -/

theorem modRunningPort (h : s.steady t) (q : PortId) (f : Port → Port) : s.steady (t.modRunningPort q f) := by
  unfold State.modRunningPort
  split
  · exact h
  all_goals exact h.modPort q f

theorem restartLapse (h : s.steady t) (q : PortId) (x : Gathering) : s.steady (t.restartLapse q x) := by
  unfold State.restartLapse
  split
  · exact ite h.update h
  all_goals exact h

theorem assemble (h : s.steady t) (q : PortId) : s.steady (t.assemble q) := by
  unfold State.assemble
  split
  · exact h
  · exact (h.modPort q _).restartLapse q _
  · exact h

theorem grant (h : s.steady t) (q : PortId) : s.steady (t.grant q) := h.update
theorem clearHolder (h : s.steady t) : s.steady t.clearHolder := h.update

theorem noteWrite (h : s.steady t) (b : Bool) : s.steady (t.noteWrite b) := by
  unfold State.noteWrite
  dsimp only
  split
  · exact h.update
  · exact h.update

theorem writeEnd (h : s.steady t) (o : WriteOutcome) : s.steady (t.writeEnd o) := by
  unfold State.writeEnd
  split
  · exact h
  · exact State.steady.update (h.noteWrite _)

end State.steady

end Sys2Proof.Machine

/-! The laws of the Safety file in four groups: those that O59 speaks of, those that hold in every phase alike, those that go with the
phase, and the leg index. What is steady keeps each group; with `full` false the group of O59 stands alone. -/

namespace Sys2Proof.Machine

set_option Elab.async false

/-- The laws of the stop unit and the demand law (R128, R145, R149 to R152). -/
structure State.lawful (s : State) : Prop where
  stops : s.stopsSafe
  demands : s.demandsLawful

/-- The laws that hold in every phase alike: the plan, the limits, the reference's range, the echo tests, the roster, the drops, their
copies in the columns, the contacts and the columns' values. -/
structure State.founded (s : State) : Prop where
  plan : s.plan.well = true
  limits : s.limitsInRange
  fine : s.ref.h = s.ref.fine / 100 ∧ s.ref.fine ≤ 4000000
  target : ∀ t ∈ s.ref.target, t ≤ 40000
  echo : s.echoWell
  roster : s.rosterWell
  drops : s.dropsWell
  mirrored : s.mirrored
  contacts : ∀ p, s.validPos p = true → (s.col p).link = .enrolled → (s.col p).contact.isSome = true → s.roster.confirmed = true
  columns : s.columnsWell

/-- The laws that go with the phase: the speed, the timers, the polling and the group (R34, R63, R64, R67, R104). -/
structure State.paced (s : State) : Prop where
  still : s.phase.isLeg = false → s.ref.vEff = 0
  speed : ∀ v ∈ s.ref.speed, s.phase.isLeg = true → s.ref.vEff ≤ v
  timers : s.timersWell
  polling : s.pollingWell
  ready : s.groupReady
  approach : s.phase = .approach → s.roster.confirmed = true

/-- While a plan leg runs the leg index is below n (R99). -/
def State.onLeg (s : State) : Prop :=
  s.phase.isLeg = true → s.ref.setDown = false → s.plan.index < s.plan.count

/-- The laws of a state within a leg's completion, where the leg index has moved on. -/
structure State.upright (full : Prop) (s : State) : Prop where
  lawful : s.lawful
  founded : full → s.founded
  paced : full → s.paced

/-- The laws of O59, and with `full` those of O60 but for the stations and the counts. -/
structure State.sound (full : Prop) (s : State) : Prop extends s.upright full where
  onLeg : full → s.onLeg

theorem State.safe_iff (s : State) : s.safe ↔ s.stationsSafe ∧ s.countsWell ∧ s.sound True := by
  constructor
  · rintro ⟨hstations, hstops, hcounts, ⟨⟨hplan, honLeg⟩, hlimits, ⟨hh, hfine, htarget, hstill, hspeed⟩, htimers, hpolling, hecho⟩, hdemands,
      hroster, hdrops, hmirrored, hready, ⟨happroach, hcontacts⟩, hcolumns⟩
    exact ⟨hstations, hcounts, ⟨⟨⟨hstops, hdemands⟩,
      fun _ => ⟨hplan, hlimits, ⟨hh, hfine⟩, htarget, hecho, hroster, hdrops, hmirrored, hcontacts, hcolumns⟩,
      fun _ => ⟨hstill, hspeed, htimers, hpolling, hready, happroach⟩⟩, fun _ => honLeg⟩⟩
  · rintro ⟨hstations, hcounts, h⟩
    obtain ⟨hstops, hdemands⟩ := h.lawful
    obtain ⟨hplan, hlimits, ⟨hh, hfine⟩, htarget, hecho, hroster, hdrops, hmirrored, hcontacts, hcolumns⟩ := h.founded trivial
    obtain ⟨hstill, hspeed, htimers, hpolling, hready, happroach⟩ := h.paced trivial
    exact ⟨hstations, hstops, hcounts, ⟨⟨hplan, h.onLeg trivial⟩, hlimits, ⟨hh, hfine, htarget, hstill, hspeed⟩, htimers, hpolling, hecho⟩,
      hdemands, hroster, hdrops, hmirrored, hready, ⟨happroach, hcontacts⟩, hcolumns⟩

/-! ### What the laws look at -/

variable {s t : State} {full : Prop}

/-- The laws of the stop unit look at its record, its further causes, STOP_OUT, the phase and the power. -/
theorem State.stopsSafe_congr (hr : t.stop.record = s.stop.record) (hf : t.stop.further = s.stop.further)
    (ho : t.stop.stopOut = s.stop.stopOut) (hph : t.phase = s.phase) (hp : t.power = s.power) (h : s.stopsSafe) : t.stopsSafe := by
  simpa only [State.stopsSafe, State.stopsWell, State.recordWell, hr, hf, ho, hph, hp] using h

/-- The demand law of one column. -/
theorem Column.demand_congr {c d : Column} {ph : Phase} (hl : d.link = c.link) (hc : d.cap = c.cap) (hd : d.demand = c.demand)
    (hj : d.jog = c.jog) (h : c.demandFits ph ∧ c.demandBounded ∧ (c.jog = true → ph = .holding)) :
    d.demandFits ph ∧ d.demandBounded ∧ (d.jog = true → ph = .holding) := by
  simpa only [Column.demandFits, Column.demandBounded, Column.speedBound, hl, hc, hd, hj] using h

theorem Column.demand_zero {c : Column} {ph : Phase} (hd : c.demand = 0) (hj : c.jog = true → ph = .holding) :
    c.demandFits ph ∧ c.demandBounded ∧ (c.jog = true → ph = .holding) := by
  simp only [Column.demandFits, Column.demandBounded, hd]
  exact ⟨⟨fun h => absurd h (lt_irrefl _), fun h => absurd h (lt_irrefl _)⟩, ⟨Nat.zero_le _, fun _ => trivial⟩, hj⟩

/-- In a phase without a moving column every demand is 0 and no jog is in progress (R128). -/
theorem State.demandsLawful.rest (h : s.demandsLawful) (hph : s.phase = .idle ∨ s.phase = .stopped) (p : Pos) :
    (s.col p).demand = 0 ∧ (s.col p).jog = false := by
  obtain ⟨⟨hup, hdown⟩, -, hjog⟩ := h p
  constructor
  · by_contra hne
    rcases lt_or_gt_of_ne hne with hlt | hgt
    · rcases hph with hph | hph <;> rcases hdown hlt with h | h | h <;> simp [hph] at h
    · rcases hph with hph | hph <;> rcases hup hgt with h | h | h <;> simp [hph] at h
  · by_contra hne
    have := hjog (by simpa using hne)
    rcases hph with hph | hph <;> simp [hph] at this

theorem State.imagePhase_congr (hph : t.phase = s.phase) (hr : t.stop.record = s.stop.record) : t.imagePhase = s.imagePhase := by
  unfold State.imagePhase
  rw [hph, hr]

theorem State.columnsWell_congr (hroster : t.roster = s.roster) (hph : t.phase = s.phase) (hr : t.stop.record = s.stop.record)
    (hcols : ∀ p, (t.col p).contact = (s.col p).contact ∧ (t.col p).offset = (s.col p).offset ∧ ((s.col p).inRange → (t.col p).inRange))
    (h : s.columnsWell) : t.columnsWell := by
  intro p
  obtain ⟨hrange, hinvalid, hidle⟩ := h p
  obtain ⟨hcontact, hoffset, hin⟩ := hcols p
  have hrest : (s.col p).atRest → (t.col p).atRest := fun h => ⟨hcontact.trans h.1, hoffset.trans h.2⟩
  refine ⟨hin hrange, fun hv => hrest (hinvalid ?_), fun hi => hrest (hidle ?_)⟩
  · rwa [State.validPos_congr hroster] at hv
  · rwa [State.imagePhase_congr hph hr] at hi

theorem State.mirrored_congr (hp : t.power = s.power) (hroster : t.roster = s.roster)
    (hdrops : ∀ g d, (t.drop g d).link = (s.drop g d).link ∧ (t.drop g d).cap = (s.drop g d).cap)
    (hcols : ∀ p, (t.col p).link = (s.col p).link ∧ (t.col p).cap = (s.col p).cap) (h : s.mirrored) : t.mirrored := by
  obtain ⟨hentries, henrolled, habsent⟩ := h
  refine ⟨fun p => ⟨fun e he => ?_, fun he => ?_⟩, fun g d hl => ?_, fun hn g d => ?_⟩
  · rw [State.entry_congr hroster] at he
    obtain ⟨h1, h2⟩ := (hentries p).1 e he
    exact ⟨((hcols p).1.trans h1).trans (hdrops _ _).1.symm, ((hcols p).2.trans h2).trans (hdrops _ _).2.symm⟩
  · rw [State.entry_congr hroster] at he
    obtain ⟨h1, h2⟩ := (hentries p).2 he
    exact ⟨(hcols p).1.trans h1, (hcols p).2.trans h2⟩
  · rw [State.mappedAt_congr hroster]
    exact henrolled g d ((hdrops g d).1.symm.trans hl)
  · exact (hdrops g d).1.trans (habsent (hp ▸ hn) g d)

/-! ### What is steady keeps the laws -/

namespace State.steady

theorem lawful (h : s.steady t) (hs : s.lawful) : t.lawful := by
  have hstop : t.stop = s.stop := State.stop_of_course h.course
  refine ⟨State.stopsSafe_congr (by rw [hstop]) (by rw [hstop]) (by rw [hstop]) h.phase h.power hs.stops, fun p => ?_⟩
  have hc := h.cols p
  rw [h.phase]
  exact Column.demand_congr hc.link hc.cap hc.demand hc.jog (hs.demands p)

/-- The laws of every segment. -/
theorem fine_of {s : State} (hf : s.founded) (hp : s.paced) (g : SegId) : (s.seg g).fine s.phase.isMotion :=
  ⟨fun h => hp.polling h g, hf.echo.2 g, fun d => hf.drops g d⟩

theorem founded (h : s.steady t) (hs : s.founded) (hp : s.paced) : t.founded := by
  have hstop : t.stop = s.stop := State.stop_of_course h.course
  have hplan : t.plan = s.plan := State.plan_of_course h.course
  have href : t.ref = s.ref := State.ref_of_course h.course
  have hfine := fun g => (h.segs g).fine (fine_of hs hp g)
  refine ⟨by rw [hplan]; exact hs.plan, by rw [State.limitsInRange, h.limits]; exact hs.limits, by rw [href]; exact hs.fine,
    by rw [href]; exact hs.target, ⟨fun g g' hg hg' => hs.echo.1 g g' ((h.segs g).echo hg) ((h.segs g').echo hg'), fun g => (hfine g).quiet⟩,
    by rw [State.rosterWell, h.roster]; exact hs.roster, fun g d => (hfine g).drops d, ?_, fun p hv hl hk => ?_, ?_⟩
  · exact State.mirrored_congr h.power h.roster (fun g d => ⟨(h.segs g).link d, (h.segs g).cap d⟩)
      (fun p => ⟨(h.cols p).link, (h.cols p).cap⟩) hs.mirrored
  · rw [State.validPos_congr h.roster] at hv
    rw [(h.cols p).link] at hl
    rw [(h.cols p).contact] at hk
    rw [h.roster]
    exact hs.contacts p hv hl hk
  · exact State.columnsWell_congr h.roster h.phase (by rw [hstop])
      (fun p => ⟨(h.cols p).contact, (h.cols p).offset, (h.cols p).range⟩) hs.columns

theorem groupReady (h : s.steady t) (hs : s.groupReady) : t.groupReady := by
  intro p hv
  rw [State.validPos_congr h.roster] at hv
  rw [h.phase, (h.cols p).link, (h.cols p).contact]
  exact hs p hv

theorem paced (h : s.steady t) (hf : s.founded) (hs : s.paced) : t.paced := by
  have href : t.ref = s.ref := State.ref_of_course h.course
  have hpause : t.pausePending = s.pausePending := State.pausePending_of_course h.course
  refine ⟨by rw [href, h.phase]; exact hs.still, by rw [href, h.phase]; exact hs.speed, ?_, fun hm g => ?_, h.groupReady hs.ready,
    by rw [h.phase, h.roster]; exact hs.approach⟩
  · rw [State.timersWell, href, h.phase, hpause]
    exact hs.timers
  · rw [h.phase] at hm
    exact ((h.segs g).fine (fine_of hf hs g)).polled hm

theorem onLeg (h : s.steady t) (hs : s.onLeg) : t.onLeg := by
  rw [State.onLeg, h.phase, State.ref_of_course h.course, State.plan_of_course h.course]
  exact hs

theorem upright (h : s.steady t) (hs : s.upright full) : t.upright full :=
  ⟨h.lawful hs.lawful, fun hf => h.founded (hs.founded hf) (hs.paced hf), fun hf => h.paced (hs.founded hf) (hs.paced hf)⟩

theorem sound (h : s.steady t) (hs : s.sound full) : t.sound full :=
  ⟨h.upright hs.toupright, fun hf => h.onLeg (hs.onLeg hf)⟩

end State.steady

end Sys2Proof.Machine

/-! The laws at a stop and at a phase change: a first stop makes every demand 0 and needs no law of the phase it leaves, and a phase change
needs the group to be ready for the new phase (R63, R64, R148, R149). -/

namespace Sys2Proof.Machine

set_option Elab.async false

variable {s t : State} {full : Prop} {o : Offer} {new : Phase}

/-! ### A first stop (R148) -/

theorem Segment.steady.echoAborted (motion : Bool) (a : Segment) : a.steady motion a.echoAborted := by
  rw [← Segment.abortedEcho_whole]
  unfold Segment.abortedEcho
  split
  · exact .refl a
  · exact (Segment.steady.withLastEcho a _).trans (.resume _)

theorem Segment.echoAborted_echo (a : Segment) : a.echoAborted.echo = .none := by
  unfold Segment.echoAborted
  split
  · next h => cases he : a.echo <;> simp [he, EchoTest.cable] at h ⊢
  · rfl

theorem State.fine_of_founded (hf : s.founded) (g : SegId) : (s.seg g).fine false :=
  ⟨nofun, hf.echo.2 g, fun d => hf.drops g d⟩

theorem State.lawful_of_stop (h : s.takesFirstStop t o) (hp : s.power = .running) (hph : s.phase ≠ .stopped) : t.lawful := by
  have hpower : t.power = .running := (congrArg State.power h.kept :).trans hp
  refine ⟨⟨⟨?_, ?_, fun hn => absurd hpower hn⟩, fun r hr => ?_⟩, fun p => ?_⟩
  · rw [h.record, h.phase]
    simp
  · rw [h.stopOut, h.phase]
    simp
  · rw [h.record] at hr
    obtain rfl := Option.some.inj hr
    exact ⟨by rw [h.further]; exact Table.get_fill _ _, hph⟩
  · obtain ⟨hdemand, hjog⟩ := h.demands p
    exact Column.demand_zero hdemand fun hj => absurd (hj.symm.trans hjog) nofun

/-- What the laws look at in a column after a first stop. -/
theorem State.takesFirstStop.column (h : s.takesFirstStop t o) (p : Pos) :
    (t.col p).link = (s.col p).link ∧ (t.col p).cap = (s.col p).cap ∧ (t.col p).contact = (s.col p).contact ∧
      (t.col p).offset = (s.col p).offset ∧ ((s.col p).inRange → (t.col p).inRange) := by
  have hlink := (congrArg Column.link (h.columns p) :)
  have hcap := (congrArg Column.cap (h.columns p) :)
  have hcontact := (congrArg Column.contact (h.columns p) :)
  have hoffset := (congrArg Column.offset (h.columns p) :)
  have hheight := (congrArg Column.height (h.columns p) :)
  have hload := (congrArg Column.load (h.columns p) :)
  dsimp only at hlink hcap hcontact hoffset hheight hload
  refine ⟨hlink, hcap, hcontact, hoffset, fun hr => ?_⟩
  simpa only [Column.inRange, hcontact, hoffset, hheight, hload] using hr

theorem State.founded_of_stop (h : s.takesFirstStop t o) (hf : s.founded) : t.founded := by
  have hpower : t.power = s.power := (congrArg State.power h.kept :)
  have hroster : t.roster = s.roster := (congrArg State.roster h.kept :)
  have hplan : t.plan = s.plan := (congrArg State.plan h.kept :)
  have hlimits : t.limits = s.limits := (congrArg State.limits h.kept :)
  have hrefh : t.ref.h = s.ref.h := (congrArg Reference.h h.reference :)
  have hreff : t.ref.fine = s.ref.fine := (congrArg Reference.fine h.reference :)
  have hreft : t.ref.target = s.ref.target := (congrArg Reference.target h.reference :)
  have hline : ∀ g, (s.seg g).steady false (t.seg g) := fun g => by
    have hawake : (s.seg g).steady false ((s.seg g).awake (.running Config.quietEntryTime)) := .awake _ nofun
    rw [h.lines]
    exact (hawake.trans (.echoAborted _ _)).trans (.of_line nofun rfl rfl fun _ h1 h2 h3 => ⟨h1, h2, h3⟩)
  have hecho : ∀ g, (t.seg g).echo = .none := fun g => by
    rw [h.lines]
    exact Segment.echoAborted_echo _
  have hfine := fun g => (hline g).fine (State.fine_of_founded hf g)
  refine ⟨by rw [hplan]; exact hf.plan, by rw [State.limitsInRange, hlimits]; exact hf.limits, by rw [hrefh, hreff]; exact hf.fine,
    by rw [hreft]; exact hf.target, ⟨fun g _ hg => absurd (hecho g) hg, fun g => (hfine g).quiet⟩, by rw [State.rosterWell, hroster]; exact hf.roster,
    fun g d => (hfine g).drops d, ?_, fun p hv hl hk => ?_, fun p => ?_⟩
  · exact State.mirrored_congr hpower hroster (fun g d => ⟨(hline g).link d, (hline g).cap d⟩)
      (fun p => ⟨(h.column p).1, (h.column p).2.1⟩) hf.mirrored
  · obtain ⟨hlink, -, hcontact, -, -⟩ := h.column p
    rw [hlink] at hl
    rw [hcontact] at hk
    rw [State.validPos_congr hroster] at hv
    rw [hroster]
    exact hf.contacts p hv hl hk
  · obtain ⟨-, -, hcontact, hoffset, hin⟩ := h.column p
    obtain ⟨hrange, hinvalid, hidle⟩ := hf.columns p
    have hrest : (s.col p).atRest → (t.col p).atRest := fun h => ⟨hcontact.trans h.1, hoffset.trans h.2⟩
    have hat : t.imagePhase = s.phase := by
      unfold State.imagePhase
      rw [h.phase, h.record]
    refine ⟨hin hrange, fun hv => hrest (hinvalid ?_), fun hi => hrest (hidle ?_)⟩
    · rwa [State.validPos_congr hroster] at hv
    · unfold State.imagePhase
      rw [← hat, hi]

/-- In a phase in which nothing moves, with no contact needed, the laws of the phase are those of the speed and the timers. -/
theorem State.paced_of_rest (hph : t.phase = .idle ∨ t.phase = .stopped) (hv : t.ref.vEff = 0) (hs : t.ref.stepTimer = .stopped)
    (hd : t.ref.dwellTimer = .stopped) (hpause : t.pausePending = false) : t.paced := by
  have hleg : t.phase.isLeg = false := by rcases hph with h | h <;> rw [h] <;> rfl
  refine ⟨fun _ => hv, fun _ _ _ => by rw [hv]; exact Nat.zero_le _, ⟨?_, ?_, ?_⟩, fun hm => ?_, fun p _ => ⟨fun h1 h2 => ?_, fun hc => ?_⟩,
    fun ha => ?_⟩
  · rw [hs, hleg]
    simp
  · rw [hd]
    rcases hph with h | h <;> rw [h] <;> simp
  · rw [hpause]
    nofun
  · rcases hph with h | h <;> rw [h] at hm <;> cases hm
  · exact (hph.elim h1 h2).elim
  · rcases hph with h | h <;> rw [h] at hc <;> cases hc
  · rcases hph with h | h <;> rw [h] at ha <;> cases ha

theorem State.onLeg_of_not (h : t.phase.isLeg = false) : t.onLeg :=
  fun hl => absurd (hl.symm.trans h) nofun

/-- A first stop needs the laws that hold in every phase alone, and gives them all. -/
theorem State.sound_of_stop (h : s.takesFirstStop t o) (hp : s.power = .running) (hph : s.phase ≠ .stopped) (hf : full → s.founded) :
    t.sound full :=
  ⟨⟨State.lawful_of_stop h hp hph, fun hfull => State.founded_of_stop h (hf hfull),
    fun _ => State.paced_of_rest (.inr h.phase) h.halted.1 h.halted.2.1 h.halted.2.2 h.pause⟩,
    fun _ => State.onLeg_of_not (by rw [h.phase]; rfl)⟩

theorem State.sound_firstStop (o : Offer) (hp : s.power = .running) (hph : s.phase ≠ .stopped) (hf : full → s.founded) :
    (s.firstStop o).sound full :=
  State.sound_of_stop (State.firstStop_spec s o hp hph) hp hph hf

/-! ### A further cause (R149) -/

/-- An update of the stop unit that keeps its record keeps the laws that hold in every phase, and those of the phase. -/
theorem State.sound.withStop {u : StopUnit} (h : s.sound full) (hr : u.record = s.stop.record) (hout : u.stopOut = s.stop.stopOut)
    (hfurther : ∀ r ∈ s.stop.record, u.further.get r.cause.code = false) : ({ s with stop := u } : State).sound full := by
  refine ⟨⟨⟨⟨?_, fun r hr' => ?_⟩, h.lawful.demands⟩, fun hf => ?_, fun hf => ?_⟩, h.onLeg⟩
  · have := h.lawful.stops.1
    simpa only [State.stopsWell, hr, hout] using this
  · have hr'' : r ∈ s.stop.record := hr ▸ hr'
    exact ⟨hfurther r hr'', (h.lawful.stops.2 r hr'').2⟩
  · have hs := h.founded hf
    exact ⟨hs.plan, hs.limits, hs.fine, hs.target, hs.echo, hs.roster, hs.drops, hs.mirrored, hs.contacts,
      State.columnsWell_congr (s := s) rfl rfl hr (fun p => ⟨rfl, rfl, id⟩) hs.columns⟩
  · have hs := h.paced hf
    exact ⟨hs.still, hs.speed, hs.timers, hs.polling, hs.ready, hs.approach⟩

theorem State.sound.setStopIn (h : s.sound full) (c : Contact) : (s.setStopIn c).sound full :=
  h.withStop rfl rfl fun r hr => (h.lawful.stops.2 r hr).1

theorem State.sound.offerStop (h : s.sound full) (o : Offer) : (s.offerStop o).sound full := by
  by_cases hp : s.power = .running
  · by_cases hph : s.phase = .stopped
    · rw [State.offerStop_further s o hp hph]
      split
      · exact h
      · next hne =>
        refine h.withStop rfl rfl fun r hr => ?_
        have hcause : r.cause ≠ o.cause := fun he => hne (by
          unfold StopUnit.recordCause
          rw [show s.stop.record = some r from hr, ← he]
          rfl)
        rw [Table.get_set_of_ne _ _ fun he => hcause (StopCause.code_injective he)]
        exact (h.lawful.stops.2 r hr).1
    · rw [State.offerStop_first s o hp hph]
      exact State.sound_firstStop o hp hph h.founded
  · rwa [State.offerStop_unread s o hp]

theorem State.sound.offerAll (os : List Offer) : ∀ {s : State}, s.sound full → (s.offerAll os).sound full := by
  induction os with
  | nil => exact id
  | cons o os ih => exact fun h => ih (h.offerStop o)

/-! ### A phase change (R64, R65) -/

/-- The group is ready for a phase: its columns are enrolled and hold the contacts that the phase needs, and the roster is confirmed for an
approach (R63, R67). -/
structure State.readyFor (s : State) (ph : Phase) : Prop where
  links : ∀ p, s.validPos p = true → ph ≠ .idle → ph ≠ .stopped → (s.col p).link = .enrolled
  contacts : ∀ p, s.validPos p = true → ph.hasContacts = true → (s.col p).contact.isSome = true
  confirmed : ph = .approach → s.roster.confirmed = true

theorem State.paced.readyFor (h : s.paced) : s.readyFor s.phase :=
  ⟨fun p hv => (h.ready p hv).1, fun p hv => (h.ready p hv).2, h.approach⟩

/-- A group ready for a phase with contacts is ready for every phase but APPROACH. -/
theorem State.readyFor.other {ph : Phase} (h : s.readyFor ph) (hc : ph.hasContacts = true) (hnew : new ≠ .approach) : s.readyFor new := by
  have hgroup : ph ≠ .idle ∧ ph ≠ .stopped := by
    constructor
    all_goals
      rintro rfl
      cases hc
  exact ⟨fun p hv _ _ => h.links p hv hgroup.1 hgroup.2, fun p hv _ => h.contacts p hv hc, fun ha => absurd ha hnew⟩

theorem State.readyFor_idle (s : State) : s.readyFor .idle :=
  ⟨fun _ _ h => absurd rfl h, nofun, nofun⟩

theorem State.readyFor.congr (h : s.readyFor new) (hroster : t.roster = s.roster) (hcols : t.cols = s.cols) : t.readyFor new := by
  refine ⟨fun p hv => ?_, fun p hv => ?_, by rw [hroster]; exact h.confirmed⟩
  · rw [State.col_congr hcols]
    exact h.links p (by rwa [State.validPos_congr hroster] at hv)
  · rw [State.col_congr hcols]
    exact h.contacts p (by rwa [State.validPos_congr hroster] at hv)

/-- After a change of a state without a stop record and with STOP_OUT closed the laws of the stop unit and of the demands hold. -/
theorem State.lawful_of_change (h : s.changesPhase t new) (hp : s.power = .running) (hr : s.stop.record = none)
    (hout : s.stop.stopOut ≠ .opened) (hnew : new ≠ .stopped) : t.lawful := by
  have hpower : t.power = .running := (congrArg State.power h.kept :).trans hp
  have hstop : t.stop = s.stop := (congrArg State.stop h.kept :)
  refine ⟨⟨⟨?_, ?_, fun hn => absurd hpower hn⟩, fun r hr' => ?_⟩, fun p => ?_⟩
  · rw [hstop, hr, h.phase]
    simp [hnew]
  · rw [hstop, h.phase, hpower]
    simp [hnew, hout]
  · rw [hstop, hr] at hr'
    cases hr'
  · rw [h.columns]
    exact Column.demand_zero rfl nofun

theorem State.founded_of_change (h : s.changesPhase t new) (hf : s.founded) (hnew : new ≠ .stopped) : t.founded := by
  have hpower : t.power = s.power := (congrArg State.power h.kept :)
  have hroster : t.roster = s.roster := (congrArg State.roster h.kept :)
  have hlimits : t.limits = s.limits := (congrArg State.limits h.kept :)
  have hline : ∀ g, (s.seg g).steady false (t.seg g) := fun g => by
    rw [h.polling]
    exact Segment.steady.awake _ nofun
  have hfine := fun g => (hline g).fine (State.fine_of_founded hf g)
  refine ⟨?_, by rw [State.limitsInRange, hlimits]; exact hf.limits, ?_, ?_,
    ⟨fun g g' hg hg' => hf.echo.1 g g' ((hline g).echo hg) ((hline g').echo hg'), fun g => (hfine g).quiet⟩,
    by rw [State.rosterWell, hroster]; exact hf.roster, fun g d => (hfine g).drops d, ?_, fun p hv hl hk => ?_, fun p => ?_⟩
  · rw [h.plan]
    split
    · obtain ⟨hcount, -, hlegs⟩ := Plan.well_iff.mp hf.plan
      exact Plan.well_iff.mpr ⟨hcount, Nat.zero_le _, hlegs⟩
    · exact hf.plan
  · rw [h.reference]
    unfold Reference.changed
    dsimp only
    split
    · exact ⟨rfl, by omega⟩
    · exact hf.fine
  · rw [h.reference]
    unfold Reference.changed
    dsimp only
    split
    · nofun
    · exact hf.target
  · refine State.mirrored_congr hpower hroster (fun g d => ⟨(hline g).link d, (hline g).cap d⟩) (fun p => ?_) hf.mirrored
    rw [h.columns]
    exact ⟨rfl, rfl⟩
  · rw [State.validPos_congr hroster] at hv
    rw [h.columns] at hl hk
    rw [hroster]
    refine hf.contacts p hv hl ?_
    simp only [Column.changed] at hk
    split at hk
    · cases hk
    · exact hk
  · obtain ⟨⟨hheight, hload, hcontact, hlow, hhigh⟩, hinvalid, -⟩ := hf.columns p
    have himage : t.imagePhase = new := by
      rw [← h.phase]
      exact State.imagePhase_of_ne (h.phase ▸ hnew)
    rw [himage, State.validPos_congr hroster, h.columns]
    by_cases hi : new = .idle
    · have hrest : ((s.col p).changed s.phase new).contact = none ∧ ((s.col p).changed s.phase new).offset = 0 :=
        ⟨if_pos hi, if_pos hi⟩
      exact ⟨⟨hheight, hload, by rw [hrest.1]; nofun, by rw [hrest.2]; omega, by rw [hrest.2]; omega⟩, fun _ => hrest, fun _ => hrest⟩
    · have hsame : ((s.col p).changed s.phase new).contact = (s.col p).contact ∧
          ((s.col p).changed s.phase new).offset = (s.col p).offset := ⟨if_neg hi, if_neg hi⟩
      refine ⟨⟨hheight, hload, by rw [hsame.1]; exact hcontact, by rw [hsame.2]; exact hlow, by rw [hsame.2]; exact hhigh⟩,
        fun hv => ?_, fun h => absurd h hi⟩
      exact ⟨hsame.1.trans (hinvalid hv).1, hsame.2.trans (hinvalid hv).2⟩

/-- The laws of the new phase, with the timer of a leg or a dwell running already. -/
theorem State.paced_of_change (h : s.changesPhase t new) (hr : s.readyFor new) (hstep : new.isLeg = true → s.ref.stepTimer ≠ .stopped)
    (hdwell : new = .dwell → s.ref.dwellTimer ≠ .stopped) : t.paced := by
  have hroster : t.roster = s.roster := (congrArg State.roster h.kept :)
  have hv : t.ref.vEff = 0 := by rw [h.reference]; rfl
  refine ⟨fun _ => hv, fun _ _ _ => by rw [hv]; exact Nat.zero_le _, ⟨?_, ?_, fun hp => ?_⟩, fun hm g => ?_, fun p hv => ?_,
    fun ha => ?_⟩
  · rw [h.reference, h.phase]
    simp only [Reference.changed]
    split
    · next hl => exact ⟨fun _ => hl, fun _ => hstep hl⟩
    · next hl => exact ⟨fun hn => absurd rfl hn, fun h => absurd h hl⟩
  · rw [h.reference, h.phase]
    simp only [Reference.changed]
    split
    · next hd => exact ⟨fun _ => hd, fun _ => hdwell hd⟩
    · next hd => exact ⟨fun hn => absurd rfl hn, fun h => absurd h hd⟩
  · rw [h.pause] at hp
    cases hp
  · rw [h.phase] at hm
    rw [h.polling, if_pos hm]
    exact ⟨rfl, rfl⟩
  · rw [State.validPos_congr hroster] at hv
    rw [h.phase, h.columns]
    refine ⟨hr.links p hv, fun hc => ?_⟩
    have hi : new ≠ .idle := fun hi => by rw [hi] at hc; cases hc
    exact (congrArg Option.isSome (if_neg hi : ((s.col p).changed s.phase new).contact = _)).trans (hr.contacts p hv hc)
  · rw [hroster]
    exact hr.confirmed (h.phase.symm.trans ha)

theorem State.lawful.unstopped (h : s.lawful) (hp : s.power = .running) (hph : s.phase ≠ .stopped) :
    s.stop.record = none ∧ s.stop.stopOut ≠ .opened := by
  obtain ⟨⟨hrecord, hout, -⟩, -⟩ := h.stops
  refine ⟨Option.not_isSome_iff_eq_none.mp fun h => hph (hrecord.mp h), fun h => ?_⟩
  exact (hout.mp h).elim hph fun hn => hn hp

/-- A phase that is not STOPPED means that the image has been read, but for IDLE (R62). -/
theorem State.lawful.running (h : s.lawful) (hph : s.phase ≠ .idle) : s.power = .running :=
  not_not.mp fun hn => hph (h.stops.1.2.2 hn)

theorem State.sound_of_change (h : s.changesPhase t new) (hl : s.lawful) (hf : full → s.founded) (hp : s.power = .running)
    (hph : s.phase ≠ .stopped) (hnew : new ≠ .stopped) (hready : full → s.readyFor new) (hstep : new.isLeg = true → s.ref.stepTimer ≠ .stopped)
    (hdwell : new = .dwell → s.ref.dwellTimer ≠ .stopped) (honLeg : full → t.onLeg) : t.sound full := by
  obtain ⟨hr, hout⟩ := hl.unstopped hp hph
  exact ⟨⟨State.lawful_of_change h hp hr hout hnew, fun hfull => State.founded_of_change h (hf hfull) hnew,
    fun hf => State.paced_of_change h (hready hf) hstep hdwell⟩, honLeg⟩

/-- A change to a phase without a leg and without a dwell timer. -/
theorem State.sound_changePhase (hl : s.lawful) (hf : full → s.founded) (hp : s.power = .running) (hph : s.phase ≠ .stopped) (hne : s.phase ≠ new)
    (hnew : new ≠ .stopped) (hleg : new.isLeg = false) (hdwell : new ≠ .dwell) (hready : full → s.readyFor new) :
    (s.changePhase new).sound full := by
  have h := State.changePhase_spec s new hne hp
  exact State.sound_of_change h hl hf hp hph hnew hready (fun hl => absurd (hl.symm.trans hleg) nofun) (fun hd => absurd hd hdwell)
    fun _ => State.onLeg_of_not (by rw [h.phase]; exact hleg)

end Sys2Proof.Machine

/-! The laws through the lift: a leg's start and its completion, the dwell, the reference step and the two pauses (R70 to R75, R107 to
R112). -/

namespace Sys2Proof.Machine

set_option Elab.async false

variable {s t : State} {full : Prop} {down : Bool}

/-! ### Updates of the plan and of the reference -/

/-- The laws of O59 look at the stop unit, the phase, the power and the columns. -/
theorem State.lawful.congr (h : s.lawful) (hs : t.stop = s.stop) (hph : t.phase = s.phase) (hp : t.power = s.power)
    (hc : t.cols = s.cols) : t.lawful :=
  ⟨State.stopsSafe_congr (by rw [hs]) (by rw [hs]) (by rw [hs]) hph hp h.stops, fun p => by
    rw [State.col_congr hc, hph]
    exact h.demands p⟩

theorem State.founded.withPlan (h : s.founded) {p : Plan} (hp : p.well = true) : ({ s with plan := p } : State).founded :=
  ⟨hp, h.limits, h.fine, h.target, h.echo, h.roster, h.drops, h.mirrored, h.contacts, h.columns⟩

theorem State.founded.withRef (h : s.founded) {r : Reference} (hfine : r.h = r.fine / 100 ∧ r.fine ≤ 4000000)
    (htarget : ∀ t ∈ r.target, t ≤ 40000) : ({ s with ref := r } : State).founded :=
  ⟨h.plan, h.limits, hfine, htarget, h.echo, h.roster, h.drops, h.mirrored, h.contacts, h.columns⟩

/-! ### A leg's start (R70, R107) -/

/-- The leg in hand lies in its range, whichever it is (R101, R115). -/
theorem State.legFields_target (hp : s.plan.well = true) (down : Bool) : (s.legFields down).target ≤ 40000 := by
  obtain ⟨-, -, hlegs⟩ := Plan.well_iff.mp hp
  unfold State.legFields Plan.leg
  split
  · exact Nat.zero_le _
  · split
    · next hi =>
      have := hlegs ⟨s.plan.index, hi⟩
      simp only [Leg.inRange, Bool.and_eq_true, decide_eq_true_eq] at this
      exact this.1.1.1
    · exact Nat.zero_le _

/-- The reference of a leg that starts lies in its range. -/
theorem State.founded.legReference (h : s.founded) (down : Bool) {a : Timer} :
    ({ s with ref := { s.legReference down with stepTimer := a } } : State).founded := by
  have htarget : s.effectiveTarget down ≤ 40000 := (Nat.min_le_left _ _).trans (State.legFields_target h.plan down)
  refine h.withRef ?_ fun t ht => Option.some.inj ht ▸ htarget
  obtain ⟨hh, hfine⟩ := h.fine
  unfold State.legReference
  dsimp only
  split
  · next heq => exact ⟨by rw [← heq]; omega, by omega⟩
  · exact ⟨hh, hfine⟩

/-- A leg taken, with the step timer running, before its phase. -/
def State.legTaken (s : State) (down : Bool) : State :=
  (s.takeLeg down).runStepTimer

theorem State.legTaken_eq (s : State) (down : Bool) : ∃ n notices, s.legTaken down =
    { s with ref := { s.legReference down with stepTimer := .running Config.stepTime }, notices := notices, fresh := n } := by
  obtain ⟨n, hn, -⟩ := s.takeLeg_eq down
  refine ⟨n, (s.takeLeg down).notices, ?_⟩
  rw [State.legTaken, hn]
  rfl

/-- The step timer may be started before the change to the phase of a leg or after it. -/
theorem State.changesPhase.runStepTimer {new : Phase} (h : s.changesPhase t new) (hleg : new.isLeg = true) :
    s.runStepTimer.changesPhase t.runStepTimer new := by
  refine ⟨?_, h.phase, h.pause, h.columns, h.starts, h.plan, ?_, h.counts, h.spread, h.notices, h.written, h.polling⟩
  · exact congrArg (fun u : State => { u with ref := s.runStepTimer.ref }) h.kept
  · refine (congrArg (fun r : Reference => { r with stepTimer := .running Config.stepTime }) h.reference).trans ?_
    simp only [Reference.changed, State.runStepTimer, if_pos hleg]

/-- The start of a leg is the change to its phase of the state in which the leg has been taken, where the phase is another. -/
theorem State.startLeg_changes (hp : s.power = .running) (hne : s.phase ≠ (s.legReference down).dir.phase) :
    (s.legTaken down).changesPhase (s.startLeg down) (s.legReference down).dir.phase := by
  obtain ⟨n, hn, -⟩ := s.takeLeg_eq down
  have href : (s.takeLeg down).ref = s.legReference down := by rw [hn]
  have h := State.changePhase_spec (s.takeLeg down) (s.legReference down).dir.phase (by rw [hn]; exact hne) (by rw [hn]; exact hp)
  rw [State.startLeg, href]
  exact h.runStepTimer (s.legReference down).dir.phase_isLeg

theorem State.startLeg_same (h : s.phase = (s.legReference down).dir.phase) : s.startLeg down = s.legTaken down := by
  obtain ⟨n, hn, -⟩ := s.takeLeg_eq down
  have hphase : (s.takeLeg down).ref.dir.phase = (s.takeLeg down).phase := by rw [hn]; exact h.symm
  unfold State.startLeg State.legTaken
  dsimp only
  rw [hphase, State.changePhase_self]

/-- A leg that starts in a phase with contacts, its index below n. -/
theorem State.upright.startLeg (hs : s.upright full) (hc : s.phase.hasContacts = true) (hindex : down = false → s.plan.index < s.plan.count) :
    (s.startLeg down).sound full := by
  have hgroup : s.phase ≠ .idle ∧ s.phase ≠ .stopped := by
    constructor
    all_goals
      intro h
      rw [h] at hc
      cases hc
  have hp := hs.lawful.running hgroup.1
  obtain ⟨n, notices, htaken⟩ := s.legTaken_eq down
  have hlawful : (s.legTaken down).lawful := hs.lawful.congr (by rw [htaken]) (by rw [htaken]) (by rw [htaken]) (by rw [htaken])
  have hfounded : full → (s.legTaken down).founded := fun hf => by
    have h := (hs.founded hf).legReference down (a := .running Config.stepTime)
    rw [htaken]
    exact ⟨h.plan, h.limits, h.fine, h.target, h.echo, h.roster, h.drops, h.mirrored, h.contacts, h.columns⟩
  have hsetDown : (s.legTaken down).ref.setDown = down := by rw [htaken]; rfl
  have hplan : (s.legTaken down).plan = s.plan := by rw [htaken]
  have hleg := (s.legReference down).dir.phase_isLeg
  have hdirs : ∀ d : Direction, d.phase ≠ .stopped ∧ d.phase ≠ .dwell ∧ d.phase ≠ .approach ∧ d.phase ≠ .idle ∧ d.phase ≠ .aligned := by
    rintro (_ | _) <;> decide
  obtain ⟨hns, hnd, hna, hni, hnal⟩ := hdirs (s.legReference down).dir
  by_cases hsame : s.phase = (s.legReference down).dir.phase
  · rw [State.startLeg_same hsame]
    have hphase : (s.legTaken down).phase = s.phase := by rw [htaken]
    refine ⟨⟨hlawful, hfounded, fun hf => ?_⟩, fun _ _ hd => ?_⟩
    · have h := hs.paced hf
      obtain ⟨-, hdwell, hpause⟩ := h.timers
      rw [htaken]
      refine ⟨fun _ => rfl, fun _ _ _ => Nat.zero_le _, ⟨⟨fun _ => hsame ▸ hleg, fun _ => nofun⟩, hdwell, hpause⟩, h.polling, h.ready, h.approach⟩
    · rw [hplan]
      exact hindex (hsetDown.symm.trans hd)
  · have h := State.startLeg_changes hp hsame
    have hsteady : ∀ x, s.readyFor x → (s.legTaken down).readyFor x := fun x hx =>
      hx.congr (by rw [htaken]) (by rw [htaken])
    refine State.sound_of_change h hlawful hfounded (by rw [htaken]; exact hp) (by rw [htaken]; exact hgroup.2)
      hns (fun hf => hsteady _ ((hs.paced hf).readyFor.other hc hna)) (fun _ => by rw [htaken]; nofun) (fun hd => absurd hd hnd) fun _ _ hd => ?_
    rw [h.plan, if_neg (not_or.mpr ⟨hni, hnal⟩), hplan]
    refine hindex ?_
    rw [← hsetDown, ← hd, h.reference]
    simp only [Reference.changed, if_neg hni]

/-! ### A leg's completion, the dwell and the step (R71 to R74, R109, R112) -/

/-- The phases of a leg and of a dwell, from which the lift goes on to a leg, a dwell or HOLDING (R71, R72). -/
theorem State.sound_holding (hs : s.upright full) (hph : s.phase.isLeg = true ∨ s.phase = .dwell) : (s.changePhase .holding).sound full := by
  have hfacts : s.phase.hasContacts = true ∧ s.phase ≠ .idle ∧ s.phase ≠ .stopped ∧ s.phase ≠ .holding := by
    rcases hph with h | h
    · rcases s.phase.isLeg_iff.mp h with h | h <;> rw [h] <;> decide
    · rw [h]
      decide
  obtain ⟨hc, hi, hns, hne⟩ := hfacts
  exact State.sound_changePhase hs.lawful hs.founded (hs.lawful.running hi) hns hne nofun rfl nofun fun hf =>
    (hs.paced hf).readyFor.other hc nofun

/-- What follows a dwell: the next leg, where one is left, or HOLDING (R72). -/
theorem State.upright.afterDwell (hs : s.upright full) (hph : s.phase.isLeg = true ∨ s.phase = .dwell) :
    (s.afterDwell.2 = true → (s.afterDwell.1.startLeg false).sound full) ∧ (s.afterDwell.2 = false → s.afterDwell.1.sound full) := by
  unfold State.afterDwell
  split
  · next hmore =>
    refine ⟨fun _ => ?_, nofun⟩
    refine hs.startLeg ?_ fun _ => of_decide_eq_true (Bool.and_eq_true_iff.mp hmore).2
    rcases hph with h | h
    · rcases s.phase.isLeg_iff.mp h with h | h <;> rw [h] <;> rfl
    · rw [h]
      rfl
  · exact ⟨nofun, fun _ => State.sound_holding hs hph⟩

theorem State.countLeg_kept (s : State) : s.countLeg.phase = s.phase ∧ s.countLeg.power = s.power := by
  have h := ((State.steady.refl ({ s with plan := { s.plan with index := s.plan.index + 1 } } : State)).raise .legDone).trigger
  exact ⟨h.phase, h.power⟩

/-- A plan leg that is complete is counted: its index was below n (R71). -/
theorem State.sound.countLeg (hs : s.sound full) (hleg : s.phase.isLeg = true) (hd : s.ref.setDown = false) : s.countLeg.upright full := by
  have hcounted : ({ s with plan := { s.plan with index := s.plan.index + 1 } } : State).upright full := by
    refine ⟨hs.lawful.congr rfl rfl rfl rfl, fun hf => (hs.founded hf).withPlan ?_, fun hf => ?_⟩
    · obtain ⟨hcount, -, hlegs⟩ := Plan.well_iff.mp (hs.founded hf).plan
      exact Plan.well_iff.mpr ⟨hcount, hs.onLeg hf hleg hd, hlegs⟩
    · have h := hs.paced hf
      exact ⟨h.still, h.speed, h.timers, h.polling, h.ready, h.approach⟩
  exact State.steady.upright (((State.steady.refl _).raise .legDone).trigger) hcounted

/-- A completed leg leads to LANDED, HOLDING, DWELL or the next leg (R71, R72, R79). -/
theorem State.sound.finishLeg (hs : s.sound full) (hleg : s.phase.isLeg = true) :
    (s.finishLeg.2 = true → (s.finishLeg.1.startLeg false).sound full) ∧ (s.finishLeg.2 = false → s.finishLeg.1.sound full) := by
  have hfacts : s.phase.hasContacts = true ∧ s.phase ≠ .idle ∧ s.phase ≠ .stopped ∧ s.phase ≠ .landed ∧ s.phase ≠ .dwell := by
    rcases s.phase.isLeg_iff.mp hleg with h | h <;> rw [h] <;> decide
  obtain ⟨hc, hi, hns, hnl, hnd⟩ := hfacts
  have hp := hs.lawful.running hi
  unfold State.finishLeg
  split
  · refine ⟨nofun, fun _ => ?_⟩
    have htold := ((State.steady.refl s).raise .legDone).upright hs.toupright
    exact State.sound_changePhase htold.lawful htold.founded hp hns hnl nofun rfl nofun fun hf => (htold.paced hf).readyFor.other hc nofun
  · next hd =>
    have hcount := hs.countLeg hleg (Bool.eq_false_iff.mpr hd)
    obtain ⟨hphase, hpower⟩ := s.countLeg_kept
    have hlegs : s.countLeg.phase.isLeg = true ∨ s.countLeg.phase = .dwell := .inl (hphase ▸ hleg)
    generalize s.countLeg = c at hcount hphase hpower hlegs
    dsimp only
    split
    · exact ⟨nofun, fun _ => State.sound_holding hcount hlegs⟩
    · split
      · refine ⟨nofun, fun _ => ?_⟩
        have h := State.startDwell_spec (s := c) (by rw [hphase]; exact hnd) (hpower.trans hp)
        refine State.sound_of_change h (hcount.lawful.congr rfl rfl rfl rfl)
          (fun hf => (hcount.founded hf).withRef (hcount.founded hf).fine (hcount.founded hf).target) (hpower.trans hp)
          (by rw [hphase]; exact hns) nofun (fun hf => ?_) nofun (fun _ => nofun) fun _ => State.onLeg_of_not (by rw [h.phase]; rfl)
        exact ((hcount.paced hf).readyFor.other (hphase.symm ▸ hc) (by decide)).congr rfl rfl
      · exact hcount.afterDwell hlegs

theorem State.sound.completeLegs (n : Nat) : ∀ {s : State}, s.sound full → (State.completeLegs n s).sound full := by
  induction n with
  | zero => exact id
  | succ n ih =>
    intro s hs
    unfold State.completeLegs
    split
    · next hcomplete =>
      obtain ⟨hnext, hlast⟩ := hs.finishLeg (s.phase.isLeg_iff.mpr (State.legComplete_iff.mp hcomplete).1)
      split
      · next h => exact ih (hnext h)
      · next h => exact hlast (Bool.eq_false_iff.mpr h)
    · exact hs

theorem State.sound.testCompletion (hs : s.sound full) : s.testCompletion.sound full :=
  hs.completeLegs _

/-- The dwell timer's expiry (R72). -/
theorem State.sound.dwellExpiry (hs : s.sound full) : s.dwellExpiry.sound full := by
  unfold State.dwellExpiry
  split
  · next hph _ =>
    obtain ⟨hnext, hlast⟩ := hs.toupright.afterDwell (.inr hph)
    split
    · next h => exact (hnext h).testCompletion
    · next h => exact hlast (Bool.eq_false_iff.mpr h)
  · exact hs

/-! ### The reference step (R74, R109) -/

theorem toward_le {v target ramp bound : Nat} (hv : v ≤ bound) (ht : target ≤ bound) : toward v target ramp ≤ bound := by
  unfold toward natDistance
  split
  · exact ht
  · split <;> omega

theorem Reference.stepped_spec {r : Reference} {target goal ramp speed : Nat} (hv : r.vEff ≤ speed) (hg : goal ≤ speed)
    (hfine : r.h = r.fine / 100 ∧ r.fine ≤ 4000000) (ht : target ≤ 40000) :
    let n := r.stepped target goal ramp
    (n.h = n.fine / 100 ∧ n.fine ≤ 4000000) ∧ n.vEff ≤ speed ∧ n.target = r.target ∧ n.speed = r.speed ∧ n.setDown = r.setDown ∧
      n.stepTimer = r.stepTimer ∧ n.dwellTimer = r.dwellTimer := by
  intro n
  have hto := toward_le (ramp := ramp) hv hg
  have hn : n = r.stepped target goal ramp := rfl
  unfold Reference.stepped at hn
  dsimp only at hn
  split at hn
  · rw [hn]
    refine ⟨⟨?_, ?_⟩, Nat.zero_le _, rfl, rfl, rfl, rfl, rfl⟩
    · show target = 100 * target / 100
      omega
    · show 100 * target ≤ 4000000
      omega
  · next hnot =>
    rw [hn]
    refine ⟨⟨rfl, ?_⟩, hto, rfl, rfl, rfl, rfl, rfl⟩
    show ((r.fine : Int) + r.dir.sign * (toward r.vEff goal ramp : Int)).toNat ≤ 4000000
    obtain ⟨-, hmax⟩ := hfine
    cases hd : r.dir
    · have hbelow : ¬ 100 * (target : Int) ≤ (r.fine : Int) + 1 * (toward r.vEff goal ramp : Int) := fun h => by
        rw [hd] at hnot
        exact hnot (decide_eq_true h)
      simp only [Direction.sign]
      omega
    · simp only [Direction.sign]
      omega

theorem State.sound.stepReference (hs : s.sound full) (hleg : s.phase.isLeg = true) : s.stepReference.sound full := by
  unfold State.stepReference
  split
  · next target speed htarget hspeed =>
    refine ⟨⟨hs.lawful.congr rfl rfl rfl rfl, fun hf => ?_, fun hf => ?_⟩, fun hf => ?_⟩
    all_goals
      have hgoal : s.speedTarget speed ≤ speed := by
        unfold State.speedTarget
        split
        · exact le_refl _
        · exact Nat.zero_le _
      obtain ⟨hfine, hv, ht, hsp, hd, hst, hdw⟩ := Reference.stepped_spec (ramp := s.limit .ramp) ((hs.paced hf).speed speed hspeed hleg) hgoal
        (hs.founded hf).fine ((hs.founded hf).target target htarget)
    · exact (hs.founded hf).withRef hfine (by rw [ht]; exact (hs.founded hf).target)
    · have h := hs.paced hf
      obtain ⟨hstep, hdwell, hpause⟩ := h.timers
      refine ⟨fun hn => absurd (hleg.symm.trans hn) nofun, fun v hv' _ => ?_, ⟨?_, ?_, hpause⟩, h.polling, h.ready, h.approach⟩
      · dsimp only at hv' ⊢
        rw [hsp, hspeed] at hv'
        exact Option.some.inj hv' ▸ hv
      · dsimp only
        rw [hst]
        exact hstep
      · dsimp only
        rw [hdw]
        exact hdwell
    · intro hl hdown
      dsimp only at hdown
      rw [hd] at hdown
      exact hs.onLeg hf hl hdown
  · exact hs

theorem State.sound.testPause (hs : s.sound full) (hleg : s.phase.isLeg = true) : s.testPause.sound full := by
  unfold State.testPause
  split
  · exact State.sound_holding hs.toupright (.inl hleg)
  · exact hs

theorem State.phase_stepReference (s : State) : s.stepReference.phase = s.phase := by
  unfold State.stepReference
  split <;> rfl

/-- A reference step expiry with its two tests (R74, R109). -/
theorem State.sound.referenceStep (hs : s.sound full) : s.referenceStep.sound full := by
  unfold State.referenceStep
  split
  · next hleg _ =>
    split
    · exact hs.testPause hleg
    · have hstep := hs.stepReference hleg
      unfold State.afterStep
      split
      · exact hstep.testCompletion
      · exact hstep.testPause (by rw [State.phase_stepReference]; exact hleg)
  · exact hs

end Sys2Proof.Machine

/-! The laws at a change of a drop: a reply, a miss and the settle timer (R30, R46 to R59). -/

namespace Sys2Proof.Machine

set_option Elab.async false

variable {s t : State} {full : Prop} {g : SegId} {d : DropId} {x : Drop} {n : Table NoticeState 4} {moved copied : Prop}

/-! ### The lines under a wake -/

/-- A line with or without a wake: but for its drops it is steady. -/
theorem State.stirs.line {held : Pos → Prop} {a : Prop} (h : s.stirs t a held) (g : SegId) :
    (s.seg g).steady s.phase.isMotion { t.seg g with drops := (s.seg g).drops } := by
  by_cases hm : s.power = .running ∧ a
  · rw [(h.awake hm.1 hm.2).1 g]
    exact .awake _ fun h => if_pos h
  · rw [(h.asleep hm).1 g]
    exact .refl _

/-- The law of the echo tests where the drops of a line with a running test have no settle timer (R40). -/
theorem State.stirs.echoWell {held : Pos → Prop} {a : Prop} (h : s.stirs t a held) (hs : s.founded)
    (hsettle : ∀ g, (s.seg g).echo.code = 2 → ∀ d, (t.drop g d).settle = .stopped) : t.echoWell := by
  have hecho : ∀ g, (t.seg g).echo = (s.seg g).echo := fun g => by
    by_cases hm : s.power = .running ∧ a
    · exact (congrArg Segment.echo ((h.awake hm.1 hm.2).1 g) :)
    · exact (congrArg Segment.echo ((h.asleep hm).1 g) :)
  refine ⟨fun g g' hg hg' => hs.echo.1 g g' (hecho g ▸ hg) (hecho g' ▸ hg'), fun g hrun => ?_⟩
  have hquiet : ({ t.seg g with drops := (s.seg g).drops } : Segment).echoQuiet := by
    by_cases hm : s.power = .running ∧ a
    · rw [(h.awake hm.1 hm.2).1 g]
      exact ((Segment.steady.awake (motion := false) _ nofun).fine (State.fine_of_founded hs g)).quiet
    · rw [(h.asleep hm).1 g]
      exact hs.echo.2 g
  obtain ⟨h1, h2, h3, -⟩ := hquiet hrun
  exact ⟨h1, h2, h3, hsettle g (hecho g ▸ hrun)⟩

theorem State.stirs.pollingWell {held : Pos → Prop} {a : Prop} (h : s.stirs t a held) (hf : s.founded) (hp : s.paced) : t.pollingWell := by
  intro hm g
  rw [h.phase] at hm
  exact ((h.line g).fine (State.steady.fine_of hf hp g)).polled hm

/-! ### One drop changed -/

namespace State.redrops

/-- What a change of a drop leaves of the rest of the state. -/
theorem fields (h : s.redrops t g d x n moved copied) : t.power = s.power ∧ t.phase = s.phase ∧ t.roster = s.roster ∧ t.plan = s.plan ∧
    t.ref = s.ref ∧ t.limits = s.limits ∧ t.stop = s.stop ∧ t.pausePending = s.pausePending :=
  ⟨(congrArg State.power h.kept :), (congrArg State.phase h.kept :), (congrArg State.roster h.kept :), (congrArg State.plan h.kept :),
    (congrArg State.ref h.kept :), (congrArg State.limits h.kept :), (congrArg State.stop h.kept :), (congrArg State.pausePending h.kept :)⟩

/-- A column after a change of a drop: its copy of the drop, and nothing else of what the laws look at. -/
theorem column (h : s.redrops t g d x n moved copied) (p : Pos) :
    ((t.col p).demand = (s.col p).demand ∧ (t.col p).jog = (s.col p).jog ∧ (t.col p).contact = (s.col p).contact ∧
      (t.col p).offset = (s.col p).offset ∧ ((s.col p).inRange → (t.col p).inRange)) ∧
    (s.mappedAt g d = some p → copied → (t.col p).link = x.link ∧ (t.col p).cap = x.cap) ∧
    (s.mappedAt g d ≠ some p ∨ ¬ copied → (t.col p).link = (s.col p).link ∧ (t.col p).cap = (s.col p).cap) := by
  have hparts : ∀ c : Column, { t.col p with creep := (s.col p).creep } = c → c.demand = (s.col p).demand → c.jog = (s.col p).jog →
      c.contact = (s.col p).contact → c.offset = (s.col p).offset → c.height = (s.col p).height → c.load = (s.col p).load →
      (t.col p).demand = (s.col p).demand ∧ (t.col p).jog = (s.col p).jog ∧ (t.col p).contact = (s.col p).contact ∧
        (t.col p).offset = (s.col p).offset ∧ ((s.col p).inRange → (t.col p).inRange) := by
    rintro c rfl h1 h2 h3 h4 h5 h6
    dsimp only at h1 h2 h3 h4 h5 h6
    refine ⟨h1, h2, h3, h4, fun hr => ?_⟩
    simpa only [Column.inRange, h3, h4, h5, h6] using hr
  by_cases hm : s.mappedAt g d = some p ∧ copied
  · have hcol := h.copies p hm.1 hm.2
    exact ⟨hparts _ hcol rfl rfl rfl rfl rfl rfl, fun _ _ => ⟨(congrArg Column.link hcol :), (congrArg Column.cap hcol :)⟩,
      fun hn => (hn.elim (fun h => h hm.1) fun h => h hm.2).elim⟩
  · have hn : s.mappedAt g d ≠ some p ∨ ¬ copied := not_and_or.mp hm
    have hcol := h.cols p hn
    exact ⟨hparts _ hcol rfl rfl rfl rfl rfl rfl, fun h1 h2 => absurd ⟨h1, h2⟩ hm,
      fun _ => ⟨(congrArg Column.link hcol :), (congrArg Column.cap hcol :)⟩⟩

/-- The laws of O59 at a change of a drop whose column does not move, or shows the drop as it will be. -/
theorem lawful (h : s.redrops t g d x n moved copied) (hs : s.lawful)
    (hd : ∀ p, s.mappedAt g d = some p → (s.col p).demand = 0 ∨ (s.col p).link = x.link ∧ (s.col p).cap = x.cap) : t.lawful := by
  obtain ⟨hpower, hphase, -, -, -, -, hstop, -⟩ := h.fields
  refine ⟨State.stopsSafe_congr (by rw [hstop]) (by rw [hstop]) (by rw [hstop]) hphase hpower hs.stops, fun p => ?_⟩
  obtain ⟨⟨hdemand, hjog, -⟩, hcopy, hsame⟩ := h.column p
  rw [hphase]
  by_cases hm : s.mappedAt g d = some p ∧ copied
  · obtain ⟨hlink, hcap⟩ := hcopy hm.1 hm.2
    rcases hd p hm.1 with hz | ⟨hl, hc⟩
    · refine Column.demand_zero (hdemand.trans hz) fun hj => ?_
      exact (hs.demands p).2.2 (hjog ▸ hj)
    · exact Column.demand_congr (hlink.trans hl.symm) (hcap.trans hc.symm) hdemand hjog (hs.demands p)
  · have hn : s.mappedAt g d ≠ some p ∨ ¬ copied := not_and_or.mp hm
    obtain ⟨hlink, hcap⟩ := hsame hn
    exact Column.demand_congr hlink hcap hdemand hjog (hs.demands p)

/-- The laws of every phase at a change of a drop that is well, whose column shows it, and which is ENROLLED only where it may be. -/
theorem founded (h : s.redrops t g d x n moved copied) (hs : s.founded) (hp : s.power = .running) (hwell : x.well)
    (hcopied : copied ∨ x.link = (s.drop g d).link ∧ x.cap = (s.drop g d).cap)
    (hsettle : (s.seg g).echo.code = 2 → x.settle = .stopped)
    (henrol : x.link = .enrolled → ∃ p, s.mappedAt g d = some p ∧ ((s.col p).contact.isSome = true → s.roster.confirmed = true)) :
    t.founded := by
  obtain ⟨hpower, hphase, hroster, hplan, href, hlimits, hstop, -⟩ := h.fields
  have hdrop : ∀ g' d', t.drop g' d' = if g' = g ∧ d' = d then x else s.drop g' d' := fun g' d' => by
    split
    · next e => rw [e.1, e.2]; exact h.drop
    · next e => exact h.drops g' d' e
  have hmapped := State.mappedAt_congr hroster
  have hmirror : ∀ p, s.mappedAt g d = some p → (t.col p).link = x.link ∧ (t.col p).cap = x.cap := fun p hm => by
    obtain ⟨-, hcopy, hsame⟩ := h.column p
    by_cases hc : copied
    · exact hcopy hm hc
    · obtain ⟨hlink, hcap⟩ := hsame (.inr hc)
      obtain ⟨e, he, rfl, rfl⟩ := State.entry_of_mappedAt hm
      obtain ⟨h1, h2⟩ := (hs.mirrored.1 p).1 e he
      obtain ⟨h3, h4⟩ := hcopied.resolve_left hc
      exact ⟨(hlink.trans h1).trans h3.symm, (hcap.trans h2).trans h4.symm⟩
  refine ⟨by rw [hplan]; exact hs.plan, by rw [State.limitsInRange, hlimits]; exact hs.limits, by rw [href]; exact hs.fine,
    by rw [href]; exact hs.target, h.stirs.echoWell hs fun g' hrun d' => ?_, by rw [State.rosterWell, hroster]; exact hs.roster,
    fun g' d' => ?_, ⟨fun p => ⟨fun e he => ?_, fun he => ?_⟩, fun g' d' hl => ?_, fun hn => absurd (hpower.trans hp) hn⟩,
    fun p hv hl hk => ?_, ?_⟩
  · rw [hdrop]
    split
    · next e => exact hsettle (e.1 ▸ hrun)
    · exact (hs.echo.2 g' hrun).2.2.2 d'
  · rw [hdrop]
    split
    · exact hwell
    · exact hs.drops g' d'
  · rw [State.entry_congr hroster] at he
    rw [hdrop]
    split
    · next hgd =>
      obtain ⟨rfl, rfl⟩ := hgd
      exact hmirror p (State.mappedAt_of_entry hs.roster.1 he)
    · next hgd =>
      obtain ⟨-, -, hsame⟩ := h.column p
      have hn : s.mappedAt g d ≠ some p := fun hm => hgd (by
        obtain ⟨e', he', h1, h2⟩ := State.entry_of_mappedAt hm
        obtain rfl := Option.some.inj (he.symm.trans he')
        exact ⟨h1, h2⟩)
      obtain ⟨hlink, hcap⟩ := hsame (.inl hn)
      obtain ⟨h1, h2⟩ := (hs.mirrored.1 p).1 e he
      exact ⟨hlink.trans h1, hcap.trans h2⟩
  · rw [State.entry_congr hroster] at he
    obtain ⟨-, -, hsame⟩ := h.column p
    have hn : s.mappedAt g d ≠ some p := fun hm => by
      obtain ⟨e', he', -⟩ := State.entry_of_mappedAt hm
      cases he.symm.trans he'
    obtain ⟨hlink, hcap⟩ := hsame (.inl hn)
    obtain ⟨h1, h2⟩ := (hs.mirrored.1 p).2 he
    exact ⟨hlink.trans h1, hcap.trans h2⟩
  · rw [hmapped]
    rw [hdrop] at hl
    split at hl
    · next hgd =>
      obtain ⟨p, hm, -⟩ := henrol hl
      rw [hgd.1, hgd.2, hm]
      rfl
    · exact hs.mirrored.2.1 g' d' hl
  · rw [State.validPos_congr hroster] at hv
    rw [hroster]
    obtain ⟨⟨-, -, hcontact, -⟩, -, hsame⟩ := h.column p
    rw [hcontact] at hk
    by_cases hm : s.mappedAt g d = some p
    · obtain ⟨y, hy, hconfirmed⟩ := henrol ((hmirror p hm).1.symm.trans hl)
      obtain rfl := Option.some.inj (hm.symm.trans hy)
      exact hconfirmed hk
    · rw [(hsame (.inl hm)).1] at hl
      exact hs.contacts p hv hl hk
  · exact State.columnsWell_congr hroster hphase (by rw [hstop]) (fun p => by
      obtain ⟨⟨-, -, hcontact, hoffset, hin⟩, -, -⟩ := h.column p
      exact ⟨hcontact, hoffset, hin⟩) hs.columns

/-- The laws of the phase at a change of a drop that stays ENROLLED where the group needs it. -/
theorem paced (h : s.redrops t g d x n moved copied) (hf : s.founded) (hs : s.paced)
    (hlink : ∀ p, s.mappedAt g d = some p → s.phase ≠ .idle → s.phase ≠ .stopped → x.link = .enrolled) : t.paced := by
  obtain ⟨-, hphase, hroster, -, href, -, -, hpause⟩ := h.fields
  refine ⟨by rw [href, hphase]; exact hs.still, by rw [href, hphase]; exact hs.speed, ?_, h.stirs.pollingWell hf hs, fun p hv => ?_,
    by rw [hphase, hroster]; exact hs.approach⟩
  · rw [State.timersWell, href, hphase, hpause]
    exact hs.timers
  · rw [State.validPos_congr hroster] at hv
    obtain ⟨hready, hcontacts⟩ := hs.ready p hv
    obtain ⟨⟨-, -, hcontact, -⟩, hcopy, hsame⟩ := h.column p
    rw [hphase, hcontact]
    refine ⟨fun h1 h2 => ?_, hcontacts⟩
    by_cases hm : s.mappedAt g d = some p ∧ copied
    · exact (hcopy hm.1 hm.2).1.trans (hlink p hm.1 h1 h2)
    · have hn : s.mappedAt g d ≠ some p ∨ ¬ copied := not_and_or.mp hm
      exact (hsame hn).1.trans (hready h1 h2)

theorem onLeg (h : s.redrops t g d x n moved copied) (hs : s.onLeg) : t.onLeg := by
  obtain ⟨-, hphase, -, hplan, href, -⟩ := h.fields
  rw [State.onLeg, hphase, hplan, href]
  exact hs

end State.redrops

/-! ### A reply (R48 to R59) -/

section
variable {old : Drop} {r : Report}

theorem Drop.well.heard (h : old.well) : old.heard.well := by
  obtain ⟨-, -, hsettle, hpage, hcap⟩ := h
  exact ⟨Nat.zero_le _, fun _ => rfl, hsettle, hpage, hcap⟩

/-- A drop that has been found again begins to settle with nothing known of it (R47, R48). -/
theorem Drop.enter_settling_well (d : Drop) (hm : d.miss ≤ 3) : (d.enter .settling).well := by
  refine ⟨hm, nofun, fun _ => rfl, ⟨nofun, fun h => absurd rfl h⟩, fun _ => rfl, nofun, ?_⟩
  rintro (h | h | h) <;> cases h

theorem Drop.refused_well (h : old.miss ≤ 3) : old.refused.well := by
  refine ⟨h, nofun, fun h => absurd rfl h, ⟨nofun, fun h => absurd rfl h⟩, ?_, nofun, ?_⟩
  · rintro (h | h) <;> cases h
  · rintro (h | h | h) <;> cases h

/-- A PAGING drop with another page to ask for, whose record holds what the pages before it give (R51, R52). -/
theorem Drop.well.paging {page : Fin 4} {cap : Capability} (h : old.well) (hl : old.link = .paging) (h3 : page ≠ 3)
    (h1 : 1 ≤ page.val → cap.serial.isSome = true) (h2 : 2 ≤ page.val → cap.hasPage1) :
    ({ old with page := page, cap := cap } : Drop).well := by
  obtain ⟨hmiss, habsent, hsettle, -, -⟩ := h
  refine ⟨hmiss, habsent, hsettle, ⟨fun _ => h3, fun _ => hl⟩, fun h => ?_, fun _ => ⟨h1, h2⟩, fun h => ?_⟩
  · rcases h with h | h <;> cases hl.symm.trans h
  · rcases h with h | h | h <;> cases hl.symm.trans h

/-- A drop whose last page has been accepted holds all that the pages give (R53). -/
theorem Drop.well.paged {l : LinkState} (h : old.well) (hpaging : old.link = .paging) (hpage : old.page = 2) (hhigh : 10 ≤ r.high)
    (hl : l = .ready ∨ l = .enrolled) : (old.heard.paged r l).well := by
  obtain ⟨-, -, -, -, -, hcap, -⟩ := h
  obtain ⟨hserial, hpage1⟩ := hcap hpaging
  have hno : l ≠ .absent ∧ l ≠ .settling ∧ l ≠ .paging := by rcases hl with rfl | rfl <;> decide
  refine ⟨Nat.zero_le _, fun _ => rfl, fun h => absurd rfl h, ⟨fun h => absurd h hno.2.2, fun h => absurd rfl h⟩,
    fun h => (h.elim hno.1 hno.2.1).elim, fun h => absurd h hno.2.2, fun _ => ⟨hserial (by rw [hpage]; decide),
      hpage1 (by rw [hpage]; decide), ?_⟩⟩
  refine Bool.and_eq_true_iff.mpr ⟨decide_eq_true ?_, decide_eq_true (Nat.min_le_right _ _)⟩
  omega

/-- The end of paging: READY, or ENROLLED in a confirmed roster that names the drop (R55). -/
theorem State.enrols.ends {e : Exchange} (h : s.enrols g e r x n) (hpaging : (s.drop g e.drop).link = .paging)
    (hr : r.page = (s.drop g e.drop).page) (he : e.page = (s.drop g e.drop).page) (hp : (s.drop g e.drop).page = 2) (hhigh : 10 ≤ r.high) :
    x = (s.drop g e.drop).heard.paged r .ready ∨
      x = (s.drop g e.drop).heard.paged r .enrolled ∧ (s.mappedAt g e.drop).isSome = true ∧ s.roster.confirmed = true := by
  obtain ⟨-, -, -, hpages⟩ := h
  obtain ⟨-, -, -, -, h2⟩ := hpages hpaging hr he
  obtain ⟨hfree, hmapped⟩ := h2 hp hhigh
  cases hm : s.mappedAt g e.drop with
  | none => exact .inl (hfree hm).1
  | some y =>
    obtain ⟨en, hen, -⟩ := State.entry_of_mappedAt hm
    obtain ⟨hyes, hother, hunsure⟩ := hmapped y en hm hen
    by_cases hs : en.serial.isSome = true
    · by_cases hsame : (s.drop g e.drop).cap.serial = en.serial
      · cases hc : s.roster.confirmed with
        | true => exact .inr ⟨(hyes hc hs hsame).1, rfl, rfl⟩
        | false => exact .inl (hunsure (.inr ⟨hc, hsame⟩)).1
      · exact .inl (hother hs hsame).1
    · exact .inl (hunsure (.inl (Option.not_isSome_iff_eq_none.mp hs))).1

/-- The drop of a taken page: still PAGING, REFUSED, or at the end of paging (R51 to R55). -/
theorem State.enrols.page {e : Exchange} (h : s.enrols g e r x n) (hw : (s.drop g e.drop).well)
    (hpaging : (s.drop g e.drop).link = .paging) (hr : r.page = (s.drop g e.drop).page) (he : e.page = (s.drop g e.drop).page)
    (h3 : (s.drop g e.drop).page ≠ 3) :
    x.well ∧ (x.link = .enrolled → (s.mappedAt g e.drop).isSome = true ∧ s.roster.confirmed = true) := by
  have hends := h.ends hpaging hr he
  obtain ⟨-, -, -, hpages⟩ := h
  obtain ⟨h0, h1low, h1, h2low, -⟩ := hpages hpaging hr he
  obtain ⟨-, -, -, -, -, hcap, -⟩ := id hw
  obtain ⟨hserial, -⟩ := hcap hpaging
  generalize s.drop g e.drop = old at *
  have hno : ∀ {y : Drop}, y.link = old.link → y.link = .enrolled → (s.mappedAt g e.drop).isSome = true ∧ s.roster.confirmed = true :=
    fun h1 h2 => by cases (hpaging.symm.trans h1.symm).trans h2
  have hcases : old.page = 0 ∨ old.page = 1 ∨ old.page = 2 := by
    have := old.page.isLt
    omega
  rcases hcases with hp | hp | hp
  · obtain ⟨rfl, -⟩ := h0 hp
    exact ⟨hw.heard.paging hpaging (by decide) (fun _ => rfl) fun h => absurd h (by decide), hno rfl⟩
  · rcases Nat.lt_or_ge r.low 1000 with hlow | hlow
    · obtain ⟨rfl, -⟩ := h1low hp hlow
      exact ⟨Drop.refused_well (Nat.zero_le _) (old := old.heard), nofun⟩
    · obtain ⟨rfl, -⟩ := h1 hp hlow
      refine ⟨hw.heard.paging hpaging (by decide) (fun _ => hserial (by rw [hp]; decide)) fun _ => ?_, hno rfl⟩
      exact ⟨decide_eq_true (Nat.min_le_right _ _), decide_eq_true hlow⟩
  · rcases Nat.lt_or_ge r.high 10 with hhigh | hhigh
    · obtain ⟨rfl, -⟩ := h2low hp hhigh
      exact ⟨Drop.refused_well (Nat.zero_le _) (old := old.heard), nofun⟩
    · rcases hends hp hhigh with rfl | ⟨rfl, hm⟩
      · exact ⟨hw.paged hpaging hp hhigh (.inl rfl), nofun⟩
      · exact ⟨hw.paged hpaging hp hhigh (.inr rfl), fun _ => hm⟩

/-- The drop of a reply stays well; it becomes ENROLLED at the end of paging in a confirmed roster alone, and stays ENROLLED (R47 to R55). -/
theorem State.enrols.facts {e : Exchange} (h : s.enrols g e r x n) (hw : (s.drop g e.drop).well) :
    x.well ∧ (x.link = .enrolled → (s.drop g e.drop).link ≠ .enrolled → (s.mappedAt g e.drop).isSome = true ∧ s.roster.confirmed = true) ∧
      ((s.drop g e.drop).link = .enrolled → x.link = (s.drop g e.drop).link ∧ x.cap = (s.drop g e.drop).cap) := by
  have hpage := h.page hw
  obtain ⟨hfresh, hsettled, hnopage, -⟩ := h
  generalize s.drop g e.drop = old at *
  by_cases hnew : old.link = .absent ∨ old.link = .lost
  · obtain ⟨rfl, -⟩ := hfresh hnew
    refine ⟨Drop.enter_settling_well old.heard (Nat.zero_le _), nofun, fun hl => ?_⟩
    rcases hnew with h | h <;> cases hl.symm.trans h
  · by_cases hpaging : old.link = .paging
    · have hne : old.link ≠ .enrolled := by rw [hpaging]; nofun
      by_cases hno : r.page ≠ old.page ∨ e.page ≠ old.page ∨ old.page = 3
      · obtain ⟨rfl, -⟩ := hnopage hpaging hno
        exact ⟨hw.heard, fun hl => absurd hl hne, fun hl => absurd hl hne⟩
      · obtain ⟨hr, he, h3⟩ : r.page = old.page ∧ e.page = old.page ∧ old.page ≠ 3 := by
          simpa only [not_or, not_not, ne_eq] using hno
        obtain ⟨hwell, henrol⟩ := hpage hpaging hr he h3
        exact ⟨hwell, fun hl _ => henrol hl, fun hl => absurd hl hne⟩
    · have hrest : old.link = .settling ∨ old.link = .ready ∨ old.link = .enrolled ∨ old.link = .refused := by
        cases hl : old.link <;> simp_all
      obtain ⟨rfl, -⟩ := hsettled hrest
      exact ⟨hw.heard, fun h1 h2 => absurd h1 h2, fun _ => ⟨rfl, rfl⟩⟩

end

end Sys2Proof.Machine

/-! The laws through an accepted reply, a miss, and the settle timer (R30, R46 to R59). -/

namespace Sys2Proof.Machine

set_option Elab.async false

variable {s t : State} {full : Prop} {g : SegId} {d : DropId}

/-- A mapped column shows its drop (R46). -/
theorem State.mirrored.column (h : s.mirrored) {p : Pos} (hm : s.mappedAt g d = some p) :
    (s.col p).link = (s.drop g d).link ∧ (s.col p).cap = (s.drop g d).cap := by
  obtain ⟨e, he, rfl, rfl⟩ := State.entry_of_mappedAt hm
  exact (h.1 p).1 e he

theorem State.validPos_of_mappedAt {p : Pos} (hm : s.mappedAt g d = some p) : s.validPos p = true := by
  obtain ⟨e, he, -⟩ := State.entry_of_mappedAt hm
  exact congrArg Option.isSome he

/-- A column whose drop is not ENROLLED has demand 0 (R13). -/
theorem State.lawful.unenrolled (h : s.lawful) (hm : s.mirrored) {p : Pos} (hp : s.mappedAt g d = some p)
    (hl : (s.drop g d).link ≠ .enrolled) : (s.col p).demand = 0 :=
  (h.demands p).2.1.2 (by rwa [(hm.column hp).1])

/-- A drop of a mapped column is ENROLLED outside IDLE and STOPPED (R63). -/
theorem State.groupReady.drop (h : s.groupReady) (hm : s.mirrored) {p : Pos} (hp : s.mappedAt g d = some p) (h1 : s.phase ≠ .idle)
    (h2 : s.phase ≠ .stopped) : (s.drop g d).link = .enrolled :=
  (hm.column hp).1.symm.trans ((h p (State.validPos_of_mappedAt hp)).1 h1 h2)

/-- The contact of an ENROLLED drop's column comes with a confirmed roster. -/
theorem State.founded.confirmed (h : s.founded) (hl : (s.drop g d).link = .enrolled) :
    ∃ p, s.mappedAt g d = some p ∧ ((s.col p).contact.isSome = true → s.roster.confirmed = true) := by
  obtain ⟨p, hp⟩ := Option.isSome_iff_exists.mp (h.mirrored.2.1 g d hl)
  exact ⟨p, hp, h.contacts p (State.validPos_of_mappedAt hp) ((h.mirrored.column hp).1.trans hl)⟩

/-! ### A reply -/

/-- A reply keeps the laws; no echo test has its line then (R40). -/
theorem State.sound.acceptReply (hs : s.sound full) (hm : s.mirrored) (hp : s.power = .running) (x : Exchange) (r : Report)
    (hquiet : full → (s.seg g).echo.code ≠ 2) : (s.acceptReply g x r).sound full := by
  obtain ⟨copied, hredrops, henrols, hcopied⟩ := s.acceptReply_spec g x r
  generalize s.acceptReply g x r = t at hredrops henrols hcopied
  refine ⟨⟨hredrops.lawful hs.lawful fun p hp' => ?_, fun hf => ?_, fun hf => ?_⟩, fun hf => hredrops.onLeg (hs.onLeg hf)⟩
  · by_cases hl : (s.drop g x.drop).link = .enrolled
    · refine .inr ?_
      obtain ⟨-, hsettled, -, -⟩ := henrols
      obtain ⟨hdrop, -⟩ := hsettled (.inr (.inr (.inl hl)))
      obtain ⟨hlink, hcap⟩ := hm.column hp'
      rw [hdrop]
      exact ⟨hlink, hcap⟩
    · exact .inl (hs.lawful.unenrolled hm hp' hl)
  · have hfd := hs.founded hf
    obtain ⟨hwell, henrol, hstays⟩ := henrols.facts (hfd.drops g x.drop)
    refine hredrops.founded hfd hp hwell hcopied (fun hrun => absurd hrun (hquiet hf)) fun hl => ?_
    by_cases hold : (s.drop g x.drop).link = .enrolled
    · exact hfd.confirmed hold
    · obtain ⟨hmapped, hconfirmed⟩ := henrol hl hold
      obtain ⟨p, hp'⟩ := Option.isSome_iff_exists.mp hmapped
      exact ⟨p, hp', fun _ => hconfirmed⟩
  · have hfd := hs.founded hf
    obtain ⟨-, -, hstays⟩ := henrols.facts (hfd.drops g x.drop)
    refine hredrops.paced hfd (hs.paced hf) fun p hp' h1 h2 => ?_
    have hold := (hs.paced hf).ready.drop hm hp' h1 h2
    exact (hstays hold).1.trans hold

/-- After a reply the column of its drop is ENROLLED where the group needs it. -/
theorem State.acceptReply_enrolled (hm : s.mirrored) (hg : s.groupReady) (x : Exchange) (r : Report) {p : Pos}
    (hp : s.mappedAt g x.drop = some p) (h1 : s.phase ≠ .idle) (h2 : s.phase ≠ .stopped) :
    ((s.acceptReply g x r).col p).link = .enrolled := by
  obtain ⟨copied, hredrops, henrols, hcopied⟩ := s.acceptReply_spec g x r
  generalize s.acceptReply g x r = t at hredrops henrols hcopied
  have hold := hg.drop hm hp h1 h2
  obtain ⟨-, hsettled, -, -⟩ := henrols
  obtain ⟨hdrop, -⟩ := hsettled (.inr (.inr (.inl hold)))
  obtain ⟨-, hcopy, hsame⟩ := hredrops.column p
  by_cases hc : copied
  · rw [(hcopy hp hc).1, hdrop]
    exact hold
  · rw [(hsame (.inr hc)).1, (hm.column hp).1]
    exact hold

/-! ### A miss -/

/-- A miss that does not lose a drop is no change, is counted, or takes a drop that is not ENROLLED to ABSENT. -/
theorem Drop.misses.outcome {old new : Drop} {kind : ExchangeKind} (h : old.misses new kind)
    (hkept : kind = .poll → old.link = .enrolled → old.miss < 2) :
    new = old ∨ (new = old.counted ∧ old.link ≠ .absent) ∨ new = old.gone ∧ old.link ≠ .enrolled := by
  obtain ⟨hprobe, hearly, hthird, henrolled, hlost⟩ := h
  by_cases hnone : kind = .probe ∨ old.link = .absent
  · exact .inl (hprobe hnone)
  · obtain ⟨hk, hl⟩ := not_or.mp hnone
    have hpoll : kind = .poll := by
      cases kind with
      | poll => rfl
      | probe => exact absurd rfl hk
    cases hlink : old.link with
    | absent => exact absurd hlink hl
    | settling => exact .inr (.inr ⟨hearly hpoll (.inl hlink), nofun⟩)
    | paging => exact .inr (.inr ⟨hearly hpoll (.inr hlink), nofun⟩)
    | lost => exact .inr (.inl ⟨hlost hpoll hlink, nofun⟩)
    | enrolled => exact .inr (.inl ⟨henrolled hpoll hlink (hkept hpoll hlink), nofun⟩)
    | ready | refused =>
      have h := hthird hpoll (by simp [hlink])
      split at h
      · exact .inr (.inr ⟨h, nofun⟩)
      · exact .inr (.inl ⟨h, nofun⟩)

theorem Drop.gone_well (d : Drop) : d.gone.well := by
  refine ⟨Nat.zero_le _, fun _ => rfl, fun h => absurd rfl h, ⟨nofun, fun h => absurd rfl h⟩, fun _ => rfl, nofun, ?_⟩
  rintro (h | h | h) <;> cases h

theorem Drop.well.counted {d : Drop} (h : d.well) (hl : d.link ≠ .absent) : d.counted.well := by
  obtain ⟨-, -, hsettle, hpage, hcap⟩ := h
  exact ⟨Nat.min_le_left _ _, fun ha => absurd ha hl, hsettle, hpage, hcap⟩

theorem Drop.well.lostAt {d : Drop} (h : d.well) (hl : d.link = .enrolled) : d.lostAt.well := by
  obtain ⟨-, -, -, -, -, -, hcap⟩ := h
  refine ⟨le_refl _, nofun, fun h => absurd rfl h, ⟨nofun, fun h => absurd rfl h⟩, ?_, nofun, fun _ => hcap (.inr (.inl hl))⟩
  rintro (h | h) <;> cases h

/-- A change of the columns that leaves what the laws of every phase look at. -/
theorem State.founded.recolumn (h : s.founded) (hpower : t.power = s.power) (hcourse : t.course = s.course) (hroster : t.roster = s.roster)
    (hlimits : t.limits = s.limits) (hsegs : t.segs = s.segs)
    (hcols : ∀ p, ((t.col p).link = (s.col p).link ∧ (t.col p).cap = (s.col p).cap) ∧ (t.col p).contact = (s.col p).contact ∧
      (t.col p).offset = (s.col p).offset ∧ ((s.col p).inRange → (t.col p).inRange)) : t.founded := by
  have hstop : t.stop = s.stop := State.stop_of_course hcourse
  have href : t.ref = s.ref := State.ref_of_course hcourse
  have hplan : t.plan = s.plan := State.plan_of_course hcourse
  refine ⟨by rw [hplan]; exact h.plan, by rw [State.limitsInRange, hlimits]; exact h.limits, by rw [href]; exact h.fine,
    by rw [href]; exact h.target, ?_, by rw [State.rosterWell, hroster]; exact h.roster, fun g d => ?_, ?_, fun p hv hl hk => ?_, ?_⟩
  · refine ⟨fun g g' => ?_, fun g => ?_⟩
    · rw [State.seg_congr hsegs, State.seg_congr hsegs]
      exact h.echo.1 g g'
    · rw [State.seg_congr hsegs]
      exact h.echo.2 g
  · rw [State.drop_congr hsegs]
    exact h.drops g d
  · exact State.mirrored_congr hpower hroster (fun g d => by rw [State.drop_congr hsegs]; exact ⟨rfl, rfl⟩) (fun p => (hcols p).1) h.mirrored
  · obtain ⟨⟨hlink, -⟩, hcontact, -⟩ := hcols p
    rw [hlink] at hl
    rw [hcontact] at hk
    rw [State.validPos_congr hroster] at hv
    rw [hroster]
    exact h.contacts p hv hl hk
  · exact State.columnsWell_congr hroster (State.phase_of_course hcourse) (by rw [hstop]) (fun p => (hcols p).2) h.columns

/-- A drop that is lost takes the group to STOPPED, unless it rests in IDLE or is stopped already (R58). -/
theorem State.sound.loses (hs : s.sound full) (hm : s.mirrored) (hp : s.power = .running) {x : Exchange} (hlost : s.losesDrop g x) :
    (s.takeMiss g x).sound full := by
  obtain ⟨t, hredrops, -, hsome⟩ := State.takeMiss_lost hlost
  obtain ⟨-, hen, -⟩ := hlost
  obtain ⟨p, hmap⟩ := Option.isSome_iff_exists.mp (hm.2.1 g x.drop hen)
  obtain ⟨hpower, hphase, -⟩ := hredrops.fields
  have hfounded : full → t.founded := fun hf => hredrops.founded (hs.founded hf) hp (((hs.founded hf).drops g x.drop).lostAt hen)
    (.inl trivial) (fun _ => rfl) nofun
  rw [hsome p hmap]
  dsimp only
  by_cases hrest : s.phase = .idle ∨ s.phase = .stopped
  · have ht : t.sound full := by
      refine ⟨⟨hredrops.lawful hs.lawful fun y _ => .inl (hs.lawful.demands.rest hrest y).1, hfounded, fun hf => ?_⟩,
        fun hf => hredrops.onLeg (hs.onLeg hf)⟩
      exact hredrops.paced (hs.founded hf) (hs.paced hf) fun y _ h1 h2 => (hrest.elim h1 h2).elim
    have hv := (((State.steady.refl t).modCol p fun c => { c with wasLost := true }).raise .columnLost).sound ht
    split
    · exact hv
    · exact hv.offerStop _
  · obtain ⟨hi, hns⟩ := not_or.mp hrest
    have hphase' : ((t.modCol p fun c => { c with wasLost := true }).raise .columnLost).phase = s.phase := hphase
    have hpower' : ((t.modCol p fun c => { c with wasLost := true }).raise .columnLost).power = .running := hpower.trans hp
    rw [if_neg (by rw [hphase']; exact hi), State.offerStop_first _ _ hpower' (by rw [hphase']; exact hns)]
    refine State.sound_firstStop _ hpower' (by rw [hphase']; exact hns) fun hf => (hfounded hf).recolumn rfl rfl rfl rfl rfl fun y => ?_
    have hcol : ((t.modCol p fun c => { c with wasLost := true }).raise .columnLost).col y =
        if y = p then { t.col y with wasLost := true } else t.col y := State.col_modCol t p y _
    rw [hcol]
    split
    · exact ⟨⟨rfl, rfl⟩, rfl, rfl, id⟩
    · exact ⟨⟨rfl, rfl⟩, rfl, rfl, id⟩

theorem State.sound.takeMiss (hs : s.sound full) (hm : s.mirrored) (hp : s.power = .running) (x : Exchange) :
    (s.takeMiss g x).sound full := by
  by_cases hlost : s.losesDrop g x
  · exact hs.loses hm hp hlost
  · obtain ⟨new, hredrops, hmisses⟩ := State.takeMiss_spec hlost
    have hout := hmisses.outcome fun hk hl => Nat.lt_of_not_le fun h2 => hlost ⟨hk, hl, h2⟩
    generalize s.takeMiss g x = t at hredrops
    have hkeeps : (s.drop g x.drop).link = .enrolled → new.link = (s.drop g x.drop).link ∧ new.cap = (s.drop g x.drop).cap := fun hl => by
      rcases hout with rfl | ⟨rfl, -⟩ | ⟨-, h⟩
      · exact ⟨rfl, rfl⟩
      · exact ⟨rfl, rfl⟩
      · exact absurd hl h
    refine ⟨⟨hredrops.lawful hs.lawful fun p hp' => ?_, fun hf => ?_, fun hf => ?_⟩, fun hf => hredrops.onLeg (hs.onLeg hf)⟩
    · by_cases hl : (s.drop g x.drop).link = .enrolled
      · obtain ⟨hlink, hcap⟩ := hm.column hp'
        exact .inr ⟨hlink.trans (hkeeps hl).1.symm, hcap.trans (hkeeps hl).2.symm⟩
      · exact .inl (hs.lawful.unenrolled hm hp' hl)
    · have hfd := hs.founded hf
      have hw := hfd.drops g x.drop
      refine hredrops.founded hfd hp ?_ ?_ (fun hrun => ?_) fun hl => ?_
      · rcases hout with rfl | ⟨rfl, hl⟩ | ⟨rfl, -⟩
        · exact hw
        · exact hw.counted hl
        · exact Drop.gone_well _
      · by_cases hl : new.link = (s.drop g x.drop).link
        · rcases hout with rfl | ⟨rfl, -⟩ | ⟨rfl, -⟩
          · exact .inr ⟨rfl, rfl⟩
          · exact .inr ⟨rfl, rfl⟩
          · exact .inr ⟨hl, (hw.2.2.2.2.1 (.inl hl.symm)).symm⟩
        · exact .inl hl
      · have hquiet := (hfd.echo.2 g hrun).2.2.2 x.drop
        rcases hout with rfl | ⟨rfl, -⟩ | ⟨rfl, -⟩
        · exact hquiet
        · exact hquiet
        · rfl
      · rcases hout with rfl | ⟨rfl, -⟩ | ⟨rfl, -⟩
        · exact hfd.confirmed hl
        · exact hfd.confirmed hl
        · cases hl
    · refine hredrops.paced (hs.founded hf) (hs.paced hf) fun p hp' h1 h2 => ?_
      have hold := (hs.paced hf).ready.drop hm hp' h1 h2
      exact (hkeeps hold).1.trans hold

/-- The close of the reply window (R29, R30). -/
theorem State.sound.windowClose (hs : s.sound full) (hm : s.mirrored) (g : SegId) : (s.windowClose g).sound full := by
  unfold State.windowClose
  split
  · next x hp hx =>
    have hfreed := ((State.steady.refl s).lineFreed g).sound hs
    have hmiss := hfreed.takeMiss (g := g) (State.mirrored_congr (s := s) rfl rfl (fun g' d => ?_) (fun p => ⟨rfl, rfl⟩) hm) hp x
    · exact ((State.steady.refl _).goOn g).sound hmiss
    · have h := ((State.steady.refl s).lineFreed g).segs g'
      exact ⟨h.link d, h.cap d⟩
  · exact hs

/-! ### The settle timer (R49) -/

theorem State.sound.settleExpiry (hs : s.sound full) (hm : s.mirrored) (g : SegId) (d : DropId) : (s.settleExpiry g d).sound full := by
  unfold State.settleExpiry
  split
  · next hp _ =>
    split
    · next hl =>
      have hne : (s.drop g d).link ≠ .enrolled := by rw [hl]; nofun
      have h := State.redrops.of_changeLink (s := s) (g := g) (d := d) (new := .paging) (by rw [hl]; nofun)
      refine ⟨⟨h.lawful hs.lawful fun p hp' => .inl (hs.lawful.unenrolled hm hp' hne), fun hf => ?_, fun hf => ?_⟩,
        fun hf => h.onLeg (hs.onLeg hf)⟩
      · obtain ⟨hmiss, -⟩ := (hs.founded hf).drops g d
        refine h.founded (hs.founded hf) hp ⟨hmiss, nofun, fun h => absurd rfl h, ⟨fun _ => nofun, fun _ => rfl⟩, ?_, fun _ => ⟨?_, ?_⟩, ?_⟩
          (.inl trivial) (fun _ => rfl) nofun
        · rintro (h | h) <;> cases h
        · exact fun h => absurd (show 1 ≤ (0 : Fin 4).val from h) (by decide)
        · exact fun h => absurd (show 2 ≤ (0 : Fin 4).val from h) (by decide)
        · rintro (h | h | h) <;> cases h
      · exact h.paced (hs.founded hf) (hs.paced hf) fun p hp' h1 h2 => absurd ((hs.paced hf).ready.drop hm hp' h1 h2) hne
    · exact hs
  · exact hs

end Sys2Proof.Machine

/-! The laws through the work of an arrival: the demands of each phase, the contacts and the parking (R86 to R97, R120 to R128). -/

namespace Sys2Proof.Machine

set_option Elab.async false

variable {s t : State} {full : Prop} {p : Pos}

/-! ### A change of the columns -/

/-- A change of the columns that leaves links, capabilities, contacts and offsets, with demands as the law has them. -/
theorem State.sound.recolumn (h : s.sound full) (hpower : t.power = s.power) (hcourse : t.course = s.course) (hroster : t.roster = s.roster)
    (hlimits : t.limits = s.limits) (hsegs : t.segs = s.segs)
    (hcols : ∀ p, ((t.col p).link = (s.col p).link ∧ (t.col p).cap = (s.col p).cap) ∧ (t.col p).contact = (s.col p).contact ∧
      (t.col p).offset = (s.col p).offset ∧ ((s.col p).inRange → (t.col p).inRange))
    (hdemands : ∀ p, (t.col p).demandFits s.phase ∧ (t.col p).demandBounded ∧ ((t.col p).jog = true → s.phase = .holding)) : t.sound full := by
  have hstop : t.stop = s.stop := State.stop_of_course hcourse
  have href : t.ref = s.ref := State.ref_of_course hcourse
  have hphase : t.phase = s.phase := State.phase_of_course hcourse
  refine ⟨⟨⟨?_, fun p => by rw [hphase]; exact hdemands p⟩, fun hf => (h.founded hf).recolumn hpower hcourse hroster hlimits hsegs hcols,
    fun hf => ?_⟩, fun hf => ?_⟩
  · exact State.stopsSafe_congr (by rw [hstop]) (by rw [hstop]) (by rw [hstop]) hphase hpower h.lawful.stops
  · have hp := h.paced hf
    refine ⟨by rw [href, hphase]; exact hp.still, by rw [href, hphase]; exact hp.speed, ?_, fun hm g => ?_, fun p hv => ?_,
      by rw [hphase, hroster]; exact hp.approach⟩
    · rw [State.timersWell, href, hphase, State.pausePending_of_course hcourse]
      exact hp.timers
    · rw [hphase] at hm
      rw [State.seg_congr hsegs]
      exact hp.polling hm g
    · rw [State.validPos_congr hroster] at hv
      obtain ⟨⟨hlink, -⟩, hcontact, -⟩ := hcols p
      rw [hphase, hlink, hcontact]
      exact hp.ready p hv
  · rw [State.onLeg, hphase, href, State.plan_of_course hcourse]
    exact h.onLeg hf

/-- A demand, and a jog, written to one column by the law. -/
theorem State.sound.modDemand (h : s.sound full) (p : Pos) (f : Column → Column)
    (hf : ∀ c : Column, ((f c).link = c.link ∧ (f c).cap = c.cap) ∧ (f c).contact = c.contact ∧ (f c).offset = c.offset ∧
      (c.inRange → (f c).inRange))
    (hd : (f (s.col p)).demandFits s.phase ∧ (f (s.col p)).demandBounded ∧ ((f (s.col p)).jog = true → s.phase = .holding)) :
    (s.modCol p f).sound full := by
  refine h.recolumn rfl rfl rfl rfl rfl (fun y => ?_) fun y => ?_
  · rw [State.col_modCol]
    split
    · exact hf _
    · exact ⟨⟨rfl, rfl⟩, rfl, rfl, id⟩
  · rw [State.col_modCol]
    split
    · next e => rw [e]; exact hd
    · exact h.lawful.demands y

theorem State.sound.setDemand (h : s.sound full) (p : Pos) (v : Int) (hfits : ({ s.col p with demand := v } : Column).demandFits s.phase)
    (hbound : v.natAbs ≤ (s.col p).speedBound) (hlink : (s.col p).link ≠ .enrolled → v = 0) : (s.setDemand p v).sound full :=
  h.modDemand p _ (fun _ => ⟨⟨rfl, rfl⟩, rfl, rfl, id⟩) ⟨hfits, ⟨hbound, hlink⟩, (h.lawful.demands p).2.2⟩

theorem State.sound.setDemand_zero (h : s.sound full) (p : Pos) : (s.setDemand p 0).sound full :=
  h.modDemand p _ (fun _ => ⟨⟨rfl, rfl⟩, rfl, rfl, id⟩) (Column.demand_zero rfl (h.lawful.demands p).2.2)

/-! ### The column of an arrival -/

/-- The laws, with the column of the arrival ENROLLED where the group needs it. -/
structure State.manned (full : Prop) (s : State) (p : Pos) : Prop where
  sound : s.sound full
  running : s.power = .running
  valid : s.validPos p = true
  enrolled : s.phase ≠ .idle → s.phase ≠ .stopped → (s.col p).link = .enrolled

namespace State.manned

theorem steady (h : s.manned full p) (ht : s.steady t) : t.manned full p := by
  refine ⟨ht.sound h.sound, ht.power.trans h.running, ?_, ?_⟩
  · rw [State.validPos_congr ht.roster]
    exact h.valid
  · rw [ht.phase, (ht.cols p).link]
    exact h.enrolled

theorem offerStop (h : s.manned full p) (o : Offer) : (s.offerStop o).manned full p := by
  have hdesk := State.offerStop_desk s o
  have hvalid : (s.offerStop o).validPos p = true := by
    rw [State.validPos_congr (State.roster_of_desk hdesk)]
    exact h.valid
  refine ⟨h.sound.offerStop o, (State.power_of_desk hdesk).trans h.running, hvalid, fun h1 h2 => ?_⟩
  by_cases hph : s.phase = .stopped
  · rw [State.offerStop_stopped h.running hph] at h2
    exact absurd hph h2
  · rw [State.offerStop_first s o h.running hph] at h2
    exact absurd (State.firstStop_spec s o h.running hph).phase h2

theorem offerAll (os : List Offer) : ∀ {s : State}, s.manned full p → (s.offerAll os).manned full p := by
  induction os with
  | nil => exact id
  | cons o os ih => exact fun h => ih (h.offerStop o)

theorem ite {c : Prop} [Decidable c] (h : s.manned full p) (h' : t.manned full p) : (if c then s else t).manned full p := by
  split
  · exact h
  · exact h'

/-! ### The demands of the tracked phases (R126, R127) -/

theorem clampInt_bounds {lo hi x : Int} (h : lo ≤ hi) : lo ≤ clampInt lo hi x ∧ clampInt lo hi x ≤ hi := by
  unfold clampInt
  omega

theorem trackedDemand (h : s.manned full p) (v : Nat) (e : Int) : (s.trackedDemand p v e).sound full := by
  unfold State.trackedDemand
  have hlink : s.phase ≠ .idle → s.phase ≠ .stopped → ∀ {v : Int}, (s.col p).link ≠ .enrolled → v = 0 := fun h1 h2 _ hn =>
    absurd (h.enrolled h1 h2) hn
  split
  · next hph =>
    obtain ⟨hlo, hhi⟩ := clampInt_bounds (x := (v : Int) + correction (s.limit .kp) e) (Int.natCast_nonneg (s.col p).speedBound)
    refine h.sound.setDemand p _ ⟨fun _ => .inr (.inl hph), fun hneg => absurd hneg (not_lt.mpr hlo)⟩ ?_
      (hlink (by rw [hph]; nofun) (by rw [hph]; nofun))
    unfold liftingDemand
    omega
  · next hph =>
    obtain ⟨hlo, hhi⟩ := clampInt_bounds (x := -(v : Int) + correction (s.limit .kp) e) (neg_nonpos.mpr (Int.natCast_nonneg (s.col p).speedBound))
    refine h.sound.setDemand p _ ⟨fun hpos => absurd hpos (not_lt.mpr hhi), fun _ => .inl hph⟩ ?_
      (hlink (by rw [hph]; nofun) (by rw [hph]; nofun))
    unfold loweringDemand
    omega
  · next hph =>
    split
    · next hjog =>
      split
      · unfold State.endJog
        have hend := h.sound.modDemand p (fun c => { c with jog := false, demand := 0 }) (fun _ => ⟨⟨rfl, rfl⟩, rfl, rfl, id⟩)
          (Column.demand_zero rfl nofun)
        dsimp only
        split
        · exact hend
        · exact ((State.steady.refl _).trigger).sound hend
      · obtain ⟨hlo, hhi⟩ := clampInt_bounds (x := correction (s.limit .kp) e)
          (neg_le_self (Int.natCast_nonneg (min (s.limit .vApp) (s.col p).speedBound)))
        refine h.sound.setDemand p _ ⟨fun _ => .inr (.inr ⟨hph, hjog⟩), fun _ => .inr (.inr ⟨hph, hjog⟩)⟩ ?_
          (hlink (by rw [hph]; nofun) (by rw [hph]; nofun))
        unfold jogDemand
        omega
    · exact h.sound.setDemand_zero p
  all_goals exact h.sound.setDemand_zero p

theorem trackedWork (h : s.manned full p) : (s.trackedWork p).sound full := by
  unfold State.trackedWork
  split
  · exact h.sound.setDemand_zero p
  · next rel _ =>
    have hclass := h.steady (((State.steady.refl s).classifyAt p (s.lagOf p rel)).writeSpread (carOf p))
    have hdemand := (hclass.offerAll (State.groupChecks ((s.classifyAt p (s.lagOf p rel)).writeSpread (carOf p)) s.phase p
      (s.lagOf p rel))).trackedDemand s.ref.vEff (s.lagOf p rel)
    dsimp only
    split
    · exact ((State.steady.refl _).evaluateShares _).sound hdemand
    · exact hdemand

theorem restWork (h : s.manned full p) : (s.restWork p).sound full :=
  ((h.steady ((State.steady.refl s).writeSpread (carOf p))).offerAll _).sound.setDemand_zero p

/-! ### The approach (R86 to R92) -/

/-- A recorded contact is a stored height, taken in a confirmed roster (R67, R88). -/
theorem recordContact (h : s.manned full p) (hph : s.phase = .approach) : (s.recordContact p).manned full p := by
  have hcol : ∀ y, (s.modCol p fun c => { c with contact := c.height, rel := some 0, demand := 0 }).col y =
      if y = p then { s.col p with contact := (s.col p).height, rel := some 0, demand := 0 } else s.col y := fun y => by
    rw [State.col_modCol]
    split
    · next e => rw [e]
    · rfl
  have hmod : (s.modCol p fun c => { c with contact := c.height, rel := some 0, demand := 0 }).manned full p := by
    refine ⟨⟨⟨⟨h.sound.lawful.stops, fun y => ?_⟩, fun hf => ?_, fun hf => ?_⟩, h.sound.onLeg⟩, h.running, h.valid, ?_⟩
    · rw [hcol]
      split
      · exact Column.demand_zero rfl (h.sound.lawful.demands p).2.2
      · exact h.sound.lawful.demands y
    · have hs := h.sound.founded hf
      refine ⟨hs.plan, hs.limits, hs.fine, hs.target, hs.echo, hs.roster, hs.drops, ?_,
        fun _ _ _ _ => (h.sound.paced hf).approach hph, fun y => ?_⟩
      · refine State.mirrored_congr (s := s) rfl rfl (fun _ _ => ⟨rfl, rfl⟩) (fun y => ?_) hs.mirrored
        rw [hcol]
        split
        · next e => rw [e]; exact ⟨rfl, rfl⟩
        · exact ⟨rfl, rfl⟩
      · obtain ⟨⟨hheight, hload, hcontact, hlow, hhigh⟩, hinvalid, -⟩ := hs.columns y
        have himage : (s.modCol p fun c => { c with contact := c.height, rel := some 0, demand := 0 }).imagePhase ≠ .idle := by
          rw [State.imagePhase_of_ne (by rw [State.modCol_phase, hph]; nofun)]
          exact fun hi => absurd (hph.symm.trans hi) nofun
        rw [hcol]
        split
        · next e =>
          obtain rfl := e
          exact ⟨⟨hheight, hload, hheight, hlow, hhigh⟩, fun hv => absurd (h.valid.symm.trans hv) nofun, fun hi => absurd hi himage⟩
        · exact ⟨⟨hheight, hload, hcontact, hlow, hhigh⟩, hinvalid, fun hi => absurd hi himage⟩
    · have hs := h.sound.paced hf
      refine ⟨hs.still, hs.speed, hs.timers, hs.polling, fun y hv => ⟨fun h1 h2 => ?_, fun hc => ?_⟩, hs.approach⟩
      · rw [hcol]
        split
        · exact h.enrolled h1 h2
        · exact (hs.ready y hv).1 h1 h2
      · rw [State.modCol_phase, hph] at hc
        cases hc
    · rw [hcol, if_pos rfl]
      exact h.enrolled
  exact hmod.steady ((State.steady.refl _).classify p _ _ _)

theorem testAllContact (h : s.manned full p) (hph : s.phase = .approach) : s.testAllContact.sound full := by
  unfold State.testAllContact
  split
  · next hall =>
    refine State.sound_changePhase h.sound.lawful h.sound.founded h.running (by rw [hph]; nofun) (by rw [hph]; nofun) nofun rfl nofun
      fun hf => ⟨fun y hv _ _ => ?_, fun y hv _ => State.allContact_iff.mp hall y hv, nofun⟩
    exact ((h.sound.paced hf).ready y hv).1 (by rw [hph]; nofun) (by rw [hph]; nofun)
  · exact h.sound

theorem approachSpeed_le (s : State) (p : Pos) : ((s.approachSpeed p : Nat) : Int).natAbs ≤ (s.col p).speedBound := by
  unfold State.approachSpeed
  omega

theorem rise (h : s.manned full p) (hph : s.phase = .approach) : (s.rise p).sound full := by
  unfold State.rise
  split
  · exact h.sound.offerStop _
  · split
    · exact h.sound.offerStop _
    · refine h.sound.setDemand p _ ⟨fun _ => .inl hph, fun hneg => absurd hneg (not_lt.mpr (Int.natCast_nonneg _))⟩
        (approachSpeed_le s p) fun hn => absurd (h.enrolled (by rw [hph]; nofun) (by rw [hph]; nofun)) hn

theorem approachColumn (h : s.manned full p) (hph : s.phase = .approach) : (s.approachColumn p).sound full := by
  unfold State.approachColumn
  split
  · exact h.sound.setDemand_zero p
  · split
    · exact (h.recordContact hph).testAllContact (by rw [State.phase_of_course (State.recordContact_course s p)]; exact hph)
    · exact h.rise hph

theorem approachWork (h : s.manned full p) : (s.approachWork p).sound full := by
  have hoffered := (h.steady ((State.steady.refl s).takeStart p)).offerAll ((s.takeStart p).overloadCheck p)
  unfold State.approachWork
  dsimp only
  split
  · next hph => exact hoffered.approachColumn hph
  · exact hoffered.sound

/-! ### The retraction (R93 to R97) -/

theorem park (h : s.manned full p) (hph : s.phase = .retracting) : (s.park p).sound full := by
  have hpark := h.sound.modDemand p (fun c => { c with parked := true, demand := 0 }) (fun _ => ⟨⟨rfl, rfl⟩, rfl, rfl, id⟩)
    (Column.demand_zero rfl (h.sound.lawful.demands p).2.2)
  have hphase : (s.modCol p fun c => { c with parked := true, demand := 0 }).phase = .retracting := hph
  unfold State.park
  dsimp only
  split
  · exact State.sound_changePhase hpark.lawful hpark.founded h.running (by rw [hphase]; nofun) (by rw [hphase]; nofun) nofun rfl nofun
      fun _ => State.readyFor_idle _
  · exact hpark

theorem retractColumn (h : s.manned full p) (hph : s.phase = .retracting) : (s.retractColumn p).sound full := by
  unfold State.retractColumn
  split
  · exact h.sound.setDemand_zero p
  · split
    · exact h.park hph
    · split
      · exact h.park hph
      · split
        · exact h.sound.offerStop _
        · refine h.sound.setDemand p _ ⟨fun hpos => absurd hpos (not_lt.mpr (neg_nonpos.mpr (Int.natCast_nonneg _))), fun _ => .inr (.inl hph)⟩
            ?_ fun hn => absurd (h.enrolled (by rw [hph]; nofun) (by rw [hph]; nofun)) hn
          rw [Int.natAbs_neg]
          exact approachSpeed_le s p

theorem retractWork (h : s.manned full p) : (s.retractWork p).sound full := by
  have hoffered := h.offerAll (s.overloadCheck p)
  unfold State.retractWork
  dsimp only
  split
  · next hph => exact hoffered.retractColumn hph
  · exact hoffered.sound

/-! ### The report (R18, R61, R120) -/

theorem trackingWork (h : s.manned full p) : (s.trackingWork p).sound full := by
  have hrel := h.steady ((State.steady.refl s).withRel p)
  unfold State.trackingWork
  dsimp only
  split
  · exact hrel.sound
  · exact hrel.approachWork
  · exact hrel.retractWork
  · exact hrel.restWork
  · exact hrel.restWork
  · exact hrel.restWork
  all_goals exact hrel.trackedWork

theorem faultCheck (h : s.manned full p) (before : Bool) (r : Report) : (s.faultCheck p before r).manned full p := by
  have htold := ite h (h.steady ((State.steady.refl s).raise .columnFault)) (c := before = true)
  unfold State.faultCheck
  exact ite (ite htold (htold.offerStop _)) h

theorem handleReport (h : s.manned full p) (g : SegId) (r : Report) : (s.handleReport g p r).sound full := by
  have hwritten := h.steady ((((State.steady.refl s).writeReport p r).creepTest g p).wakeIfMoving r)
  exact ((State.steady.refl _).testWatches p).sound ((hwritten.faultCheck _ r).trackingWork.testCompletion)

end State.manned

/-! ### The status arrival (R18, R31) -/

theorem State.sound.statusArrival (hs : s.sound full) (hm : s.mirrored) (hg : s.groupReady) (g : SegId) (frame : List Byte) :
    (s.statusArrival g frame).sound full := by
  unfold State.statusArrival
  split
  · next x hp hx =>
    split
    · exact hs
    · next r _ =>
      have hfree := (State.steady.refl s).lineFreed g
      have hfreed := hfree.sound hs
      have hmirrored : (s.lineFreed g).mirrored := State.mirrored_congr (s := s) rfl rfl (fun g' d => ⟨(hfree.segs g').link d, (hfree.segs g').cap d⟩)
        (fun p => ⟨rfl, rfl⟩) hm
      have hecho : ((s.lineFreed g).seg g).echo = (s.seg g).echo := by
        rw [State.lineFreed, State.seg_modSeg_self]
      have hquiet : full → ((s.lineFreed g).seg g).echo.code ≠ 2 := fun hf hrun => by
        have := ((hs.founded hf).echo.2 g (hecho ▸ hrun)).1
        cases hx.symm.trans this
      have hreply := hfreed.acceptReply hmirrored hp x r hquiet
      have hready : (s.lineFreed g).groupReady := hfree.groupReady hg
      have henrolled := fun p => State.acceptReply_enrolled (g := g) (p := p) hmirrored hready x r
      have hdesk := State.acceptReply_desk (s.lineFreed g) g x r
      have hphase : ((s.lineFreed g).acceptReply g x r).phase = s.phase := State.phase_of_course (State.acceptReply_course (s.lineFreed g) g x r)
      have hmapped : ((s.lineFreed g).acceptReply g x r).mappedAt = (s.lineFreed g).mappedAt := State.mappedAt_congr (State.roster_of_desk hdesk)
      have hpower : ((s.lineFreed g).acceptReply g x r).power = .running := (State.power_of_desk hdesk).trans hp
      have hall : (s.takeReply g x r) = (match ((s.lineFreed g).acceptReply g x r).mappedAt g x.drop with
        | none => ((s.lineFreed g).acceptReply g x r).wakeIfMoving r
        | some p => ((s.lineFreed g).acceptReply g x r).handleReport g p r).modSeg g Segment.goOn := rfl
      rw [hall]
      generalize (s.lineFreed g).acceptReply g x r = t at hreply henrolled hphase hmapped hpower
      refine ((State.steady.refl _).goOn g).sound ?_
      split
      · exact ((State.steady.refl _).wakeIfMoving r).sound hreply
      · next p hp' =>
        refine State.manned.handleReport ⟨hreply, hpower, State.validPos_of_mappedAt hp', ?_⟩ g r
        rw [hphase]
        rw [hmapped] at hp'
        exact henrolled p hp'
  · exact hs

end Sys2Proof.Machine

/-! The laws through the group requests, REARM, STOP, ECHO and the edits of the plan and the limits. -/

namespace Sys2Proof.Machine

set_option Elab.async false

variable {s : State} {full : Prop} {q : PortId} {args : List Byte}

/-! ### What an accepted request has passed -/

theorem State.running_of_turnedAway (h : s.turnedAway q = none) : s.power = .running := by
  unfold State.turnedAway at h
  split at h
  · cases h
  · split at h
    · cases h
    · next hp => exact not_not.mp hp

theorem State.passed_of_groupRefusal {taken : Phase → Bool} (h : s.groupRefusal q taken args = none) :
    s.power = .running ∧ taken s.phase = true := by
  unfold State.groupRefusal at h
  split at h
  · cases h
  · next hturned =>
    split at h
    · next htaken => exact ⟨State.running_of_turnedAway hturned, htaken⟩
    · cases h

theorem State.enrolled_of_firstNotEnrolled (h : s.firstNotEnrolled = none) {p : Pos} (hv : s.validPos p = true) :
    (s.col p).link = .enrolled := by
  have hp := List.find?_eq_none.mp h p (State.mem_validPositions.mpr hv)
  simpa using hp

theorem State.passed_of_approachRefusal (h : s.approachRefusal = none) : s.roster.confirmed = true ∧ s.firstNotEnrolled = none := by
  unfold State.approachRefusal at h
  split at h
  · cases h
  · split at h
    · cases h
    · next hconfirmed =>
      split at h
      · cases h
      · next hfirst => exact ⟨by simpa using hconfirmed, hfirst⟩

/-! ### The group requests (R66 to R81) -/

theorem ownerApproach_sound (hs : s.sound full) : (ownerApproach q s args).1.sound full := by
  unfold ownerApproach
  split
  · exact hs
  · next h =>
    obtain ⟨hp, htaken⟩ := State.passed_of_groupRefusal h
    have htakes : ∀ ph : Phase, ph.takesApproach = true → ph = .idle := by
      intro ph
      cases ph <;> decide
    have hidle := htakes _ htaken
    split
    · exact hs
    · next hcheck =>
      obtain ⟨hconfirmed, hfirst⟩ := State.passed_of_approachRefusal hcheck
      refine State.sound_changePhase hs.lawful hs.founded hp (by rw [hidle]; nofun) (by rw [hidle]; nofun) nofun rfl nofun fun _ => ?_
      exact ⟨fun p hv _ _ => State.enrolled_of_firstNotEnrolled hfirst hv, fun _ _ => nofun, fun _ => hconfirmed⟩

/-- The pause flag may be set and cleared while a leg runs (R73). -/
theorem State.sound.withPause (hs : s.sound full) (hleg : s.phase.isLeg = true) (b : Bool) :
    ({ s with pausePending := b } : State).sound full := by
  refine ⟨⟨hs.lawful.congr rfl rfl rfl rfl, fun hf => ?_, fun hf => ?_⟩, hs.onLeg⟩
  · have h := hs.founded hf
    exact ⟨h.plan, h.limits, h.fine, h.target, h.echo, h.roster, h.drops, h.mirrored, h.contacts, h.columns⟩
  · have h := hs.paced hf
    exact ⟨h.still, h.speed, ⟨h.timers.1, h.timers.2.1, fun _ => hleg⟩, h.polling, h.ready, h.approach⟩

/-- The phases that take a RUN, a SETDOWN or a RETRACT have contacts (R63). -/
theorem Phase.hasContacts_of_taken {taken : Phase → Bool} (ht : taken = Phase.takesRun ∨ taken = Phase.takesSetdown ∨ taken = Phase.takesRetract)
    {ph : Phase} (h : taken ph = true) : ph.hasContacts = true := by
  rcases ht with rfl | rfl | rfl
  all_goals
    revert h
    cases ph <;> decide

theorem ownerRun_sound (hs : s.sound full) : (ownerRun q s args).1.sound full := by
  unfold ownerRun
  split
  · exact hs
  · next h =>
    obtain ⟨-, htaken⟩ := State.passed_of_groupRefusal h
    split
    · next hleg => exact hs.withPause hleg false
    · split
      · exact hs
      · next hindex =>
        exact (hs.toupright.startLeg (Phase.hasContacts_of_taken (.inl rfl) htaken) fun _ => Nat.lt_of_not_le hindex).testCompletion

theorem ownerPause_sound (hs : s.sound full) : (ownerPause q s args).1.sound full := by
  unfold ownerPause
  split
  · exact hs
  · next h =>
    obtain ⟨-, htaken⟩ := State.passed_of_groupRefusal h
    split
    · next hleg => exact hs.withPause hleg true
    · next hleg =>
      have hdwell : ∀ ph : Phase, ph.takesPause = true → ph.isLeg = true ∨ ph = .dwell := by
        intro ph
        cases ph <;> decide
      exact State.sound_holding hs.toupright (hdwell _ htaken)

theorem ownerSetdown_sound (hs : s.sound full) : (ownerSetdown q s args).1.sound full := by
  unfold ownerSetdown
  split
  · exact hs
  · next h =>
    obtain ⟨-, htaken⟩ := State.passed_of_groupRefusal h
    exact (hs.toupright.startLeg (down := true) (Phase.hasContacts_of_taken (.inr (.inl rfl)) htaken) nofun).testCompletion

theorem ownerRetract_sound (hs : s.sound full) : (ownerRetract q s args).1.sound full := by
  unfold ownerRetract
  split
  · exact hs
  · next h =>
    obtain ⟨hp, htaken⟩ := State.passed_of_groupRefusal h
    have hc := Phase.hasContacts_of_taken (.inr (.inr rfl)) htaken
    have hother : ∀ ph : Phase, ph.takesRetract = true → ph ≠ .stopped ∧ ph ≠ .retracting := by
      intro ph
      cases ph <;> decide
    obtain ⟨hns, hne⟩ := hother _ htaken
    exact State.sound_changePhase hs.lawful hs.founded hp hns hne nofun rfl nofun fun hf => (hs.paced hf).readyFor.other hc nofun

/-! ### REARM (R153 to R155) -/

theorem State.enrolled_of_rearmRefusal (h : s.rearmRefusal = none) : s.firstNotEnrolled = none := by
  unfold State.rearmRefusal at h
  split at h
  · cases h
  · cases hfirst : s.firstNotEnrolled with
    | none => rfl
    | some p => rw [hfirst] at h; cases h

theorem State.reseatedH_le (s : State) : s.reseatedH ≤ 40000 := by
  unfold State.reseatedH
  split
  · exact Nat.min_le_left _ _
  · rw [clampInt_eq _ _ _ (by decide)]
    omega

/-- The state that a REARM's phase change starts from is that of the stop, but for the stop unit, the latches and the reference. -/
theorem State.founded.rearmed (h : s.founded) (hph : s.phase = .stopped) {u : StopUnit} (hr : u.record = none) :
    ({ s with stop := u } : State).clearLatches.founded := by
  have hcol : ∀ p, ({ s with stop := u } : State).clearLatches.col p = { s.col p with wasLost := false } :=
    fun p => State.col_mapCols { s with stop := u } (fun c => { c with wasLost := false }) p
  refine ⟨h.plan, h.limits, h.fine, h.target, h.echo, h.roster, h.drops, ?_, fun p hv hl hk => ?_, fun p => ?_⟩
  · exact State.mirrored_congr (s := s) rfl rfl (fun _ _ => ⟨rfl, rfl⟩) (fun p => by rw [hcol]; exact ⟨rfl, rfl⟩) h.mirrored
  · rw [hcol] at hl hk
    exact h.contacts p hv hl hk
  · obtain ⟨hrange, hinvalid, -⟩ := h.columns p
    rw [hcol]
    refine ⟨hrange, hinvalid, fun hi => ?_⟩
    unfold State.imagePhase at hi
    rw [show ({ s with stop := u } : State).clearLatches.phase = .stopped from hph,
      show ({ s with stop := u } : State).clearLatches.stop.record = none from hr] at hi
    cases hi

/-- What the reseating leaves alone, and the range of the reseated reference (R155). -/
theorem State.reseat_eq (s : State) : ∃ n, s.reseat =
    { s with ref := { s.ref with h := s.reseatedH, fine := 100 * s.reseatedH, vEff := 0 }, fresh := n } := by
  unfold State.reseat State.spendFresh
  dsimp only
  split
  · exact ⟨_, rfl⟩
  · exact ⟨s.fresh, rfl⟩

theorem State.founded.reseat (h : s.founded) : s.reseat.founded := by
  obtain ⟨n, hn⟩ := s.reseat_eq
  have hle := s.reseatedH_le
  have href := h.withRef (r := { s.ref with h := s.reseatedH, fine := 100 * s.reseatedH, vEff := 0 })
    ⟨by dsimp only; omega, by dsimp only; omega⟩ h.target
  rw [hn]
  exact ⟨href.plan, href.limits, href.fine, href.target, href.echo, href.roster, href.drops, href.mirrored, href.contacts, href.columns⟩

theorem State.rearmPhase_cases (s : State) : (s.rearmPhase = .idle ∨ s.allContact = true) ∧ s.rearmPhase ≠ .stopped ∧
    s.rearmPhase.isLeg = false ∧ s.rearmPhase ≠ .dwell ∧ s.rearmPhase ≠ .approach := by
  unfold State.rearmPhase
  split
  · next hall =>
    split
    all_goals exact ⟨.inr hall, nofun, rfl, nofun, nofun⟩
  · exact ⟨.inl rfl, nofun, rfl, nofun, nofun⟩

theorem State.sound.acceptRearm (hs : s.sound full) (hp : s.power = .running) (hph : s.phase = .stopped) (hcheck : s.rearmRefusal = none) :
    s.acceptRearm.sound full := by
  obtain ⟨hcontacts, hnew, hleg, hdwell, happroach⟩ := s.rearmPhase_cases
  let t : State := ({ s with stop := s.stop.rearmed } : State).clearLatches
  let u : State := if s.rearmPhase = .holding then t.reseat else t
  have hcol : ∀ p, t.col p = { s.col p with wasLost := false } :=
    fun p => State.col_mapCols { s with stop := s.stop.rearmed } (fun c => { c with wasLost := false }) p
  have hkept : u.power = s.power ∧ u.phase = s.phase ∧ u.roster = s.roster ∧ u.stop = s.stop.rearmed ∧ u.cols = t.cols := by
    have hu : u = if s.rearmPhase = .holding then t.reseat else t := rfl
    obtain ⟨n, hn⟩ := t.reseat_eq
    rw [hu, hn]
    split
    all_goals exact ⟨rfl, rfl, rfl, rfl, rfl⟩
  obtain ⟨hpower, hphase, hroster, hstop, hcols⟩ := hkept
  have hfounded : full → u.founded := fun hf => by
    have ht := (hs.founded hf).rearmed hph (u := s.stop.rearmed) rfl
    have hu : u = if s.rearmPhase = .holding then t.reseat else t := rfl
    rw [hu]
    split
    · exact ht.reseat
    · exact ht
  have hready : u.readyFor s.rearmPhase := by
    refine State.readyFor.congr (s := t) ?_ (hroster.trans rfl) hcols
    refine ⟨fun p hv _ _ => ?_, fun p hv hc => ?_, fun ha => absurd ha happroach⟩
    · rw [hcol]
      exact State.enrolled_of_firstNotEnrolled (State.enrolled_of_rearmRefusal hcheck) hv
    · rw [hcol]
      refine State.allContact_iff.mp (hcontacts.resolve_left fun hi => ?_) p hv
      rw [hi] at hc
      cases hc
  have hchange := State.changePhase_spec u s.rearmPhase (by rw [hphase, hph]; exact hnew.symm) (hpower.trans hp)
  exact ⟨⟨State.lawful_of_change hchange (hpower.trans hp) (by rw [hstop]; rfl) (by rw [hstop]; nofun) hnew,
    fun hf => State.founded_of_change hchange (hfounded hf) hnew,
    fun _ => State.paced_of_change hchange hready (fun h => absurd (h.symm.trans hleg) nofun) fun h => absurd h hdwell⟩,
    fun _ => State.onLeg_of_not ((congrArg Phase.isLeg hchange.phase).trans hleg)⟩

theorem ownerRearm_sound (hs : s.sound full) : (ownerRearm q s args).1.sound full := by
  unfold ownerRearm
  split
  · exact hs
  · next h =>
    split
    · exact hs
    · next hph =>
      split
      · exact hs
      · split
        · exact hs
        · next hcheck => exact hs.acceptRearm (State.running_of_turnedAway h) (not_not.mp hph) hcheck

/-! ### The edits of the plan and of the limits (R100 to R102, R142) -/

theorem State.passed_of_planRefusal (h : s.planRefusal q = none) : s.phase.isLeg = false := by
  have hrefuses : ∀ ph : Phase, ph.refusesPlanEdit = false → ph.isLeg = false := by
    intro ph
    cases ph <;> decide
  unfold State.planRefusal at h
  split at h
  · cases h
  · split at h
    · cases h
    · next hph => exact hrefuses _ (Bool.eq_false_iff.mpr hph)

theorem State.sound.withPlan (hs : s.sound full) (hleg : s.phase.isLeg = false) {p : Plan} (hp : full → p.well = true) :
    ({ s with plan := p } : State).sound full := by
  refine ⟨⟨hs.lawful.congr rfl rfl rfl rfl, fun hf => (hs.founded hf).withPlan (hp hf), fun hf => ?_⟩, fun _ => State.onLeg_of_not hleg⟩
  have h := hs.paced hf
  exact ⟨h.still, h.speed, h.timers, h.polling, h.ready, h.approach⟩

theorem PlanLegArgs.clampedLeg_inRange (a : PlanLegArgs) : a.clampedLeg.inRange = true := by
  rw [Leg.inRange_iff]
  unfold PlanLegArgs.clampedLeg
  rw [clampNat_eq _ _ _ (by decide)]
  dsimp only
  omega

theorem Plan.write_well {p : Plan} (h : p.well = true) {i : Fin 16} {leg : Leg} (hleg : leg.inRange = true) :
    (p.write i leg).well = true := by
  obtain ⟨hcount, hindex, hlegs⟩ := Plan.well_iff.mp h
  have hi := i.isLt
  have hgrown : p.count ≤ (p.write i leg).count ∧ (p.write i leg).count ≤ 16 := by
    unfold Plan.write
    dsimp only
    split <;> omega
  refine Plan.well_iff.mpr ⟨hgrown.2, hindex.trans hgrown.1, fun j => ?_⟩
  have hget : (p.write i leg).legs.get j = if j = i then leg else p.legs.get j := Table.get_set _ _ _ _
  rw [hget]
  split
  · exact hleg
  · exact hlegs j

theorem Plan.cut_well {p : Plan} (h : p.well = true) {k : Nat} (hk : k ≤ p.count) : (p.cut k).well = true := by
  obtain ⟨hcount, -, hlegs⟩ := Plan.well_iff.mp h
  exact Plan.well_iff.mpr ⟨hk.trans hcount, Nat.min_le_right _ _, hlegs⟩

theorem ownerPlanLeg_sound (hs : s.sound full) : (ownerPlanLeg q s args).1.sound full := by
  unfold ownerPlanLeg
  split
  · exact hs
  · next h =>
    split
    · exact hs
    · next a _ =>
      split
      · split
        · exact hs
        · exact ((State.steady.refl _).trigger).sound (hs.withPlan (State.passed_of_planRefusal h) fun hf =>
            Plan.write_well (hs.founded hf).plan a.clampedLeg_inRange)
      · exact hs

theorem ownerPlanCut_sound (hs : s.sound full) : (ownerPlanCut q s args).1.sound full := by
  unfold ownerPlanCut
  split
  · exact hs
  · next h =>
    split
    · exact hs
    · split
      · exact hs
      · next hk =>
        split
        · exact hs
        · exact ((State.steady.refl _).trigger).sound (hs.withPlan (State.passed_of_planRefusal h) fun hf =>
            Plan.cut_well (hs.founded hf).plan (Nat.le_of_not_lt hk))

theorem State.sound.withLimits (hs : s.sound full) {l : Table Nat 17} (hl : full → limitsWell l = true) :
    ({ s with limits := l } : State).sound full := by
  refine ⟨⟨hs.lawful.congr rfl rfl rfl rfl, fun hf => ?_, fun hf => ?_⟩, hs.onLeg⟩
  · have h := hs.founded hf
    exact ⟨h.plan, hl hf, h.fine, h.target, h.echo, h.roster, h.drops, h.mirrored, h.contacts, h.columns⟩
  · have h := hs.paced hf
    exact ⟨h.still, h.speed, h.timers, h.polling, h.ready, h.approach⟩

/-- A limit clamped to its range keeps the limits in order where the windows are (R142). -/
theorem limitsWell_set {l : Table Nat 17} (h : limitsWell l = true) {i : Fin 17} {v : Nat}
    (ho : limitsOrdered (l.set i (clampLimit i v)) = true) : limitsWell (l.set i (clampLimit i v)) = true := by
  obtain ⟨hrange, -⟩ := limitsWell_iff.mp h
  refine limitsWell_iff.mpr ⟨fun j => ?_, (limitsOrdered_iff _).mp ho⟩
  rw [Table.get_set]
  split
  · next e =>
    subst e
    have hord := limitRanges_ordered j
    unfold clampLimit
    rw [clampNat_eq _ _ _ hord]
    omega
  · exact hrange j

theorem ownerLimitSet_sound (hs : s.sound full) : (ownerLimitSet q s args).1.sound full := by
  unfold ownerLimitSet
  split
  · exact hs
  · split
    · exact hs
    · split
      · exact hs
      · dsimp only
        split
        · next hordered =>
          dsimp only
          split
          · exact hs
          · exact ((State.steady.refl _).trigger).sound (hs.withLimits fun hf => limitsWell_set (hs.founded hf).limits hordered)
        · exact hs

/-! ### ECHO and STOP (R39, R146) -/

/-- An accepted echo test waits on a line of its own: no other test stands (R39). -/
theorem State.sound.acceptEcho (hs : s.sound full) (hnone : ∀ g, (s.seg g).echo = .none) (g : SegId) (cable : Fin 3) :
    (s.modSeg g fun sg => { sg with echo := .waiting cable }).sound full := by
  let t := s.modSeg g fun sg => { sg with echo := .waiting cable }
  have hseg : ∀ x, t.seg x = if x = g then { s.seg x with echo := .waiting cable } else s.seg x := fun x => by
    rw [State.seg_modSeg]
  have hdrop : ∀ x d, t.drop x d = s.drop x d := fun x d => by
    unfold State.drop
    rw [hseg]
    split <;> rfl
  refine ⟨⟨hs.lawful.congr rfl rfl rfl rfl, fun hf => ?_, fun hf => ?_⟩, hs.onLeg⟩
  · have h := hs.founded hf
    refine ⟨h.plan, h.limits, h.fine, h.target, ⟨fun x y hx hy => ?_, fun x hrun => ?_⟩, h.roster, fun x d => ?_, ?_, h.contacts, h.columns⟩
    · have hat : ∀ z, (t.seg z).echo ≠ .none → z = g := fun z hz => by
        by_contra hne
        rw [hseg, if_neg hne] at hz
        exact hz (hnone z)
      exact (hat x hx).trans (hat y hy).symm
    · rw [hseg] at hrun
      split at hrun
      · cases hrun
      · rw [hnone x] at hrun
        cases hrun
    · rw [hdrop]
      exact h.drops x d
    · exact State.mirrored_congr (s := s) rfl rfl (fun x d => by rw [hdrop]; exact ⟨rfl, rfl⟩) (fun _ => ⟨rfl, rfl⟩) h.mirrored
  · have h := hs.paced hf
    refine ⟨h.still, h.speed, h.timers, fun hm x => ?_, h.ready, h.approach⟩
    rw [hseg]
    split
    all_goals exact h.polling hm x

theorem ownerEcho_sound (hs : s.sound full) : (ownerEcho q s args).1.sound full := by
  unfold ownerEcho
  split
  · exact hs
  · split
    · exact hs
    · next g cable _ =>
      split
      · exact hs
      · split
        · exact hs
        · next hstands =>
          have hnone : ∀ g, (s.seg g).echo = .none := by
            by_contra h
            exact hstands (State.echoStands_iff.mpr h)
          exact ((State.steady.refl _).echoRunning g).sound (hs.acceptEcho hnone g cable)

theorem ownerStop_sound (hs : s.sound full) : (ownerStop q s args).1.sound full :=
  hs.offerStop _

end Sys2Proof.Machine

/-! The laws through JOG and LINK (R9, R83, R138, R139). -/

namespace Sys2Proof.Machine

set_option Elab.async false

variable {s t : State} {full : Prop} {q : PortId} {args : List Byte} {affected : List Pos} {d : Int}

/-! ### The columns of a jog -/

/-- In HOLDING the offsets of valid positions may change within their range, and jogs may begin (R138, R139). -/
theorem State.sound.offsets (hs : s.sound full) (hph : s.phase = .holding) (hframe : { t with cols := s.cols } = s)
    (hcols : ∀ p, { t.col p with offset := (s.col p).offset, jog := (s.col p).jog } = s.col p)
    (hjog : ∀ p, (s.col p).jog = true → (t.col p).jog = true)
    (hoffset : full → ∀ p, (t.col p).offset = (s.col p).offset ∨
      s.validPos p = true ∧ -400 ≤ (t.col p).offset ∧ (t.col p).offset ≤ 400) : t.sound full := by
  have hpower : t.power = s.power := (congrArg State.power hframe :)
  have hphase : t.phase = s.phase := (congrArg State.phase hframe :)
  have hroster : t.roster = s.roster := (congrArg State.roster hframe :)
  have hplan : t.plan = s.plan := (congrArg State.plan hframe :)
  have href : t.ref = s.ref := (congrArg State.ref hframe :)
  have hlimits : t.limits = s.limits := (congrArg State.limits hframe :)
  have hstop : t.stop = s.stop := (congrArg State.stop hframe :)
  have hpause : t.pausePending = s.pausePending := (congrArg State.pausePending hframe :)
  have hseg : ∀ g, t.seg g = s.seg g := State.seg_congr (congrArg State.segs hframe :)
  have hdrop : ∀ g d, t.drop g d = s.drop g d := State.drop_congr (congrArg State.segs hframe :)
  have hlink : ∀ p, (t.col p).link = (s.col p).link := fun p => (congrArg Column.link (hcols p) :)
  have hcap : ∀ p, (t.col p).cap = (s.col p).cap := fun p => (congrArg Column.cap (hcols p) :)
  have hcontact : ∀ p, (t.col p).contact = (s.col p).contact := fun p => (congrArg Column.contact (hcols p) :)
  have hdemand : ∀ p, (t.col p).demand = (s.col p).demand := fun p => (congrArg Column.demand (hcols p) :)
  refine ⟨⟨⟨?_, fun p => ?_⟩, fun hf => ?_, fun hf => ?_⟩, fun hf => ?_⟩
  · exact State.stopsSafe_congr (by rw [hstop]) (by rw [hstop]) (by rw [hstop]) hphase hpower hs.lawful.stops
  · obtain ⟨⟨hup, hdown⟩, ⟨hbound, henrolled⟩, -⟩ := hs.lawful.demands p
    simp only [Column.demandFits, Column.demandBounded, Column.speedBound, hdemand, hlink, hcap, hphase]
    have hjogs : ∀ {a b : Prop}, (a ∨ b ∨ s.phase = .holding ∧ (s.col p).jog = true) → a ∨ b ∨ s.phase = .holding ∧ (t.col p).jog = true :=
      fun h => h.imp_right fun h => h.imp_right fun h => ⟨h.1, hjog p h.2⟩
    exact ⟨⟨fun h => hjogs (hup h), fun h => hjogs (hdown h)⟩, ⟨hbound, henrolled⟩, fun _ => hph⟩
  · have h := hs.founded hf
    refine ⟨by rw [hplan]; exact h.plan, by rw [State.limitsInRange, hlimits]; exact h.limits, by rw [href]; exact h.fine,
      by rw [href]; exact h.target, ?_, by rw [State.rosterWell, hroster]; exact h.roster, fun g d => by rw [hdrop]; exact h.drops g d,
      ?_, fun p hv hl hk => ?_, fun p => ?_⟩
    · simp only [State.echoWell, hseg]
      exact h.echo
    · exact State.mirrored_congr hpower hroster (fun g d => by rw [hdrop]; exact ⟨rfl, rfl⟩) (fun p => ⟨hlink p, hcap p⟩) h.mirrored
    · rw [State.validPos_congr hroster] at hv
      rw [hlink] at hl
      rw [hcontact] at hk
      rw [hroster]
      exact h.contacts p hv hl hk
    · obtain ⟨⟨hheight, hload, hrange, hlow, hhigh⟩, hinvalid, -⟩ := h.columns p
      have himage : t.imagePhase = .holding := by
        rw [State.imagePhase_congr hphase (by rw [hstop]), State.imagePhase_of_ne (by rw [hph]; nofun), hph]
      rw [State.validPos_congr hroster, himage]
      refine ⟨?_, fun hv => ⟨(hcontact p).trans (hinvalid hv).1, ?_⟩, nofun⟩
      · have hheight' : (t.col p).height = (s.col p).height := (congrArg Column.height (hcols p) :)
        have hload' : (t.col p).load = (s.col p).load := (congrArg Column.load (hcols p) :)
        rw [Column.inRange, hheight', hload', hcontact]
        refine ⟨hheight, hload, hrange, ?_⟩
        rcases hoffset hf p with he | ⟨-, h1, h2⟩
        · rw [he]
          exact ⟨hlow, hhigh⟩
        · exact ⟨h1, h2⟩
      · rcases hoffset hf p with he | ⟨hvalid, -⟩
        · exact he.trans (hinvalid hv).2
        · exact absurd (hvalid.symm.trans hv) nofun
  · have h := hs.paced hf
    refine ⟨by rw [href, hphase]; exact h.still, by rw [href, hphase]; exact h.speed, ?_, ?_, fun p hv => ?_,
      by rw [hphase, hroster]; exact h.approach⟩
    · rw [State.timersWell, href, hphase, hpause]
      exact h.timers
    · simp only [State.pollingWell, hseg, hphase]
      exact h.polling
    · rw [State.validPos_congr hroster] at hv
      rw [hphase, hlink, hcontact]
      exact h.ready p hv
  · rw [State.onLeg, hphase, href, hplan]
    exact hs.onLeg hf

/-- What the offsets and the flags of a jog leave alone. -/
theorem State.jogged_frame (affected : List Pos) (d : Int) (s : State) :
    { affected.foldl State.flagJog (affected.foldl (State.addOffset d) s) with cols := s.cols } = s := by
  have hmoved : { affected.foldl (State.addOffset d) s with cols := s.cols } = s :=
    State.foldl_modCol_frame (f := State.addOffset d) (fun u p => rfl) affected s
  have hflagged := State.foldl_modCol_frame State.flagJog_frame affected (affected.foldl (State.addOffset d) s)
  exact (congrArg (fun u : State => { u with cols := s.cols }) hflagged :).trans hmoved

/-- A column after a jog: its offset and its flag. -/
theorem State.jogged_col (hn : affected.Nodup) (d : Int) (s : State) (p : Pos) :
    let c := (affected.foldl State.flagJog (affected.foldl (State.addOffset d) s)).col p
    { c with offset := (s.col p).offset, jog := (s.col p).jog } = s.col p ∧ ((s.col p).jog = true → c.jog = true) ∧
      (c.offset = (s.col p).offset ∨ p ∈ affected ∧ c.offset = (s.col p).offset + d) := by
  have hmoved : (affected.foldl (State.addOffset d) s).col p =
      if p ∈ affected then { s.col p with offset := (s.col p).offset + d } else s.col p :=
    State.col_foldl_modCol (fun c => { c with offset := c.offset + d }) hn s p
  dsimp only
  rw [State.col_foldl_flagJog, hmoved]
  by_cases hp : p ∈ affected
  · rw [if_pos hp]
    split
    · exact ⟨rfl, fun _ => rfl, .inr ⟨hp, rfl⟩⟩
    · exact ⟨rfl, id, .inr ⟨hp, rfl⟩⟩
  · rw [if_neg hp, if_neg fun h => hp h.1]
    exact ⟨rfl, id, .inl rfl⟩

theorem State.sound.applyJog (hs : s.sound full) (hph : s.phase = .holding) (hn : affected.Nodup)
    (hvalid : full → ∀ p ∈ affected, s.validPos p = true ∧ -400 ≤ (s.col p).offset + d ∧ (s.col p).offset + d ≤ 400) :
    (s.applyJog affected d).sound full := by
  have hjogged : (affected.foldl State.flagJog (affected.foldl (State.addOffset d) s)).sound full := by
    refine hs.offsets hph (State.jogged_frame affected d s) (fun p => (State.jogged_col hn d s p).1)
      (fun p => (State.jogged_col hn d s p).2.1) fun hf p => ?_
    refine (State.jogged_col hn d s p).2.2.imp_right ?_
    rintro ⟨hp, he⟩
    obtain ⟨hv, hlow, hhigh⟩ := hvalid hf p hp
    rw [he]
    exact ⟨hv, hlow, hhigh⟩
  unfold State.applyJog
  dsimp only
  split
  · exact ((State.steady.refl _).wake).sound hjogged
  · exact ((State.steady.refl _).trigger).sound hjogged

/-! ### The effective delta (R138) -/

theorem largestAllowed_allowed (allowed : Nat → Bool) (n : Nat) :
    largestAllowed allowed n = 0 ∨ allowed (largestAllowed allowed n) = true := by
  induction n with
  | zero => exact .inl rfl
  | succ n ih =>
    unfold largestAllowed
    split
    · next h => exact .inr h
    · exact ih

theorem State.effectiveDelta_allowed (s : State) (affected : List Pos) (delta : Int) :
    s.effectiveDelta affected delta = 0 ∨ s.jogAllowed affected (s.effectiveDelta affected delta) = true := by
  unfold State.effectiveDelta
  split
  · exact (largestAllowed_allowed (fun n => s.jogAllowed affected n) _).imp_left fun h => by rw [h]; rfl
  · exact (largestAllowed_allowed (fun n => s.jogAllowed affected (-(n : Int))) _).imp_left fun h => by rw [h]; rfl

/-! ### The affected positions (R83) -/

theorem JogTarget.positions_nodup (target : JogTarget) : target.positions.Nodup := by
  cases target with
  | column p => exact List.nodup_singleton p
  | car c => exact carPositions_nodup c

theorem State.carPresent_iff {c : CarId} : s.carPresent c = true ↔ ∃ p, carOf p = c ∧ s.validPos p = true := by
  simp only [State.carPresent, List.any_eq_true, mem_carPositions]

/-- In HOLDING the roster is confirmed where it has a valid position, and so every position of a present car is valid (R10, R63). -/
theorem State.founded.carWhole (hf : s.founded) (hp : s.paced) (hph : s.phase = .holding) {c : CarId} (h : s.carPresent c = true) {x : Pos}
    (hx : carOf x = c) : s.validPos x = true := by
  obtain ⟨p, hc, hv⟩ := State.carPresent_iff.mp h
  obtain ⟨hlink, hcontact⟩ := hp.ready p hv
  have hconfirmed := hf.contacts p hv (hlink (by rw [hph]; nofun) (by rw [hph]; nofun)) (hcontact (by rw [hph]; rfl))
  obtain ⟨-, hwhole⟩ := Roster.confirmedWell_iff.mp hf.roster.2 hconfirmed
  have hserial := Roster.wholeCar_iff.mp (hwhole c) p x hc hx hv
  unfold State.validPos State.entry
  cases he : s.roster.entries.get x with
  | none => rw [he] at hserial; cases hserial
  | some e => rfl

theorem State.founded.admitted (hf : s.founded) (hp : s.paced) (hph : s.phase = .holding) {target : JogTarget} (h : s.jogAdmits target = true) :
    ∀ p ∈ target.positions, s.validPos p = true := by
  cases target with
  | column x =>
    intro p hx
    rw [List.mem_singleton.mp hx]
    exact h
  | car c =>
    intro p hx
    exact State.founded.carWhole hf hp hph h (mem_carPositions.mp hx)

theorem ownerJog_sound (hs : s.sound full) : (ownerJog q s args).1.sound full := by
  unfold ownerJog
  split
  · exact hs
  · split
    · exact hs
    · next hph =>
      have hholding : s.phase = .holding := not_not.mp hph
      split
      · exact hs
      · next target delta _ =>
        split
        · next hadmits =>
          dsimp only
          split
          · exact hs
          · next hne =>
            have hallowed := State.jogAllowed_iff.mp ((s.effectiveDelta_allowed target.positions delta).resolve_left hne)
            refine hs.applyJog hholding target.positions_nodup fun hf p hp => ?_
            obtain ⟨hlow, hhigh, -⟩ := State.columnAllows_iff.mp (hallowed p hp).1
            exact ⟨State.founded.admitted (hs.founded hf) (hs.paced hf) hholding hadmits p hp, hlow, hhigh⟩
        · exact hs

/-! ### LINK (R9) -/

theorem State.sound.withLinks (hs : s.sound full) (l : Table Bool 11) :
    ({ s with roster := { s.roster with links := l } } : State).sound full := by
  refine ⟨⟨hs.lawful.congr rfl rfl rfl rfl, fun hf => ?_, fun hf => ?_⟩, hs.onLeg⟩
  · have h := hs.founded hf
    exact ⟨h.plan, h.limits, h.fine, h.target, h.echo, h.roster, h.drops, h.mirrored, h.contacts, h.columns⟩
  · have h := hs.paced hf
    exact ⟨h.still, h.speed, h.timers, h.polling, h.ready, h.approach⟩

theorem State.steady.triggerIfChanged (h : s.steady t) (r : Roster) : s.steady (t.triggerIfChanged r) := ite h h.trigger

theorem ownerLink_sound (hs : s.sound full) : (ownerLink q s args).1.sound full := by
  unfold ownerLink
  split
  · exact hs
  · split
    · exact hs
    · exact ((State.steady.refl _).triggerIfChanged _).sound (hs.withLinks _)

end Sys2Proof.Machine

/-! The laws through the roster edits, which IDLE alone takes (R4 to R11): nothing moves there, so an edit has only the roster, the drops and
their copies in the columns to keep in order. -/

namespace Sys2Proof.Machine

set_option Elab.async false

variable {s t u : State} {full : Prop} {q : PortId} {args : List Byte}

/-! ### What a roster edit leaves of the group and of the columns -/

/-- The fields of a column that the laws look at, but for its copies of a drop. -/
def Column.carried (c : Column) : Int × Bool × Option Nat × Int × Option Nat × Option Nat :=
  (c.demand, c.jog, c.contact, c.offset, c.height, c.load)

/-- From `s` to `t` the group stays, and every column keeps what it carries or is emptied. -/
structure State.calm (s t : State) : Prop where
  power : t.power = s.power
  course : t.course = s.course
  limits : t.limits = s.limits
  cols : ∀ p, (t.col p).carried = (s.col p).carried ∨ (t.col p).carried = Column.empty.carried

namespace State.calm

theorem refl (s : State) : s.calm s := ⟨rfl, rfl, rfl, fun _ => .inl rfl⟩

theorem trans (h : s.calm t) (h' : t.calm u) : s.calm u :=
  ⟨h'.power.trans h.power, h'.course.trans h.course, h'.limits.trans h.limits, fun p => by
    rcases h'.cols p with he | he
    · rw [he]
      exact h.cols p
    · exact .inr he⟩

/-- An update that keeps the columns but for their links, capabilities and creep records. -/
theorem update (h : s.calm t) (hp : u.power = t.power := by rfl) (hc : u.course = t.course := by rfl) (hl : u.limits = t.limits := by rfl)
    (hcols : ∀ p, (u.col p).carried = (t.col p).carried := by exact fun _ => rfl) : s.calm u :=
  h.trans ⟨hp, hc, hl, fun p => .inl (hcols p)⟩

theorem of_creep {c d : Column} {k : Option Nat} (h : { c with creep := k } = d) : c.carried = d.carried := by
  rw [← h]
  rfl

theorem changeLink (h : s.calm t) (g : SegId) (d : DropId) (new : LinkState) : s.calm (t.changeLink g d new) := by
  by_cases hne : (t.drop g d).link = new
  · rwa [show t.changeLink g d new = t from if_pos hne]
  · have hr := State.changeLink_relinks hne
    refine h.update (congrArg State.power hr.kept :) (congrArg State.course hr.kept :) (congrArg State.limits hr.kept :) fun p => ?_
    rw [of_creep (hr.cols p)]
    split <;> rfl

theorem entryLeaves (h : s.calm t) (o : Option RosterEntry) : s.calm (t.entryLeaves o) := by
  cases o with
  | none => exact h
  | some e =>
    unfold State.entryLeaves State.dropLeaves
    dsimp only
    split
    · exact h.changeLink _ _ _
    · exact h.changeLink _ _ _
    all_goals exact h

theorem emptyRecord (h : s.calm t) (p : Pos) : s.calm (t.emptyRecord p) := by
  have he := t.emptyRecord_empties p
  refine h.trans ⟨(congrArg State.power he.kept :), (congrArg State.course he.kept :), (congrArg State.limits he.kept :), fun x => ?_⟩
  by_cases hx : x = p
  · rw [hx, he.col]
    exact .inr rfl
  · exact .inl (of_creep (he.cols x hx))

theorem loadRecord (h : s.calm t) (p : Pos) (g : SegId) (d : DropId) : s.calm (t.loadRecord p g d) := by
  have he := t.loadRecord_loads p g d
  refine h.trans ⟨(congrArg State.power he.kept :), (congrArg State.course he.kept :), (congrArg State.limits he.kept :), fun x => ?_⟩
  by_cases hx : x = p
  · rw [hx, he.col]
    exact .inr rfl
  · exact .inl (of_creep (he.cols x hx))

theorem enrolAll (l : List Pos) : ∀ {t : State}, s.calm t → s.calm (l.foldl State.enrolAt t) := by
  induction l with
  | nil => exact id
  | cons p l ih =>
    intro t h
    refine ih ?_
    unfold State.enrolAt
    split
    · split
      · exact h.changeLink _ _ _
      · exact h
    · exact h

theorem confirmedOf (h : s.calm t) : s.calm t.confirmedOf := by
  refine h.update (hcols := fun p => ?_)
  unfold State.confirmedOf State.clearLatches
  rw [State.col_mapCols]
  rfl

/-! ### The laws after an edit -/

/-- In IDLE nothing moves before an edit, and nothing after it (R128). -/
theorem lawful (h : s.calm t) (hs : s.lawful) (hph : s.phase = .idle) : t.lawful := by
  have hstop : t.stop = s.stop := State.stop_of_course h.course
  have hphase : t.phase = s.phase := State.phase_of_course h.course
  refine ⟨State.stopsSafe_congr (by rw [hstop]) (by rw [hstop]) (by rw [hstop]) hphase h.power hs.stops, fun p => ?_⟩
  obtain ⟨hdemand, hjog⟩ := hs.demands.rest (.inl hph) p
  have hrest : (t.col p).demand = 0 ∧ (t.col p).jog = false := by
    rcases h.cols p with he | he
    · exact ⟨(congrArg (·.1) he).trans hdemand, (congrArg (·.2.1) he).trans hjog⟩
    · exact ⟨congrArg (·.1) he, congrArg (·.2.1) he⟩
  exact Column.demand_zero hrest.1 fun hj => absurd (hj.symm.trans hrest.2) nofun

/-- A column at rest and in its ranges stays so. -/
theorem column (h : s.calm t) (hf : s.founded) (hph : s.phase = .idle) (p : Pos) : (t.col p).inRange ∧ (t.col p).atRest := by
  obtain ⟨⟨hheight, hload, hrange, hlow, hhigh⟩, -, hidle⟩ := hf.columns p
  obtain ⟨hcontact, hoffset⟩ := hidle (by rw [State.imagePhase_of_ne (by rw [hph]; nofun), hph])
  rcases h.cols p with he | he
  all_goals
    have hc := (congrArg (·.2.2.1) he :)
    have ho := (congrArg (·.2.2.2.1) he :)
    have hh := (congrArg (·.2.2.2.2.1) he :)
    have hl := (congrArg (·.2.2.2.2.2) he :)
    simp only [Column.carried] at hc ho hh hl
    simp only [Column.inRange, Column.atRest, hc, ho, hh, hl]
  · exact ⟨⟨hheight, hload, hrange, hlow, hhigh⟩, hcontact, hoffset⟩
  · exact ⟨⟨nofun, nofun, nofun, by decide, by decide⟩, rfl, rfl⟩

/-- The laws after an edit in IDLE that leaves the lines alone but for their drops, and the roster, the drops and the copies in order. -/
theorem sound (h : s.calm t) (hs : s.sound full) (hph : s.phase = .idle)
    (hrest : full → t.echoWell ∧ t.rosterWell ∧ t.dropsWell ∧ t.mirrored) : t.sound full := by
  have hphase : t.phase = .idle := (State.phase_of_course h.course).trans hph
  have href : t.ref = s.ref := State.ref_of_course h.course
  have hplan : t.plan = s.plan := State.plan_of_course h.course
  have hpause : t.pausePending = s.pausePending := State.pausePending_of_course h.course
  refine ⟨⟨h.lawful hs.lawful hph, fun hf => ?_, fun hf => ?_⟩, fun _ => State.onLeg_of_not (by rw [hphase]; rfl)⟩
  · have hfs := hs.founded hf
    obtain ⟨hecho, hroster, hdrops, hmirrored⟩ := hrest hf
    refine ⟨by rw [hplan]; exact hfs.plan, by rw [State.limitsInRange, h.limits]; exact hfs.limits, by rw [href]; exact hfs.fine,
      by rw [href]; exact hfs.target, hecho, hroster, hdrops, hmirrored, fun p _ _ hk => ?_, fun p => ?_⟩
    · rw [(h.column hfs hph p).2.1] at hk
      cases hk
    · exact ⟨(h.column hfs hph p).1, fun _ => (h.column hfs hph p).2, fun _ => (h.column hfs hph p).2⟩
  · have hp := hs.paced hf
    obtain ⟨hstep, hdwell, hpending⟩ := hp.timers
    rw [hph] at hstep hdwell hpending
    refine State.paced_of_rest (.inl hphase) ?_ ?_ ?_ ?_
    · rw [href]
      exact hp.still (by rw [hph]; rfl)
    · rw [href]
      exact not_not.mp fun hn => absurd (hstep.mp hn) nofun
    · rw [href]
      exact not_not.mp fun hn => absurd (hdwell.mp hn) nofun
    · rw [hpause]
      exact Bool.eq_false_iff.mpr fun hn => absurd (hpending hn) nofun

end State.calm

end Sys2Proof.Machine

/-! MAP, UNMAP and CONFIRM keep the roster, the drops and their copies in order (R4 to R11). -/

namespace Sys2Proof.Machine

set_option Elab.async false

variable {s t u v w : State} {full : Prop} {q : PortId} {args : List Byte} {p : Pos} {o : Option RosterEntry}

/-! ### The drop that leaves (R6) -/

theorem Drop.enter_ready_well {d : Drop} (h : d.well) (hl : d.link = .enrolled) : (d.enter .ready).well := by
  obtain ⟨hmiss, -, -, -, -, -, hcap⟩ := h
  exact ⟨hmiss, nofun, fun hn => absurd rfl hn, ⟨nofun, fun hn => absurd rfl hn⟩, fun hn => hn.elim nofun nofun, nofun,
    fun _ => hcap (.inr (.inl hl))⟩

theorem Drop.enter_absent_well (d : Drop) : (d.enter .absent).well :=
  ⟨Nat.zero_le _, fun _ => rfl, fun hn => absurd rfl hn, ⟨nofun, fun hn => absurd rfl hn⟩, fun _ => rfl, nofun,
    fun hn => hn.elim nofun fun hn => hn.elim nofun nofun⟩

theorem Drop.enter_enrolled_well {d : Drop} (h : d.well) (hl : d.link = .ready) : (d.enter .enrolled).well := by
  obtain ⟨hmiss, -, -, -, -, -, hcap⟩ := h
  exact ⟨hmiss, nofun, fun hn => absurd rfl hn, ⟨nofun, fun hn => absurd rfl hn⟩, fun hn => hn.elim nofun nofun, nofun,
    fun _ => hcap (.inl hl)⟩

/-- A drop after an entry has left the roster: as it was, and then not that entry's if ENROLLED, or READY, or ABSENT. -/
theorem State.parts.drop (h : s.parts t o) (g : SegId) (d : DropId) :
    (t.drop g d = s.drop g d ∧ ∀ e, o = some e → g = e.seg → d = e.drop → (s.drop g d).link ≠ .enrolled) ∨
      ((s.drop g d).link = .enrolled ∧ t.drop g d = (s.drop g d).enter .ready) ∨
      ((s.drop g d).link = .lost ∧ t.drop g d = (s.drop g d).enter .absent) := by
  by_cases hat : ∃ e, o = some e ∧ g = e.seg ∧ d = e.drop
  · obtain ⟨e, he, rfl, rfl⟩ := hat
    have hl := h.leaves e he
    by_cases hen : (s.drop e.seg e.drop).link = .enrolled
    · exact .inr (.inl ⟨hen, hl.enrolled hen⟩)
    · by_cases hlost : (s.drop e.seg e.drop).link = .lost
      · exact .inr (.inr ⟨hlost, hl.lost hlost⟩)
      · exact .inl ⟨hl.other hen hlost, fun _ _ _ _ => hen⟩
  · exact .inl ⟨h.drops g d fun e he hgd => hat ⟨e, he, hgd.1, hgd.2⟩, fun e he hg hd => absurd ⟨e, he, hg, hd⟩ hat⟩

/-! ### An edit of one entry (R5 to R8) -/

/-- An edit of the entry of position `p` to `o`: the old entry's drop leaves, and the column shows the new one, if any. -/
structure State.reentered (s v w : State) (p : Pos) (o : Option RosterEntry) : Prop where
  leaves : (s.rosterEdited p o).parts v (s.entry p)
  roster : w.roster = (s.rosterEdited p o).roster
  drops : ∀ g d, w.drop g d = v.drop g d
  shows : ∀ e, o = some e → (w.col p).link = (v.drop e.seg e.drop).link ∧ (w.col p).cap = (v.drop e.seg e.drop).cap
  empty : o = none → (w.col p).link = .absent ∧ (w.col p).cap = .empty
  others : ∀ x, x ≠ p → { w.col x with creep := (v.col x).creep } = v.col x
  stirs : ∃ a held, s.stirs w a held
  fresh : ∀ e, o = some e → ∀ x e', s.entry x = some e' → e'.seg = e.seg → e'.drop ≠ e.drop

namespace State.reentered

theorem entry (h : s.reentered v w p o) (x : Pos) : w.entry x = if x = p then o else s.entry x := by
  rw [State.entry_congr h.roster]
  exact State.entry_rosterEdited s p x o

theorem rosterWell (h : s.reentered v w p o) (hf : s.founded) : w.rosterWell := by
  have hinj := Roster.injective_iff.mp hf.roster.1
  have hentry : ∀ x, w.roster.entries.get x = if x = p then o else s.entry x := h.entry
  refine ⟨Roster.injective_iff.mpr fun x y e e' hx hy hseg hdrop => ?_, ?_⟩
  · rw [hentry] at hx hy
    split at hx
    · next hxp =>
      split at hy
      · next hyp => exact hyp.trans hxp.symm
      · exact absurd hdrop (h.fresh e hx y e' hy hseg)
    · split at hy
      · exact absurd hdrop.symm (h.fresh e' hy x e hx hseg.symm)
      · exact hinj x y e e' hx hy hseg hdrop
  · have hconfirmed : w.roster.confirmed = false := by rw [h.roster]; rfl
    refine Roster.confirmedWell_iff.mpr fun hc => ?_
    rw [hconfirmed] at hc
    cases hc

theorem dropsWell (h : s.reentered v w p o) (hf : s.founded) : w.dropsWell := by
  intro g d
  have hwell := hf.drops g d
  rw [h.drops]
  rcases h.leaves.drop g d with ⟨he, -⟩ | ⟨hl, he⟩ | ⟨hl, he⟩
  · rw [he]
    exact hwell
  · rw [he]
    exact Drop.enter_ready_well hwell hl
  · rw [he]
    exact Drop.enter_absent_well _

theorem echoWell (h : s.reentered v w p o) (hf : s.founded) : w.echoWell := by
  obtain ⟨a, held, hstirs⟩ := h.stirs
  refine hstirs.echoWell hf fun g hrun d => ?_
  rw [h.drops]
  rcases h.leaves.drop g d with ⟨he, -⟩ | ⟨hl, he⟩ | ⟨hl, he⟩
  · rw [he]
    exact (hf.echo.2 g hrun).2.2.2 d
  · rw [he]
    rfl
  · rw [he]
    rfl

theorem mirrored (h : s.reentered v w p o) (hf : s.founded) : w.mirrored := by
  obtain ⟨hentries, henrolled, habsent⟩ := hf.mirrored
  have hcol : ∀ x, x ≠ p → (w.col x).link = (s.col x).link ∧ (w.col x).cap = (s.col x).cap := fun x hx => by
    have h1 := h.others x hx
    have h2 := h.leaves.cols x
    exact ⟨(congrArg Column.link h1 :).trans (congrArg Column.link h2 :), (congrArg Column.cap h1 :).trans (congrArg Column.cap h2 :)⟩
  refine ⟨fun x => ⟨fun e he => ?_, fun he => ?_⟩, fun g d hl => ?_, fun hn g d => ?_⟩
  · rw [h.entry] at he
    rw [h.drops]
    split at he
    · next hx =>
      rw [hx]
      exact h.shows e he
    · next hx =>
      obtain ⟨hlink, hcap⟩ := hcol x hx
      obtain ⟨h1, h2⟩ := (hentries x).1 e he
      have hsame : v.drop e.seg e.drop = s.drop e.seg e.drop := h.leaves.drops _ _ fun e' he' hgd =>
        hx (Roster.injective_iff.mp hf.roster.1 p x e' e he' he hgd.1 hgd.2)
      rw [hsame]
      exact ⟨hlink.trans h1, hcap.trans h2⟩
  · rw [h.entry] at he
    split at he
    · next hx =>
      rw [hx]
      exact h.empty he
    · next hx =>
      obtain ⟨hlink, hcap⟩ := hcol x hx
      obtain ⟨h1, h2⟩ := (hentries x).2 he
      exact ⟨hlink.trans h1, hcap.trans h2⟩
  · rw [h.drops] at hl
    rcases h.leaves.drop g d with ⟨he, hnot⟩ | ⟨-, he⟩ | ⟨-, he⟩
    · rw [he] at hl
      obtain ⟨x, hx⟩ := Option.isSome_iff_exists.mp (henrolled g d hl)
      obtain ⟨e, hentry, rfl, rfl⟩ := State.entry_of_mappedAt hx
      have hxp : x ≠ p := by
        rintro rfl
        exact hnot e hentry rfl rfl hl
      have hm := State.mappedAt_of_entry (h.rosterWell hf).1 (p := x) (e := e) (by rw [h.entry, if_neg hxp]; exact hentry)
      rw [hm]
      rfl
    · rw [he] at hl
      cases hl
    · rw [he] at hl
      cases hl
  · obtain ⟨a, held, hstirs⟩ := h.stirs
    rw [hstirs.power] at hn
    have hs := habsent hn g d
    rw [h.drops]
    rcases h.leaves.drop g d with ⟨he, -⟩ | ⟨hl, -⟩ | ⟨hl, -⟩
    · rw [he]
      exact hs
    · cases hs.symm.trans hl
    · cases hs.symm.trans hl

theorem rest (h : s.reentered v w p o) (hf : s.founded) : w.echoWell ∧ w.rosterWell ∧ w.dropsWell ∧ w.mirrored :=
  ⟨h.echoWell hf, h.rosterWell hf, h.dropsWell hf, h.mirrored hf⟩

end State.reentered

/-- The lines of a state seen from one that differs in its roster alone. -/
theorem State.stirs.ofEdit {moved : Prop} {held : Pos → Prop} (h : (s.rosterEdited p o).stirs t moved held) : s.stirs t moved held :=
  ⟨h.power, h.phase, h.awake, h.asleep⟩

/-- Where an edit names another pair than before, or none, the old entry's drop is named no more. -/
theorem State.unnamed (hr : s.roster.injective = true) (hfresh : ∀ e, o = some e → ∀ x e', s.entry x = some e' → e'.seg = e.seg → e'.drop ≠ e.drop) :
    ∀ e, s.entry p = some e → (s.rosterEdited p o).mappedAt e.seg e.drop = none := fun e he =>
  State.mappedAt_rosterEdited hr he fun _ ho => hfresh _ ho p e he rfl rfl

theorem State.reentered_map {g : SegId} {d : DropId} {serial : Option (BitVec 32)} (hr : s.roster.injective = true)
    (hm : s.mappedAt g d = none) :
    let v := (s.rosterEdited p (some ⟨g, d, serial⟩)).entryLeaves (s.entry p)
    s.reentered v (v.loadRecord p g d) p (some ⟨g, d, serial⟩) := by
  intro v
  have hfresh : ∀ e, some (⟨g, d, serial⟩ : RosterEntry) = some e → ∀ x e', s.entry x = some e' → e'.seg = e.seg → e'.drop ≠ e.drop := by
    intro e he x e' hx hseg hdrop
    obtain rfl := Option.some.inj he
    have hnot := State.mappedAt_none hm x
    rw [hx, entryNames_iff.mpr ⟨e', rfl, hseg, hdrop⟩] at hnot
    cases hnot
  have hparts : (s.rosterEdited p (some ⟨g, d, serial⟩)).parts v (s.entry p) := State.entryLeaves_parts (State.unnamed hr hfresh)
  have hloads := v.loadRecord_loads p g d
  refine ⟨hparts, (congrArg State.roster hloads.kept :).trans (congrArg State.roster hparts.kept :), hloads.drops, fun e he => ?_, nofun,
    hloads.cols, ⟨_, _, ((hparts.stirs.weaken fun _ _ => trivial).trans hloads.stirs).ofEdit⟩, hfresh⟩
  obtain rfl := Option.some.inj he
  rw [hloads.col]
  exact ⟨rfl, rfl⟩

theorem State.reentered_unmap (hr : s.roster.injective = true) :
    let v := (s.rosterEdited p none).entryLeaves (s.entry p)
    s.reentered v (v.emptyRecord p) p none := by
  intro v
  have hparts : (s.rosterEdited p none).parts v (s.entry p) := State.entryLeaves_parts (State.unnamed hr nofun)
  have hempties := v.emptyRecord_empties p
  refine ⟨hparts, (congrArg State.roster hempties.kept :).trans (congrArg State.roster hparts.kept :), hempties.drops, nofun, fun _ => ?_,
    hempties.cols, ⟨_, _, ((hparts.stirs.weaken fun _ _ => trivial).trans hempties.stirs).ofEdit⟩, nofun⟩
  rw [hempties.col]
  exact ⟨rfl, rfl⟩

/-! ### MAP and UNMAP -/

/-- An edit that renews the serial of an entry alone (R5). -/
theorem State.sound.renewed (hs : s.sound full) (hph : s.phase = .idle) {g : SegId} {d : DropId} {sn serial : Option (BitVec 32)}
    (he : s.entry p = some ⟨g, d, sn⟩) : (s.rosterEdited p (some ⟨g, d, serial⟩)).sound full := by
  let t := s.rosterEdited p (some ⟨g, d, serial⟩)
  have hentry : ∀ x e, t.entry x = some e → ∃ e', s.entry x = some e' ∧ e'.seg = e.seg ∧ e'.drop = e.drop := fun x e hx => by
    rw [State.entry_rosterEdited] at hx
    split at hx
    · next hxp =>
      obtain rfl := Option.some.inj hx
      exact ⟨⟨g, d, sn⟩, hxp ▸ he, rfl, rfl⟩
    · exact ⟨e, hx, rfl, rfl⟩
  have hcalm : s.calm t := (State.calm.refl s).update
  refine hcalm.sound hs hph fun hf => ?_
  have h := hs.founded hf
  obtain ⟨hentries, henrolled, habsent⟩ := h.mirrored
  have hinj : t.roster.injective = true := Roster.injective_iff.mpr fun x y e e' hx hy hseg hdrop => by
    obtain ⟨e1, h1, hs1, hd1⟩ := hentry x e hx
    obtain ⟨e2, h2, hs2, hd2⟩ := hentry y e' hy
    exact Roster.injective_iff.mp h.roster.1 x y e1 e2 h1 h2 ((hs2.trans hseg).trans hs1.symm) ((hd2.trans hdrop).trans hd1.symm)
  refine ⟨h.echo, ⟨hinj, Roster.confirmedWell_iff.mpr nofun⟩, h.drops, fun x => ⟨fun e hx => ?_, fun hx => ?_⟩, fun g' d' hl => ?_, habsent⟩
  · obtain ⟨e', he', hseg, hdrop⟩ := hentry x e hx
    rw [← hseg, ← hdrop]
    exact (hentries x).1 e' he'
  · rw [State.entry_rosterEdited] at hx
    split at hx
    · cases hx
    · exact (hentries x).2 hx
  · obtain ⟨x, hx⟩ := Option.isSome_iff_exists.mp (henrolled g' d' hl)
    obtain ⟨e, hentry', rfl, rfl⟩ := State.entry_of_mappedAt hx
    by_cases hxp : x = p
    · rw [hxp, he] at hentry'
      obtain rfl := Option.some.inj hentry'
      have hm := State.mappedAt_of_entry hinj (s := t) (p := p) (e := ⟨g, d, serial⟩) (by rw [State.entry_rosterEdited, if_pos rfl])
      exact congrArg Option.isSome hm
    · have hm := State.mappedAt_of_entry hinj (s := t) (p := x) (e := e) (by rw [State.entry_rosterEdited, if_neg hxp]; exact hentry')
      exact congrArg Option.isSome hm

theorem State.idle_of_rosterRefusal (h : s.rosterRefusal q = none) : s.phase = .idle := by
  unfold State.rosterRefusal at h
  split at h
  · cases h
  · split at h
    · cases h
    · next hph => exact not_not.mp hph

/-- MAP of a pair that no position names, or that its own position names (R5). -/
theorem State.sound.acceptMap (hs : s.sound full) (hph : s.phase = .idle) {a : MapArgs}
    (hm : s.mappedAt a.seg a.drop = none ∨ s.mappedAt a.seg a.drop = some a.pos) : (s.acceptMap a).sound full := by
  obtain ⟨p, g, d, serial⟩ := a
  by_cases hsame : ∃ sn, s.entry p = some ⟨g, d, sn⟩
  · rw [State.acceptMap_same hsame]
    obtain ⟨sn, he⟩ := hsame
    exact ((State.steady.refl _).triggerIfChanged _).sound (hs.renewed hph he)
  · have hnone : s.mappedAt g d = none := hm.resolve_right fun hp => hsame (by
      obtain ⟨⟨_, _, sn⟩, he, rfl, rfl⟩ := State.entry_of_mappedAt hp
      exact ⟨sn, he⟩)
    rw [State.acceptMap_new hsame]
    have hedit : s.calm (s.rosterEdited p (some ⟨g, d, serial⟩)) := (State.calm.refl s).update
    refine ((State.steady.refl _).triggerIfChanged _).sound (((hedit.entryLeaves _).loadRecord p g d).sound hs hph fun hf => ?_)
    exact (State.reentered_map (hs.founded hf).roster.1 hnone).rest (hs.founded hf)

theorem ownerMap_sound (hs : s.sound full) : (ownerMap q s args).1.sound full := by
  unfold ownerMap
  split
  · exact hs
  · next hrefusal =>
    have hph := State.idle_of_rosterRefusal hrefusal
    split
    · exact hs
    · split
      · next hm => exact hs.acceptMap hph (.inl hm)
      · next hm =>
        split
        · next hp => exact hs.acceptMap hph (.inr (hp ▸ hm))
        · exact hs

theorem State.sound.acceptUnmap (hs : s.sound full) (hph : s.phase = .idle) (p : Pos) : (s.acceptUnmap p).sound full := by
  have hedit : s.calm (s.rosterEdited p none) := (State.calm.refl s).update
  refine ((State.steady.refl _).triggerIfChanged _).sound (((hedit.entryLeaves (s.entry p)).emptyRecord p).sound hs hph fun hf => ?_)
  exact (State.reentered_unmap (hs.founded hf).roster.1).rest (hs.founded hf)

theorem ownerUnmap_sound (hs : s.sound full) : (ownerUnmap q s args).1.sound full := by
  unfold ownerUnmap
  split
  · exact hs
  · next hrefusal =>
    split
    · exact hs
    · split
      · exact hs.acceptUnmap (State.idle_of_rosterRefusal hrefusal) _
      · exact hs

/-! ### CONFIRM (R10, R11) -/

/-- What a position that passes CONFIRM's tests has: its drop READY or ENROLLED, and no empty entry in a present car. -/
theorem State.passed_of_confirmFault (h : s.confirmFault p = none) :
    (∀ e, s.entry p = some e → (s.drop e.seg e.drop).link = .ready ∨ (s.drop e.seg e.drop).link = .enrolled) ∧
      (s.entry p = none → s.carPresent (carOf p) = false) := by
  refine ⟨fun e he => ?_, fun he => ?_⟩
  · by_contra hn
    rw [State.confirmFault_notReady ⟨e, he, fun h => hn (.inl h), fun h => hn (.inr h)⟩] at h
    cases h
  · by_contra hn
    rw [State.confirmFault_incomplete ⟨he, Bool.not_eq_false _ ▸ hn⟩] at h
    cases h

theorem State.confirmFault_of_first (h : s.firstConfirmFault = none) (p : Pos) : s.confirmFault p = none := by
  have hp := List.findSome?_eq_none_iff.mp h p (List.mem_finRange p)
  exact Option.map_eq_none_iff.mp hp

/-- A confirmed roster has its serials, since every drop of it has one (R11). -/
theorem State.rosterWell_confirmed (hf : s.founded) (hsome : s.validPositions ≠ []) (hpass : ∀ p, s.confirmFault p = none)
    (hentry : ∀ x, t.entry x = (s.entry x).map fun e => { e with serial := e.serial.or (s.drop e.seg e.drop).cap.serial }) : t.rosterWell := by
  refine ⟨Roster.injective_iff.mpr fun x y e e' hx hy hseg hdrop => ?_, Roster.confirmedWell_iff.mpr fun _ => ⟨?_, fun c => ?_⟩⟩
  · obtain ⟨e1, h1, rfl⟩ := Option.map_eq_some_iff.mp ((hentry x).symm.trans hx)
    obtain ⟨e2, h2, rfl⟩ := Option.map_eq_some_iff.mp ((hentry y).symm.trans hy)
    exact Roster.injective_iff.mp hf.roster.1 x y e1 e2 h1 h2 hseg hdrop
  · obtain ⟨p, hp⟩ := List.exists_mem_of_ne_nil _ hsome
    have hv := State.mem_validPositions.mp hp
    refine ⟨p, (congrArg Option.isSome (hentry p)).trans ?_⟩
    rw [Option.isSome_map]
    exact hv
  · refine Roster.wholeCar_iff.mpr fun p x hp hx hv => ?_
    have hv' : s.validPos p = true := by
      have := (congrArg Option.isSome (hentry p)).symm.trans hv
      rwa [Option.isSome_map] at this
    obtain ⟨hready, hwhole⟩ := State.passed_of_confirmFault (hpass x)
    cases he : s.entry x with
    | none =>
      have hcar := State.carPresent_iff.mpr ⟨p, hp.trans hx.symm, hv'⟩
      exact absurd (hcar.symm.trans (hwhole he)) nofun
    | some e =>
      obtain ⟨-, -, -, -, -, -, hcap⟩ := hf.drops e.seg e.drop
      have hserial := (hcap ((hready e he).imp_right .inl)).1
      have hget : t.roster.entries.get x = some { e with serial := e.serial.or (s.drop e.seg e.drop).cap.serial } := by
        have := hentry x
        rw [he] at this
        exact this
      rw [hget]
      simp only [Option.bind_some, Option.isSome_or, hserial, Bool.or_true]

/-- The drops and their copies after the enrolments of a CONFIRM. -/
theorem State.enrolling.rest (h : s.pinnedRoster.enrolling t (List.finRange 48)) (hf : s.founded) :
    t.echoWell ∧ t.dropsWell ∧ t.mirrored := by
  obtain ⟨hentries, henrolled, habsent⟩ := hf.mirrored
  have hpinned : ∀ x e, s.pinnedRoster.entry x = some e ↔
      ∃ e', s.entry x = some e' ∧ { e' with serial := e'.serial.or (s.drop e'.seg e'.drop).cap.serial } = e := fun x e => by
    rw [State.entry_pinnedRoster, Option.map_eq_some_iff]
  have hroster : t.roster = s.pinnedRoster.roster := (congrArg State.roster h.kept :)
  have hdrop : ∀ g d, (t.drop g d = s.drop g d ∧ ((s.mappedAt g d).isSome = true → (s.drop g d).link ≠ .ready)) ∨
      (s.drop g d).link = .ready ∧ (s.mappedAt g d).isSome = true ∧ t.drop g d = (s.drop g d).enter .enrolled := fun g d => by
    by_cases hm : (s.mappedAt g d).isSome = true ∧ (s.drop g d).link = .ready
    · obtain ⟨x, hx⟩ := Option.isSome_iff_exists.mp hm.1
      obtain ⟨e, he, rfl, rfl⟩ := State.entry_of_mappedAt hx
      exact .inr ⟨hm.2, hm.1, (h.enrolled x _ ((hpinned x _).mpr ⟨e, he, rfl⟩) (List.mem_finRange x) hm.2).1⟩
    · refine .inl ⟨h.drops g d fun x _ hx hl => hm ⟨?_, hl⟩, fun hs hl => hm ⟨hs, hl⟩⟩
      rw [State.mappedAt_pinnedRoster] at hx
      rw [hx]
      rfl
  have hstirs : ∃ moved, s.stirs t moved fun _ => True := ⟨_, h.stirs.power, h.stirs.phase, h.stirs.awake, h.stirs.asleep⟩
  obtain ⟨moved, hstirs⟩ := hstirs
  refine ⟨hstirs.echoWell hf fun g hrun d => ?_, fun g d => ?_, fun x => ⟨fun e he => ?_, fun he => ?_⟩, fun g d hl => ?_, fun hn g d => ?_⟩
  · rcases hdrop g d with ⟨he, -⟩ | ⟨-, -, he⟩
    · rw [he]
      exact (hf.echo.2 g hrun).2.2.2 d
    · rw [he]
      rfl
  · rcases hdrop g d with ⟨he, -⟩ | ⟨hl, -, he⟩
    · rw [he]
      exact hf.drops g d
    · rw [he]
      exact Drop.enter_enrolled_well (hf.drops g d) hl
  · rw [State.entry_congr hroster] at he
    obtain ⟨e', he', rfl⟩ := (hpinned x e).mp he
    obtain ⟨h1, h2⟩ := (hentries x).1 e' he'
    by_cases hl : (s.drop e'.seg e'.drop).link = .ready
    · obtain ⟨hd, hc⟩ := h.enrolled x _ he (List.mem_finRange x) hl
      refine ⟨(congrArg Column.link hc :).trans ?_, (congrArg Column.cap hc :).trans ?_⟩
      · exact (congrArg Drop.link hd :).symm
      · exact (congrArg Drop.cap hd :).symm
    · have hc := h.cols x (.inr (Bool.eq_false_iff.mpr fun hr => by
        rw [State.readyAt_pinnedRoster] at hr
        obtain ⟨e2, he2, hl2⟩ := State.readyAt_iff.mp hr
        exact hl (Option.some.inj (he'.symm.trans he2) ▸ hl2)))
      have hd : t.drop e'.seg e'.drop = s.drop e'.seg e'.drop := by
        rcases hdrop e'.seg e'.drop with ⟨hd, -⟩ | ⟨hr, -⟩
        · exact hd
        · exact absurd hr hl
      exact ⟨((congrArg Column.link hc :).trans h1).trans (congrArg Drop.link hd :).symm,
        ((congrArg Column.cap hc :).trans h2).trans (congrArg Drop.cap hd :).symm⟩
  · rw [State.entry_congr hroster] at he
    have hnone : s.entry x = none := by
      rw [State.entry_pinnedRoster, Option.map_eq_none_iff] at he
      exact he
    have hc := h.cols x (.inr (by rw [State.readyAt_pinnedRoster, State.readyAt, hnone]; rfl))
    obtain ⟨h1, h2⟩ := (hentries x).2 hnone
    exact ⟨(congrArg Column.link hc :).trans h1, (congrArg Column.cap hc :).trans h2⟩
  · rw [State.mappedAt_congr hroster, State.mappedAt_pinnedRoster]
    rcases hdrop g d with ⟨he, -⟩ | ⟨-, hm, -⟩
    · exact henrolled g d ((congrArg Drop.link he :).symm.trans hl)
    · exact hm
  · rw [hstirs.power] at hn
    have hs := habsent hn g d
    rcases hdrop g d with ⟨he, -⟩ | ⟨hl, -⟩
    · exact (congrArg Drop.link he :).trans hs
    · cases hs.symm.trans hl

theorem State.sound.acceptConfirm (hs : s.sound full) (hph : s.phase = .idle) (hsome : s.validPositions ≠ [])
    (hpass : ∀ p, s.confirmFault p = none) : s.acceptConfirm.sound full := by
  have hpinned : s.calm s.pinnedRoster := (State.calm.refl s).update
  have hcalm := (State.calm.enrolAll (List.finRange 48) hpinned).confirmedOf
  rw [State.acceptConfirm_eq]
  refine ((State.steady.refl _).trigger).sound (hcalm.sound hs hph fun hf => ?_)
  have hfs := hs.founded hf
  have hmap : ∀ p e, s.pinnedRoster.entry p = some e → s.pinnedRoster.mappedAt e.seg e.drop = some p := fun p e he => by
    rw [State.entry_pinnedRoster, Option.map_eq_some_iff] at he
    obtain ⟨e', he', rfl⟩ := he
    rw [State.mappedAt_pinnedRoster]
    exact State.mappedAt_of_entry (e := e') hfs.roster.1 he'
  have henrolling := State.foldl_enrolAt (List.nodup_finRange 48) hmap
  generalize (List.finRange 48).foldl State.enrolAt s.pinnedRoster = u at henrolling
  obtain ⟨hecho, hdrops, hmirrored⟩ := henrolling.rest hfs
  have hroster : u.roster = s.pinnedRoster.roster := (congrArg State.roster henrolling.kept :)
  refine ⟨hecho, State.rosterWell_confirmed hfs hsome hpass fun x => ?_, hdrops, ?_⟩
  · exact (State.entry_congr hroster x).trans (State.entry_pinnedRoster s x)
  · obtain ⟨h1, h2, h3⟩ := hmirrored
    have hcol : ∀ p, u.confirmedOf.col p = { u.col p with wasLost := false } := fun p => State.col_mapCols _ _ p
    refine ⟨fun p => ⟨fun e he => ?_, fun he => ?_⟩, h2, h3⟩
    · rw [hcol]
      exact (h1 p).1 e he
    · rw [hcol]
      exact (h1 p).2 he

theorem ownerConfirm_sound (hs : s.sound full) : (ownerConfirm q s args).1.sound full := by
  unfold ownerConfirm
  split
  · exact hs
  · next hrefusal =>
    split
    · exact hs
    · split
      · exact hs
      · next hsome =>
        split
        · exact hs
        · next hfirst =>
          dsimp only
          exact hs.acceptConfirm (State.idle_of_rosterRefusal hrefusal) hsome (State.confirmFault_of_first hfirst)

end Sys2Proof.Machine

/-! The laws through the start-up commands: the release of reset and the end of the reading (R186 to R190). -/

namespace Sys2Proof.Machine

set_option Elab.async false

variable {s : State} {full : Prop} {status : RetentionStatus} {m : Image}

/-! ### The image that is restored (R188, R189) -/

theorem Image.default_consistent : Image.default.consistent = true := by
  refine Image.consistent_iff.mpr ⟨nofun, Roster.injective_iff.mpr fun p _ e _ hp => ?_, Roster.confirmedWell_iff.mpr nofun, ?_, ?_,
    fun p => Image.goodPosition_iff.mpr ⟨fun k hk => ?_, ?_, fun _ => ?_⟩, fun _ => Image.landedAtRest_iff.mpr fun p => ?_⟩
  · cases (Table.get_fill _ _).symm.trans hp
  · decide
  · decide
  · cases (Table.get_fill _ _).symm.trans hk
  · rw [show Image.default.offsets.get p = 0 from Table.get_fill _ _]
    decide
  · exact ⟨Table.get_fill _ _, Table.get_fill _ _⟩
  · exact ⟨Table.get_fill _ _, Table.get_fill _ _⟩

/-- The reading restores a consistent image, whatever the memory answers (R188, R189). -/
theorem readImage_consistent (r : MemoryReading) : ((readImage r).2.getD .default).consistent = true := by
  unfold readImage
  split
  · exact Image.default_consistent
  · split
    · exact Image.default_consistent
    · split
      · exact Image.default_consistent
      · split
        · exact Image.default_consistent
        · next m hdecode =>
          unfold decodeImage at hdecode
          split at hdecode
          · cases hdecode
          · split at hdecode
            · next hgood =>
              cases hdecode
              exact (Bool.and_eq_true_iff.mp hgood).2
            · cases hdecode

/-! ### The state that is restored -/

/-- Before the image has been read every column shows an ABSENT drop without a capability record (R7, R46, R189). -/
theorem State.founded.unread (hf : s.founded) (hp : s.power ≠ .running) :
    (∀ g d, (s.drop g d).link = .absent ∧ (s.drop g d).cap = .empty) ∧ ∀ p, (s.col p).link = .absent ∧ (s.col p).cap = .empty := by
  obtain ⟨hentries, -, habsent⟩ := hf.mirrored
  have hdrops : ∀ g d, (s.drop g d).link = .absent ∧ (s.drop g d).cap = .empty := fun g d => by
    obtain ⟨-, -, -, -, hcap, -⟩ := hf.drops g d
    exact ⟨habsent hp g d, hcap (.inl (habsent hp g d))⟩
  refine ⟨hdrops, fun p => ?_⟩
  cases he : s.entry p with
  | none => exact (hentries p).2 he
  | some e =>
    obtain ⟨h1, h2⟩ := (hentries p).1 e he
    obtain ⟨h3, h4⟩ := hdrops e.seg e.drop
    exact ⟨h1.trans h3, h2.trans h4⟩

theorem State.founded.restoredIn (hf : s.founded) (hp : s.power ≠ .running) (hm : m.consistent = true) :
    (s.restoredIn status m).founded := by
  obtain ⟨hph, hinj, hconfirmed, hlimits, hplan, hgood, hrest⟩ := Image.consistent_iff.mp hm
  obtain ⟨hdrops, hcols⟩ := hf.unread hp
  have hcol := s.col_restoredIn status m
  have hlink : ∀ p, ((s.restoredIn status m).col p).link = .absent ∧ ((s.restoredIn status m).col p).cap = .empty := fun p => by
    rw [hcol]
    exact hcols p
  have hdrop : ∀ g d, (s.restoredIn status m).drop g d = s.drop g d := fun _ _ => rfl
  refine ⟨hplan, hlimits, hf.fine, hf.target, hf.echo, ⟨hinj, hconfirmed⟩, hf.drops,
    ⟨fun p => ⟨fun e _ => ?_, fun _ => hlink p⟩, fun g d hl => ?_, fun hn => absurd rfl hn⟩, fun p _ hl => ?_, fun p => ?_⟩
  · rw [hdrop, (hdrops e.seg e.drop).1, (hdrops e.seg e.drop).2]
    exact hlink p
  · cases (hdrops g d).1.symm.trans hl
  · cases (hlink p).1.symm.trans hl
  · obtain ⟨hcontact, hoffset, hinvalid⟩ := Image.goodPosition_iff.mp (hgood p)
    obtain ⟨⟨hheight, hload, -⟩, -⟩ := hf.columns p
    have himage : (s.restoredIn status m).imagePhase = m.phase := State.imagePhase_of_ne hph
    rw [himage, hcol]
    refine ⟨⟨hheight, hload, hcontact, hoffset⟩, fun hv => hinvalid ?_, fun hi => Image.landedAtRest_iff.mp (hrest hi) p⟩
    exact Option.not_isSome_iff_eq_none.mp fun h => Bool.eq_false_iff.mp hv h

/-- Before the image has been read the group is in IDLE at rest (R62). -/
theorem State.paced.rest (h : s.paced) (hph : s.phase = .idle) :
    s.ref.vEff = 0 ∧ s.ref.stepTimer = .stopped ∧ s.ref.dwellTimer = .stopped ∧ s.pausePending = false := by
  obtain ⟨hstep, hdwell, hpause⟩ := h.timers
  rw [hph] at hstep hdwell hpause
  exact ⟨h.still (by rw [hph]; rfl), not_not.mp fun hn => absurd (hstep.mp hn) nofun, not_not.mp fun hn => absurd (hdwell.mp hn) nofun,
    Bool.eq_false_iff.mpr fun hn => absurd (hpause hn) nofun⟩

/-- The state restored in IDLE, with STOP_OUT closed (R189). -/
theorem State.sound.restoredIdle (hs : s.sound full) (hp : s.power ≠ .running) (hm : m.consistent = true) (hidle : m.phase = .idle) :
    (s.restored status m).closeStopOut.sound full := by
  have hphase : s.phase = .idle := hs.lawful.stops.1.2.2 hp
  have hrecord : s.stop.record = none := Option.not_isSome_iff_eq_none.mp fun h => by
    cases hphase.symm.trans (hs.lawful.stops.1.1.mp h)
  have hcol := s.col_restoredIn status m
  have hin : s.restoredIn status m = s.restored status m := by
    unfold State.restoredIn
    rw [hidle, ← hphase]
    rfl
  have ht : (s.restored status m).closeStopOut.phase = .idle := hphase
  refine ⟨⟨⟨⟨⟨⟨fun h => ?_, fun h => ?_⟩, ⟨nofun, fun h => ?_⟩, fun hn => absurd rfl hn⟩, fun r hr => ?_⟩, fun p => ?_⟩, fun hf => ?_, fun hf => ?_⟩,
    fun _ => State.onLeg_of_not (by rw [ht]; rfl)⟩
  · cases (congrArg Option.isSome hrecord).symm.trans h
  · cases ht.symm.trans h
  · cases h with
    | inl h => cases ht.symm.trans h
    | inr hn => exact absurd rfl hn
  · cases hrecord.symm.trans hr
  · obtain ⟨hdemand, hjog⟩ := hs.lawful.demands.rest (.inl hphase) p
    rw [ht, show (s.restored status m).closeStopOut.col p = _ from hcol p]
    exact Column.demand_zero hdemand fun hj => absurd (hj.symm.trans hjog) nofun
  · have h := (hs.founded hf).restoredIn (status := status) hp hm
    rw [hin] at h
    exact ⟨h.plan, h.limits, h.fine, h.target, h.echo, h.roster, h.drops, h.mirrored, h.contacts,
      State.columnsWell_congr (s := s.restored status m) rfl rfl rfl (fun _ => ⟨rfl, rfl, id⟩) h.columns⟩
  · obtain ⟨hv, hstep, hdwell, hpause⟩ := (hs.paced hf).rest hphase
    exact State.paced_of_rest (.inl ht) hv hstep hdwell hpause

/-! ### The end of the reading and the release of reset -/

/-- Polling begins where no phase is a motion phase (R24). -/
theorem State.sound.startPolling (hs : s.sound full) (hph : s.phase.isMotion = false) :
    ((s.raise .retain).mapSegs Segment.startPolling).sound full := by
  refine State.steady.sound (((State.steady.refl s).raise .retain).mapSegs _ fun a => ?_) hs
  rw [show (s.raise .retain).phase = s.phase from rfl, hph]
  exact .startPolling a

theorem State.sound.imageReadEnd (hs : s.sound full) (r : MemoryReading) : (s.imageReadEnd r).sound full := by
  unfold State.imageReadEnd
  split
  · next hp =>
    have hunread : s.power ≠ .running := by rw [hp]; nofun
    have hm := readImage_consistent r
    obtain ⟨hstopped, -⟩ := Image.consistent_iff.mp hm
    generalize (readImage r).1 = status
    generalize (readImage r).2.getD .default = m at hm hstopped
    by_cases hidle : m.phase = .idle
    · have hrestored := hs.restoredIdle (status := status) hunread hm hidle
      have hphase : s.phase = .idle := hs.lawful.stops.1.2.2 hunread
      have htried := ((State.steady.refl _).mapSegs Segment.tryEcho fun a => .tryEcho a).sound hrestored
      unfold State.endReading State.takePhase
      rw [hidle]
      exact htried.startPolling ((congrArg Phase.isMotion hphase :))
    · rw [State.endReading_stop hidle]
      have hstop := State.firstStop_spec (s.restoredIn status m) (plainOffer .powerRestored none) rfl hstopped
      refine (State.sound_of_stop hstop rfl hstopped fun hf => (hs.founded hf).restoredIn hunread hm).startPolling ?_
      rw [hstop.phase]
      rfl
  all_goals exact hs

theorem State.sound.resetRelease (hs : s.sound full) (b a : Bool) : (s.resetRelease b a).sound full := by
  unfold State.resetRelease
  split
  · next hp =>
    have hunread : s.power ≠ .running := by rw [hp]; nofun
    obtain ⟨⟨⟨hrecord, hout, hidle⟩, hcause⟩, hdemands⟩ := hs.lawful
    refine ⟨⟨⟨⟨⟨hrecord, ⟨fun _ => .inr nofun, fun _ => hout.mpr (.inr hunread)⟩, fun _ => hidle hunread⟩, hcause⟩, hdemands⟩, fun hf => ?_,
      fun hf => ?_⟩, hs.onLeg⟩
    · have h := hs.founded hf
      obtain ⟨hentries, henrolled, habsent⟩ := h.mirrored
      exact ⟨h.plan, h.limits, h.fine, h.target, h.echo, h.roster, h.drops, ⟨hentries, henrolled, fun _ => habsent hunread⟩, h.contacts,
        h.columns⟩
    · have h := hs.paced hf
      exact ⟨h.still, h.speed, h.timers, h.polling, h.ready, h.approach⟩
  all_goals exact hs

end Sys2Proof.Machine

/-! O59 and O60: every command keeps the laws, and so does every step. -/

namespace Sys2Proof.Machine

set_option Elab.async false

variable {s t : State} {full : Prop} {q : PortId} {args : List Byte}

/-! ### The requests whose owners change nothing that a law looks at -/

theorem ownerReadRoster_steady : s.steady (ownerReadRoster s args).1 := by
  unfold ownerReadRoster
  split
  · exact .refl s
  · exact .refl s

theorem ownerReadColumn_steady : s.steady (ownerReadColumn s args).1 := by
  unfold ownerReadColumn
  split
  · exact .refl s
  · exact .refl s

theorem ownerReadCar_steady : s.steady (ownerReadCar s args).1 := by
  unfold ownerReadCar
  split
  · exact .refl s
  · exact .refl s

theorem ownerReadSegment_steady : s.steady (ownerReadSegment s args).1 := by
  unfold ownerReadSegment
  split
  · exact .refl s
  · exact .refl s

theorem ownerReadGroup_steady : s.steady (ownerReadGroup s args).1 := by
  unfold ownerReadGroup
  split
  · exact .refl s
  · exact State.steady.ite (State.steady.refl s).spendFresh (.refl s)

theorem ownerReadPlan_steady : s.steady (ownerReadPlan s args).1 := by
  unfold ownerReadPlan
  split
  · exact .refl s
  · exact .refl s

theorem ownerReadLimits_steady : s.steady (ownerReadLimits s args).1 := by
  unfold ownerReadLimits
  split
  · exact .refl s
  · exact .refl s

theorem ownerReadStop_steady : s.steady (ownerReadStop s args).1 := by
  unfold ownerReadStop
  split
  · exact .refl s
  · exact .refl s

theorem ownerNoticeNext_steady : s.steady (ownerNoticeNext q s args).1 := by
  unfold ownerNoticeNext
  split
  · exact .refl s
  · split
    · exact .refl s
    · exact (State.steady.refl s).modNotices q _

theorem ownerNoticeSet_steady : s.steady (ownerNoticeSet q s args).1 := by
  unfold ownerNoticeSet
  split
  · exact .refl s
  · exact (State.steady.refl s).modNotices q _

theorem ownerWatch_steady : s.steady (ownerWatch q s args).1 := by
  unfold ownerWatch
  split
  · exact .refl s
  · exact (State.steady.refl s).modWatch q _

theorem ownerUnwatch_steady : s.steady (ownerUnwatch q s args).1 := by
  unfold ownerUnwatch
  split
  · exact .refl s
  · exact (State.steady.refl s).modWatch q _

theorem ownerClaim_steady : s.steady (ownerClaim q s args).1 := by
  unfold ownerClaim
  split
  · exact .refl s
  · split
    · exact (State.steady.refl s).grant q
    · split
      · exact .refl s
      · exact .refl s

theorem ownerYield_steady : s.steady (ownerYield q s args).1 := by
  unfold ownerYield
  split
  · exact .refl s
  · split
    · exact .refl s
    · split
      · exact (State.steady.refl s).clearHolder
      · exact .refl s

/-! ### The commands of the ports, the authority and the stops -/

theorem State.update_steady (s : State) (q : PortId) : s.steady (s.update q) := by
  unfold State.update
  split
  · exact .refl s
  · exact .ite (((State.steady.refl s).modPort q _).modWatch q _) (.refl s)
  · exact .refl s

theorem State.sound.stopByte (hs : s.sound full) (q : PortId) : (s.stopByte q).sound full := by
  unfold State.stopByte
  split
  · exact hs
  all_goals exact hs.offerStop _

theorem State.sound.byteReceived (hs : s.sound full) (q : PortId) (v : Byte) (f : Bool) : (s.byteReceived q v f).sound full := by
  have hport : ∀ g, (s.modRunningPort q g).sound full := fun g => ((State.steady.refl s).modRunningPort q g).sound hs
  unfold State.byteReceived
  split
  · exact hport _
  · split
    · exact hport _
    · split
      · exact hs.stopByte q
      · exact hport _

theorem State.sound.stopInOpens (hs : s.sound full) : s.stopInOpens.sound full := by
  unfold State.stopInOpens
  split
  · exact hs
  · exact (hs.setStopIn .opened).offerStop _

theorem State.sound.lapseExpiry (hs : s.sound full) : s.lapseExpiry.sound full := by
  have hclear : s.clearHolder.sound full := ((State.steady.refl s).clearHolder).sound hs
  unfold State.lapseExpiry
  split
  · exact hs
  · split
    · exact hclear.offerStop _
    · exact hclear

/-! ### The counts beside the other laws -/

/-- The laws of a state but for those of the stations; with `full` false those that O59 speaks of. -/
structure State.orderly (full : Prop) (s : State) : Prop where
  counts : s.countsWell
  sound : s.sound full

theorem State.orderly.of_steady (h : s.orderly full) (hk : s.keeps t) (hst : s.steady t) : t.orderly full :=
  ⟨hk.counts h.counts, hst.sound h.sound⟩

/-- The execution of a request keeps the laws where its owner does. -/
theorem State.orderly.execute (h : s.orderly full) (q : PortId) (isCode : Byte → Bool) {owner : State → List Byte → State × Answer}
    (hserved : ∀ args, s.served (owner s args)) (hsound : ∀ args, (owner s args).1.sound full) : (s.execute q isCode owner).orderly full := by
  refine State.execute_induction (P := State.orderly full) h fun code tag args _ => ?_
  have ho : (owner s args).1.orderly full := ⟨(hserved args).laws.counts h.counts, hsound args⟩
  exact ho.of_steady ((State.keeps.refl _).reply q code tag _) ((State.steady.refl _).modPort q _)

/-- The execution of a request whose owner changes nothing that a law looks at. -/
theorem State.orderly.serve (h : s.orderly full) (q : PortId) (isCode : Byte → Bool) {owner : State → List Byte → State × Answer}
    (hserved : ∀ args, s.served (owner s args)) (hst : ∀ args, s.steady (owner s args).1) : (s.execute q isCode owner).orderly full :=
  h.execute q isCode hserved fun args => (hst args).sound h.sound

theorem State.orderly.takeClaim (h : s.orderly full) (q : PortId) : (s.takeClaim q).orderly full :=
  h.serve q _ (ownerClaim_served s q) fun _ => ownerClaim_steady

theorem State.orderly.powerOnReset (s : State) (level : Contact) : (s.powerOnReset level).orderly full := by
  obtain ⟨-, hcounts, hsound⟩ := (State.safe_iff _).mp (s.powerOnReset_safe level)
  exact ⟨hcounts, ⟨hsound.lawful, fun _ => hsound.founded trivial, fun _ => hsound.paced trivial⟩, fun _ => hsound.onLeg trivial⟩

/-- The laws through every command. -/
theorem exec_orderly {i : Instr} (h : s.orderly full) (hm : s.mirrored) (hg : s.groupReady) (he : exec i s = .next t) : t.orderly full := by
  have hk := State.keeps.refl s
  have hst := State.steady.refl s
  obtain ⟨hc, hs⟩ := id h
  cases i <;> obtain rfl := Host.Outcome.next.inj he
  case powerOnReset level => exact .powerOnReset s level
  case resetRelease b a =>
    refine ⟨?_, hs.resetRelease b a⟩
    unfold State.resetRelease
    split
    · exact hc
    all_goals exact hc
  case imageReadEnd r => exact ⟨(hk.imageReadEnd r).counts hc, hs.imageReadEnd r⟩
  case writeEnd o => exact h.of_steady (hk.writeEnd o) (hst.writeEnd o)
  case stationByteReceived q v f => exact ⟨(hk.byteReceived q v f).counts hc, hs.byteReceived q v f⟩
  case hold q => exact h.of_steady (hk.modRunningPort q _) (hst.modRunningPort q _)
  case go q => exact h.of_steady (hk.modRunningPort q _) (hst.modRunningPort q _)
  case stopByte q => exact ⟨(hk.stopByte q).counts hc, hs.stopByte q⟩
  case frameAssemblerTake q => exact h.of_steady (hk.assemble q) (hst.assemble q)
  case transmitCharacter q => exact h.of_steady (hk.modRunningPort q _) (hst.modRunningPort q _)
  case updateFrame q => exact h.of_steady (s.update_keeps q) (State.update_steady s q)
  case unknown q => exact h.serve q _ (ownerUnknown_served s) fun _ => .refl s
  case readRoster q => exact h.serve q _ (ownerReadRoster_served s) fun _ => ownerReadRoster_steady
  case readColumn q => exact h.serve q _ (ownerReadColumn_served s) fun _ => ownerReadColumn_steady
  case readCar q => exact h.serve q _ (ownerReadCar_served s) fun _ => ownerReadCar_steady
  case readSegment q => exact h.serve q _ (ownerReadSegment_served s) fun _ => ownerReadSegment_steady
  case readGroup q => exact h.serve q _ (ownerReadGroup_served s) fun _ => ownerReadGroup_steady
  case readPlan q => exact h.serve q _ (ownerReadPlan_served s) fun _ => ownerReadPlan_steady
  case readLimits q => exact h.serve q _ (ownerReadLimits_served s) fun _ => ownerReadLimits_steady
  case readStop q => exact h.serve q _ (ownerReadStop_served s) fun _ => ownerReadStop_steady
  case noticeNext q => exact h.serve q _ (ownerNoticeNext_served s q) fun _ => ownerNoticeNext_steady
  case noticeSet q => exact h.serve q _ (ownerNoticeSet_served s q) fun _ => ownerNoticeSet_steady
  case watch q => exact h.serve q _ (ownerWatch_served s q) fun _ => ownerWatch_steady
  case unwatch q => exact h.serve q _ (ownerUnwatch_served s q) fun _ => ownerUnwatch_steady
  case claim q => exact State.claim_induction (P := State.orderly full) (fun _ q hx => hx.takeClaim q) q h
  case yield q => exact h.serve q _ (ownerYield_served s q) fun _ => ownerYield_steady
  case stop q => exact h.execute q _ (ownerStop_served s q) fun _ => ownerStop_sound hs
  case map q => exact h.execute q _ (ownerMap_served s q) fun _ => ownerMap_sound hs
  case unmap q => exact h.execute q _ (ownerUnmap_served s q) fun _ => ownerUnmap_sound hs
  case link q => exact h.execute q _ (ownerLink_served s q) fun _ => ownerLink_sound hs
  case confirm q => exact h.execute q _ (ownerConfirm_served s q) fun _ => ownerConfirm_sound hs
  case echo q => exact h.execute q _ (ownerEcho_served s q) fun _ => ownerEcho_sound hs
  case approach q => exact h.execute q _ (ownerApproach_served s q) fun _ => ownerApproach_sound hs
  case run q => exact h.execute q _ (ownerRun_served s q) fun _ => ownerRun_sound hs
  case pause q => exact h.execute q _ (ownerPause_served s q) fun _ => ownerPause_sound hs
  case setdown q => exact h.execute q _ (ownerSetdown_served s q) fun _ => ownerSetdown_sound hs
  case retract q => exact h.execute q _ (ownerRetract_served s q) fun _ => ownerRetract_sound hs
  case jog q => exact h.execute q _ (ownerJog_served s q) fun _ => ownerJog_sound hs
  case rearm q => exact h.execute q _ (ownerRearm_served s q) fun _ => ownerRearm_sound hs
  case planLeg q => exact h.execute q _ (ownerPlanLeg_served s q) fun _ => ownerPlanLeg_sound hs
  case planCut q => exact h.execute q _ (ownerPlanCut_served s q) fun _ => ownerPlanCut_sound hs
  case limitSet q => exact h.execute q _ (ownerLimitSet_served s q) fun _ => ownerLimitSet_sound hs
  case lapseTimerExpiry => exact ⟨hk.lapseExpiry.counts hc, hs.lapseExpiry⟩
  case stopInOpen => exact ⟨hk.stopInOpens.counts hc, hs.stopInOpens⟩
  case stopInClose => exact ⟨hc, hs.setStopIn .closed⟩
  case pollCycleTimerExpiry g => exact h.of_steady (hk.pollExpiry g) (hst.pollExpiry g)
  case command g => exact h.of_steady (hk.sendCommand g) (hst.sendCommand g)
  case segmentLineByte g v => exact h.of_steady (hk.modSeg g _) (hst.modSeg g _ (.hearByte _))
  case statusArrival g f => exact ⟨(hk.statusArrival g f).counts hc, hs.statusArrival hm hg g f⟩
  case replyWindowClose g => exact ⟨(hk.windowClose g).counts hc, hs.windowClose hm g⟩
  case allstop g => exact h.of_steady (hk.allstop g) (hst.allstop g)
  case quietEntryTimerExpiry g => exact h.of_steady (hk.quietExpiry g) (hst.quietExpiry g)
  case settleTimerExpiry g d => exact ⟨(hk.settleExpiry g d).counts hc, hs.settleExpiry hm g d⟩
  case echoTestRunning g => exact h.of_steady (hk.echoRunning g) (hst.echoRunning g)
  case echoPulse g r => exact h.of_steady (hk.modSeg g _) (hst.modSeg g _ (.recordPulse _ r))
  case echoTestEnd g => exact h.of_steady (hk.echoEnd g) (hst.echoEnd g)
  case referenceStepTimerExpiry => exact ⟨hk.referenceStep.counts hc, hs.referenceStep⟩
  case dwellTimerExpiry => exact ⟨hk.dwellExpiry.counts hc, hs.dwellExpiry⟩

/-! ### The steps -/

/-- The laws through a step: it takes the front command on the state with the queue's rest, which no law looks at. -/
theorem step_orderly (h : s.orderly full) (hm : s.mirrored) (hg : s.groupReady) (hstep : step s = .next t) : t.orderly full := by
  rcases step_cases hstep with rfl | ⟨c, rest, -, he⟩
  · exact h
  · have hrest : ({ s with pending := rest } : State).orderly full :=
      h.of_steady (State.keeps.update (.refl s)) (State.steady.update (.refl s))
    exact exec_orderly hrest hm hg he

/-- Settles O59: the laws of the stop unit, the counts and the demands through the command that the step takes. -/
theorem stepKeepsStopAndDemandLaws : Obligations.StepKeepsStopAndDemandLaws := by
  unfold Obligations.StepKeepsStopAndDemandLaws
  intro s t hstops hcounts hm hg hdemands hstep
  have h : s.orderly False := ⟨hcounts, ⟨⟨hstops, hdemands⟩, False.elim, False.elim⟩, False.elim⟩
  obtain ⟨hc, hs⟩ := step_orderly h hm hg hstep
  exact ⟨hs.lawful.stops, hc, hs.lawful.demands⟩

/-- Settles O60: the laws of the stations and all the others through the command that the step takes. -/
theorem stepKeepsSafe : Obligations.StepKeepsSafe := by
  unfold Obligations.StepKeepsSafe
  intro s t hs hstep
  obtain ⟨hstations, hcounts, hsound⟩ := (State.safe_iff s).mp hs
  obtain ⟨hc, ht⟩ := step_orderly ⟨hcounts, hsound⟩ (hsound.founded trivial).mirrored (hsound.paced trivial).ready hstep
  exact (State.safe_iff t).mpr ⟨stepKeepsStationLaws s t hstations hstep, hc, ht⟩

end Sys2Proof.Machine
